-- ==== Sys2Proof/Word.lean ====
section
/-!
DEFINITION. The word types and their plainest arithmetic.
-/

namespace Sys2Proof

abbrev Byte := BitVec 8

/-- A 64-bit register value (R108). -/
abbrev Word := BitVec 64

/-- A parcel of code (R41). -/
abbrev Parcel := BitVec 16

/-- A 32-bit instruction or header word (R42). -/
abbrev W32 := BitVec 32

/-- A row of an accumulator tile: 512 bytes (R202). -/
abbrev Row := BitVec 4096

end Sys2Proof
end

