-- ==== Sys2Proof/Syntax.lean ====
section
/-!
DEFINITION. The instruction set: one constructor per row of spec/opcode_table.json, in the table's order.
A row with an encoding carries its operand fields as bit vectors of the field's width; a 32-bit word also
carries `h : Hd`, its S and G fields (R43). A row without an encoding is an EVENT of the module (a packet, an engine's
action, a register write, an input from outside); it carries what the spec lets vary between two such events.
-/

namespace Sys2Proof

/-- R43: the S bit (1 ends the bundle) and the guard predicate's number of a 32-bit word. -/
structure Hd where
  s : Bool
  g : BitVec 4
deriving DecidableEq, Repr

/-- The three streams of a job (R108). -/
inductive StreamId where
  | a | m | v
deriving DecidableEq, Repr

/-- What a host access through a BAR window does: a read, or a write of bytes at rising offsets. -/
inductive HostOp where
  | read  (n : Nat)
  | write (bytes : List Byte)
deriving DecidableEq, Repr

/-- The two directions of a fabric port (R414). -/
inductive LinkDir where
  | outbound | inbound
deriving DecidableEq, Repr

/-- A master of the module's access checks, as a 16-bit number (R506): context in bits 15:4, unit class in bits 3:0. -/
abbrev Master := BitVec 16

/-- The 256 bytes of a link flit (R415), byte 0 first. -/
abbrev Flit := List Byte

/-- The parameters of an SPDM request that the module answers (R521): the slot, an offset and a length, and the
requester's nonce. -/
structure SpdmReq where
  slot   : Nat
  offset : Nat
  length : Nat
  nonce  : BitVec 256
deriving DecidableEq, Repr

/-- One constructor per row of the opcode table. -/
inductive Instr where
  | notify (m : Master) (q : Nat)
  | bar2RingAccess (off : Nat) (op : HostOp)
  | entryFetch (h : Nat)
  | fetchPoll (h : Nat)
  | nopPacket (h : Nat)
  | launchPacket (h : Nat)
  | graphPacket (h : Nat)
  | writePacket (h : Nat)
  | fillPacket (h : Nat)
  | copyPacket (h : Nat)
  | signalPacket (h : Nat)
  | waitPacket (h : Nat)
  | waitRecheck (h : Nat)
  | waitTimeout (h : Nat)
  | fencePacket (h : Nat)
  | timestampPacket (h : Nat)
  | segadminNew (h : Nat)
  | segadminEvict (h : Nat)
  | segadminDrop (h : Nat)
  | segadminQuery (h : Nat)
  | packetComplete (h : Nat) (n : Nat)
  | enable (m : Master) (q : Nat)
  | disable (m : Master) (q : Nat)
  | disableComplete
  | queueMap
  | idleUnmap (h : Nat)
  | timesliceUnmap (h : Nat)
  | blockHeader (r : BitVec 1) (e : BitVec 1) (t : BitVec 1) (k : BitVec 3) (l : BitVec 10) (n : BitVec 12)
  | compactAddX0 (a : BitVec 5) (b : BitVec 5)
  | compactAdd (a : BitVec 5) (b : BitVec 5)
  | compactSub (a : BitVec 5) (b : BitVec 5)
  | compactAnd (a : BitVec 5) (b : BitVec 5)
  | compactOr (a : BitVec 5) (b : BitVec 5)
  | compactXor (a : BitVec 5) (b : BitVec 5)
  | compactAddi (a : BitVec 5) (i : BitVec 5)
  | compactMovi (a : BitVec 5) (i : BitVec 5)
  | compactShli (a : BitVec 5) (n : BitVec 5)
  | compactShri (a : BitVec 5) (n : BitVec 5)
  | compactSari (a : BitVec 5) (n : BitVec 5)
  | compactLdd (a : BitVec 5) (b : BitVec 5)
  | compactStd (a : BitVec 5) (b : BitVec 5)
  | compactSaddi (n : BitVec 5) (i : BitVec 5)
  | compactQput (q : BitVec 3) (b : BitVec 5)
  | compactQget (a : BitVec 5) (q : BitVec 3)
  | compactNop
  | compactEnd
  | add (h : Hd) (d : BitVec 5) (a : BitVec 5) (b : BitVec 5)
  | sub (h : Hd) (d : BitVec 5) (a : BitVec 5) (b : BitVec 5)
  | and (h : Hd) (d : BitVec 5) (a : BitVec 5) (b : BitVec 5)
  | or (h : Hd) (d : BitVec 5) (a : BitVec 5) (b : BitVec 5)
  | xor (h : Hd) (d : BitVec 5) (a : BitVec 5) (b : BitVec 5)
  | shl (h : Hd) (d : BitVec 5) (a : BitVec 5) (b : BitVec 5)
  | shr (h : Hd) (d : BitVec 5) (a : BitVec 5) (b : BitVec 5)
  | sar (h : Hd) (d : BitVec 5) (a : BitVec 5) (b : BitVec 5)
  | min (h : Hd) (d : BitVec 5) (a : BitVec 5) (b : BitVec 5)
  | max (h : Hd) (d : BitVec 5) (a : BitVec 5) (b : BitVec 5)
  | umin (h : Hd) (d : BitVec 5) (a : BitVec 5) (b : BitVec 5)
  | umax (h : Hd) (d : BitVec 5) (a : BitVec 5) (b : BitVec 5)
  | mul (h : Hd) (d : BitVec 5) (a : BitVec 5) (b : BitVec 5)
  | mulh (h : Hd) (d : BitVec 5) (a : BitVec 5) (b : BitVec 5)
  | umulh (h : Hd) (d : BitVec 5) (a : BitVec 5) (b : BitVec 5)
  | div (h : Hd) (d : BitVec 5) (a : BitVec 5) (b : BitVec 5)
  | udiv (h : Hd) (d : BitVec 5) (a : BitVec 5) (b : BitVec 5)
  | rem (h : Hd) (d : BitVec 5) (a : BitVec 5) (b : BitVec 5)
  | urem (h : Hd) (d : BitVec 5) (a : BitVec 5) (b : BitVec 5)
  | clz (h : Hd) (d : BitVec 5) (a : BitVec 5)
  | popc (h : Hd) (d : BitVec 5) (a : BitVec 5)
  | brev (h : Hd) (d : BitVec 5) (a : BitVec 5)
  | sextb (h : Hd) (d : BitVec 5) (a : BitVec 5)
  | sexth (h : Hd) (d : BitVec 5) (a : BitVec 5)
  | sextw (h : Hd) (d : BitVec 5) (a : BitVec 5)
  | zextw (h : Hd) (d : BitVec 5) (a : BitVec 5)
  | slt (h : Hd) (d : BitVec 5) (a : BitVec 5) (b : BitVec 5)
  | uslt (h : Hd) (d : BitVec 5) (a : BitVec 5) (b : BitVec 5)
  | addi (h : Hd) (d : BitVec 5) (a : BitVec 5) (i : BitVec 9)
  | andi (h : Hd) (d : BitVec 5) (a : BitVec 5) (i : BitVec 9)
  | ori (h : Hd) (d : BitVec 5) (a : BitVec 5) (i : BitVec 9)
  | xori (h : Hd) (d : BitVec 5) (a : BitVec 5) (i : BitVec 9)
  | shli (h : Hd) (d : BitVec 5) (a : BitVec 5) (n : BitVec 6)
  | shri (h : Hd) (d : BitVec 5) (a : BitVec 5) (n : BitVec 6)
  | sari (h : Hd) (d : BitVec 5) (a : BitVec 5) (n : BitVec 6)
  | movi (h : Hd) (d : BitVec 5) (i : BitVec 14)
  | ldlit (h : Hd) (d : BitVec 5) (i : BitVec 14)
  | setlc (h : Hd) (a : BitVec 5) (i : BitVec 9)
  | cmp (h : Hd) (p : BitVec 3) (a : BitVec 5) (b : BitVec 5) (c : BitVec 4) (k : BitVec 2)
  | cmpi (h : Hd) (p : BitVec 3) (a : BitVec 5) (i : BitVec 5) (c : BitVec 4) (k : BitVec 2)
  | br (h : Hd) (o : BitVec 19)
  | call (h : Hd) (o : BitVec 19)
  | jmp (h : Hd) (a : BitVec 5)
  | callr (h : Hd) (a : BitVec 5)
  | ret (h : Hd)
  | pand (h : Hd) (d : BitVec 4) (a : BitVec 4) (b : BitVec 4)
  | por (h : Hd) (d : BitVec 4) (a : BitVec 4) (b : BitVec 4)
  | pxor (h : Hd) (d : BitVec 4) (a : BitVec 4) (b : BitVec 4)
  | pandn (h : Hd) (d : BitVec 4) (a : BitVec 4) (b : BitVec 4)
  | pnot (h : Hd) (d : BitVec 4) (a : BitVec 4)
  | pmov (h : Hd) (d : BitVec 4) (a : BitVec 4)
  | pbcast (h : Hd) (d : BitVec 4) (a : BitVec 4)
  | pcnt (h : Hd) (d : BitVec 5) (a : BitVec 4)
  | ldb (h : Hd) (d : BitVec 5) (a : BitVec 5) (c : BitVec 4) (o : BitVec 5)
  | ldh (h : Hd) (d : BitVec 5) (a : BitVec 5) (c : BitVec 4) (o : BitVec 5)
  | ldw (h : Hd) (d : BitVec 5) (a : BitVec 5) (c : BitVec 4) (o : BitVec 5)
  | ldd (h : Hd) (d : BitVec 5) (a : BitVec 5) (c : BitVec 4) (o : BitVec 5)
  | stb (h : Hd) (d : BitVec 5) (a : BitVec 5) (c : BitVec 4) (o : BitVec 5)
  | sth (h : Hd) (d : BitVec 5) (a : BitVec 5) (c : BitVec 4) (o : BitVec 5)
  | stw (h : Hd) (d : BitVec 5) (a : BitVec 5) (c : BitVec 4) (o : BitVec 5)
  | std (h : Hd) (d : BitVec 5) (a : BitVec 5) (c : BitVec 4) (o : BitVec 5)
  | amo (h : Hd) (d : BitVec 5) (a : BitVec 5) (b : BitVec 5) (f : BitVec 4)
  | amow (h : Hd) (d : BitVec 5) (a : BitVec 5) (b : BitVec 5) (f : BitVec 4)
  | amon (h : Hd) (a : BitVec 5) (b : BitVec 5) (f : BitVec 4)
  | cas (h : Hd) (d : BitVec 5) (a : BitVec 5) (b : BitVec 5)
  | casw (h : Hd) (d : BitVec 5) (a : BitVec 5) (b : BitVec 5)
  | asc (h : Hd) (d : BitVec 5) (a : BitVec 5) (b : BitVec 5) (f : BitVec 4)
  | ascCas (h : Hd) (d : BitVec 5) (a : BitVec 5) (b : BitVec 5)
  | fence (h : Hd) (m : BitVec 16) (e : BitVec 3)
  | sadd (h : Hd) (n : BitVec 6) (a : BitVec 5)
  | saddi (h : Hd) (n : BitVec 6) (i : BitVec 5)
  | swait (h : Hd) (n : BitVec 6) (a : BitVec 5)
  | sread (h : Hd) (d : BitVec 5) (n : BitVec 6)
  | sset (h : Hd) (n : BitVec 6) (a : BitVec 5)
  | qput (h : Hd) (q : BitVec 3) (a : BitVec 5)
  | qget (h : Hd) (d : BitVec 5) (q : BitVec 3)
  | qcount (h : Hd) (d : BitVec 5) (q : BitVec 3)
  | qflush (h : Hd) (q : BitVec 3)
  | brq (h : Hd) (q : BitVec 3) (o : BitVec 16)
  | csrr (h : Hd) (d : BitVec 5) (c : BitVec 12)
  | csrw (h : Hd) (a : BitVec 5) (c : BitVec 12)
  | csrwSet (h : Hd) (a : BitVec 5) (c : BitVec 12)
  | csrwClr (h : Hd) (a : BitVec 5) (c : BitVec 12)
  | nop (h : Hd)
  | rdv (h : Hd) (m : BitVec 3)
  | sysEnd (h : Hd)
  | trap (h : Hd) (c : BitVec 14)
  | bkpt (h : Hd)
  | lbar (h : Hd) (k : BitVec 3)
  | mwait (h : Hd) (a : BitVec 5)
  | mwaitTimeout (slot : Nat) (st : StreamId)
  | eret (h : Hd)
  | wfe (h : Hd)
  | stopack (h : Hd)
  | taskadd (h : Hd) (d : BitVec 5) (a : BitVec 5) (b : BitVec 5)
  | taskjoin (h : Hd) (d : BitVec 5) (a : BitVec 5) (b : BitVec 5)
  | taskget (h : Hd) (d : BitVec 5) (a : BitVec 5) (b : BitVec 5)
  | taskgetTimeout (slot : Nat)
  | cpyLin (h : Hd) (d : BitVec 5) (a : BitVec 5) (b : BitVec 5)
  | cpyShp (h : Hd) (d : BitVec 5) (a : BitVec 5) (b : BitVec 5)
  | cpySlot (h : Hd) (d : BitVec 5) (a : BitVec 5) (b : BitVec 5)
  | cpyFill (h : Hd) (d : BitVec 5) (a : BitVec 5) (b : BitVec 5)
  | cpyCirc (h : Hd) (d : BitVec 5) (a : BitVec 5) (b : BitVec 5)
  | gath (h : Hd) (d : BitVec 5) (a : BitVec 5) (b : BitVec 5)
  | scat (h : Hd) (d : BitVec 5) (a : BitVec 5) (b : BitVec 5)
  | racq (h : Hd) (d : BitVec 5) (n : BitVec 5) (r : BitVec 1)
  | rrel (h : Hd) (n : BitVec 5) (r : BitVec 1)
  | rcan (h : Hd) (n : BitVec 5) (r : BitVec 1)
  | rstat (h : Hd) (d : BitVec 5) (n : BitVec 5)
  | fempty (h : Hd) (a : BitVec 5) (b : BitVec 5)
  | ftest (h : Hd) (d : BitVec 5) (a : BitVec 5)
  | fput (h : Hd) (d : BitVec 5) (a : BitVec 5) (b : BitVec 5)
  | fget (h : Hd) (d : BitVec 5) (a : BitVec 5) (b : BitVec 5)
  | fred (h : Hd) (d : BitVec 5) (a : BitVec 5) (b : BitVec 5) (f : BitVec 4)
  | fll (h : Hd) (d : BitVec 5) (a : BitVec 5)
  | fsc (h : Hd) (d : BitVec 5) (a : BitVec 5) (b : BitVec 5)
  | fsig (h : Hd) (d : BitVec 5) (a : BitVec 5) (b : BitVec 5)
  | fcoll (h : Hd) (d : BitVec 5) (a : BitVec 5) (b : BitVec 5)
  | segnew (h : Hd) (d : BitVec 5) (a : BitVec 5) (b : BitVec 5)
  | segatt (h : Hd) (d : BitVec 5) (a : BitVec 5) (l : BitVec 1) (w : BitVec 1)
  | segdet (h : Hd) (d : BitVec 5) (a : BitVec 5)
  | segevict (h : Hd) (d : BitVec 5) (a : BitVec 5)
  | segdrop (h : Hd) (d : BitVec 5) (a : BitVec 5)
  | segqry (h : Hd) (d : BitVec 5) (a : BitVec 5)
  | cflush (h : Hd) (d : BitVec 5) (a : BitVec 5) (b : BitVec 5)
  | cinv (h : Hd) (d : BitVec 5) (a : BitVec 5) (b : BitVec 5)
  | cclean (h : Hd) (d : BitVec 5) (a : BitVec 5) (b : BitVec 5)
  | cpref (h : Hd) (d : BitVec 5) (a : BitVec 5) (b : BitVec 5)
  | vadd (h : Hd) (d : BitVec 5) (a : BitVec 5) (b : BitVec 5) (m : BitVec 1)
  | vsub (h : Hd) (d : BitVec 5) (a : BitVec 5) (b : BitVec 5) (m : BitVec 1)
  | vmul (h : Hd) (d : BitVec 5) (a : BitVec 5) (b : BitVec 5) (m : BitVec 1)
  | vfma (h : Hd) (d : BitVec 5) (a : BitVec 5) (b : BitVec 5) (m : BitVec 1)
  | vfms (h : Hd) (d : BitVec 5) (a : BitVec 5) (b : BitVec 5) (m : BitVec 1)
  | vfnma (h : Hd) (d : BitVec 5) (a : BitVec 5) (b : BitVec 5) (m : BitVec 1)
  | vmax (h : Hd) (d : BitVec 5) (a : BitVec 5) (b : BitVec 5) (m : BitVec 1)
  | vmin (h : Hd) (d : BitVec 5) (a : BitVec 5) (b : BitVec 5) (m : BitVec 1)
  | vabs (h : Hd) (d : BitVec 5) (a : BitVec 5)
  | vneg (h : Hd) (d : BitVec 5) (a : BitVec 5)
  | vrcpe (h : Hd) (d : BitVec 5) (a : BitVec 5)
  | vrsqe (h : Hd) (d : BitVec 5) (a : BitVec 5)
  | vfloor (h : Hd) (d : BitVec 5) (a : BitVec 5)
  | vrnd (h : Hd) (d : BitVec 5) (a : BitVec 5)
  | vscale (h : Hd) (d : BitVec 5) (a : BitVec 5) (b : BitVec 5) (m : BitVec 1)
  | viadd (h : Hd) (d : BitVec 5) (a : BitVec 5) (b : BitVec 5) (m : BitVec 1)
  | visub (h : Hd) (d : BitVec 5) (a : BitVec 5) (b : BitVec 5) (m : BitVec 1)
  | vimul (h : Hd) (d : BitVec 5) (a : BitVec 5) (b : BitVec 5) (m : BitVec 1)
  | vand (h : Hd) (d : BitVec 5) (a : BitVec 5) (b : BitVec 5) (m : BitVec 1)
  | vor (h : Hd) (d : BitVec 5) (a : BitVec 5) (b : BitVec 5) (m : BitVec 1)
  | vxor (h : Hd) (d : BitVec 5) (a : BitVec 5) (b : BitVec 5) (m : BitVec 1)
  | vshl (h : Hd) (d : BitVec 5) (a : BitVec 5) (b : BitVec 5) (m : BitVec 1)
  | vsar (h : Hd) (d : BitVec 5) (a : BitVec 5) (b : BitVec 5) (m : BitVec 1)
  | vmov (h : Hd) (d : BitVec 5) (b : BitVec 5) (m : BitVec 1)
  | vsel (h : Hd) (d : BitVec 5) (a : BitVec 5) (b : BitVec 5) (m : BitVec 1)
  | vclamp (h : Hd) (d : BitVec 5) (a : BitVec 5) (b : BitVec 5) (m : BitVec 1)
  | vshr (h : Hd) (d : BitVec 5) (a : BitVec 5) (b : BitVec 5) (m : BitVec 1)
  | vcvt (h : Hd) (d : BitVec 5) (a : BitVec 5) (t : BitVec 1) (c : BitVec 4) (r : BitVec 3)
  | vcmp (h : Hd) (p : BitVec 3) (a : BitVec 5) (b : BitVec 5) (c : BitVec 4) (k : BitVec 2)
  | vradd (h : Hd) (d : BitVec 5) (a : BitVec 5)
  | vrmax (h : Hd) (d : BitVec 5) (a : BitVec 5)
  | vrmin (h : Hd) (d : BitVec 5) (a : BitVec 5)
  | vraddx (h : Hd) (d : BitVec 5) (a : BitVec 5)
  | vperm (h : Hd) (d : BitVec 5) (a : BitVec 5) (b : BitVec 5) (m : BitVec 1)
  | vrot (h : Hd) (d : BitVec 5) (a : BitVec 5) (b : BitVec 5) (m : BitVec 1)
  | vshft (h : Hd) (d : BitVec 5) (a : BitVec 5) (b : BitVec 5) (m : BitVec 1)
  | vdup (h : Hd) (d : BitVec 5) (a : BitVec 5) (b : BitVec 5) (m : BitVec 1)
  | vbc (h : Hd) (d : BitVec 5) (a : BitVec 5)
  | vext (h : Hd) (d : BitVec 5) (a : BitVec 5) (b : BitVec 5)
  | vld (h : Hd) (d : BitVec 5) (a : BitVec 5) (c : BitVec 4) (o : BitVec 5)
  | vst (h : Hd) (d : BitVec 5) (a : BitVec 5) (c : BitVec 4) (o : BitVec 5)
  | vldl (h : Hd) (d : BitVec 5) (a : BitVec 5) (o : BitVec 8)
  | vstl (h : Hd) (d : BitVec 5) (a : BitVec 5) (o : BitVec 8)
  | vcord (h : Hd) (d : BitVec 5) (a : BitVec 5) (n : BitVec 5) (f : BitVec 3)
  | vwin (h : Hd) (t : BitVec 2) (u : BitVec 1) (k : BitVec 3)
  | pgo (h : Hd) (p : BitVec 3)
  | pstop (h : Hd) (p : BitVec 3)
  | vstp (h : Hd) (d : BitVec 5) (p : BitVec 3)
  | vstat (h : Hd) (d : BitVec 5) (a : BitVec 5)
  | portPrefetch (slot : Nat) (port : Nat)
  | mcfg (h : Hd) (c : BitVec 8) (a : BitVec 5)
  | mma (h : Hd)
  | mmac (h : Hd)
  | trn (h : Hd) (d : BitVec 2) (t : BitVec 2)
  | prm (h : Hd) (d : BitVec 2) (t : BitVec 2)
  | rred (h : Hd) (d : BitVec 2) (t : BitVec 2)
  | zero (h : Hd) (m : BitVec 4)
  | mclaim (h : Hd) (n : BitVec 4)
  | mrel (h : Hd) (n : BitVec 4)
  | mwaitn (h : Hd) (a : BitVec 5)
  | mpri (h : Hd) (a : BitVec 5)
  | mfmt (h : Hd) (e : BitVec 4) (a : BitVec 5)
  | mret (h : Hd) (t : BitVec 2)
  | mstat (h : Hd) (c : BitVec 1) (d : BitVec 5)
  | nestStart (core : Nat)
  | kstep (core : Nat)
  | retirementComplete (core : Nat)
  | tileOpComplete (core : Nat)
  | nestEntryComplete (slot : Nat)
  | streamAgeTick
  | nestAgeTick
  | recordAgeTick
  | packetAgeTick
  | commandStart (slot : Nat) (fq : Bool)
  | commandUnitLand (slot : Nat) (fq : Bool) (idx : Nat) (unit : Nat)
  | commandComplete (slot : Nat) (fq : Bool) (idx : Nat)
  | circuitSlot (cluster : Nat)
  | reservationExpire
  | fabricTimeout (tag : Nat)
  | graphTableLoad (g : Nat)
  | completionProcessing (i : Nat)
  | loopEvaluate (g : Nat) (node : Nat)
  | endNode (g : Nat) (node : Nat)
  | launchAdmission
  | coresidentReserve (launch : Nat) (slot : Nat)
  | cowaitTimeout (launch : Nat)
  | hierarchyExpansion (launch : Nat)
  | recordReady (record : Nat)
  | taskPop (slot : Nat) (pick : Nat)
  | jobStart (slot : Nat)
  | jobEnd (slot : Nat)
  | spillRefill (bank : Nat)
  | preemptionRequest (id : Nat) (victim : Nat)
  | affinityRelax (record : Nat)
  | tqReprio (m : Master) (d : Word)
  | clusterShareWrite (m : Master) (cluster : Nat) (d : Word)
  | tlbinv (m : Master) (d : Word)
  | tlbinvComplete
  | rangeCtlWrite (m : Master) (range : Nat) (d : Word)
  | govLimitsWrite (m : Master) (d : Word)
  | ballastStep
  | tarnFillComplete (ctx : Nat) (name : Nat)
  | tarnWritebackComplete (ctx : Nat) (name : Nat)
  | tarnMigration (ctx : Nat) (name : Nat)
  | dataFlit (port : Nat) (flit : Flit)
  | creditFlit (port : Nat) (flit : Flit)
  | nackFlit (port : Nat) (flit : Flit)
  | shedreqFlit (port : Nat) (flit : Flit)
  | restripeFlit (port : Nat) (flit : Flit)
  | abortFlit (port : Nat) (flit : Flit)
  | uncorrectableCodeword (port : Nat) (lane : Nat)
  | shedWindowEnd (port : Nat)
  | linkDown (port : Nat) (dir : LinkDir)
  | routeSelect (port : Nat) (vc : Nat)
  | escapeEntry (port : Nat) (vc : Nat)
  | egressSend (port : Nat)
  | escctlFlip (m : Master) (d : Word)
  | put
  | getreq
  | getdata
  | sig
  | fllRequest
  | fscRequest
  | ack
  | install (m : Master) (addr : Word)
  | remove (m : Master) (addr : Word)
  | removeComplete
  | collectiveStart (slot : Nat)
  | bucketSend (group : Nat) (inst : Nat)
  | red
  | bucketTimeout (node : Nat) (key : Nat)
  | collResult
  | collIncomplete
  | collError
  | noResultTimeout (group : Nat) (inst : Nat)
  | stop (core : Nat)
  | resume (core : Nat)
  | kill (core : Nat)
  | report (core : Nat)
  | fwCommandComplete (core : Nat)
  | fwSelWrite (core : Nat) (d : Word)
  | fwJcsrWrite (core : Nat) (d : Word)
  | fwTick
  | wdageExpire (slot : Nat) (st : StreamId)
  | jobTrap (slot : Nat)
  | fwContextRestart (core : Nat)
  | scanDrain (core : Nat)
  | coppiceScan (core : Nat)
  | scanDeferTimeout (core : Nat)
  | scanEnd (core : Nat) (pass : Bool)
  | checkpointClose
  | closeComplete
  | rollback
  | sliceSpare (slice : Nat)
  | laserSpare (bank : Nat)
  | hedgeSelWrite (m : Master) (d : Word)
  | hedgeDataWrite (m : Master) (d : Word)
  | hedgeApply
  | patternTest (m : Master) (stack : Nat) (ch : Nat) (d : Word)
  | patternTestComplete (stack : Nat) (ch : Nat) (pass : BitVec 66) (errs : Word)
  | rdallWrite (m : Master) (stack : Nat) (ch : Nat) (d : Word)
  | wdallWrite (m : Master) (stack : Nat) (ch : Nat) (d : Word)
  | repairWrite (m : Master) (stack : Nat) (ch : Nat) (d : Word)
  | chmodeWrite (m : Master) (stack : Nat) (ch : Nat) (d : Word)
  | channelOffline (stack : Nat) (ch : Nat)
  | stage (m : Master) (d : Word)
  | stageComplete
  | activate (m : Master) (d : Word)
  | abort (m : Master) (d : Word)
  | svncommit (m : Master) (d : Word)
  | ready (ctl : Nat)
  | handed (ctl : Nat)
  | healthy (ctl : Nat)
  | updateDeadline
  | switchWindowExpire
  | coreFirmwareSwitch (core : Nat)
  | fwHealth (core : Nat) (d : Word)
  | boot (ok : List Bool)
  | clear (m : Master)
  | retry (m : Master)
  | getVersion (req : SpdmReq)
  | getCapabilities (req : SpdmReq)
  | negotiateAlgorithms (req : SpdmReq)
  | getDigests (req : SpdmReq)
  | getCertificate (req : SpdmReq)
  | challenge (req : SpdmReq)
  | getMeasurements (req : SpdmReq)
  | perst
  | bar4Access (off : Nat) (op : HostOp)
  | msixMaskWrite (m : Master) (vec : Nat) (masked : Bool)
  | cxlLinkDown (p : Nat)
  | cxlLinkUp (p : Nat)
  | undervoltage
  | thermalThrottle (die : Nat) (temp : Nat)
  | overtemperature (die : Nat) (temp : Nat)
  | registerWrite (m : Master) (off : Nat) (d : Word)
  | throttleRelease (temps : List Nat)
  | laneRetrain (port : Nat) (lane : Nat)
  | controllerRestart (n : Nat)
deriving DecidableEq, Repr

end Sys2Proof
end

