-- ==== Sys2Proof/Config.lean ====
section
/-!
DEFINITION. What the implementation or the environment fixes, and the free values: constants without a body, of which
nothing can be proved but what they are applied to. Each stands for a value that the spec leaves open (the assumption
log names the entry).
-/

namespace Sys2Proof.Config

/-- log 3: a free 64-bit value, by the count of free values drawn so far. -/
opaque freeWord : Nat → Word

/-- R520: the KEYID of the key held in fuses, which the spec does not give. -/
opaque fusedKeyid : List Byte

/-- R519, R520: whether a signature verifies over a digest under that key. -/
opaque signatureOk (digest sig : List Byte) : Bool

/-- R521: the certificate chain of slot 0, by the digest of the measured management controller image. -/
opaque certChain (measured : List Byte) : List Byte

/-- R521: the signature of the alias key, derived from a measured image, over some bytes. -/
opaque aliasSign (measured msg : List Byte) : List Byte

/-- R539, R540: the capacity in GiB of the device at a CXL port. -/
opaque cxlCapacity (port : Nat) : Nat

/-- log 123: the set of its slice that a line of the L2 goes to (modulo 1024). -/
opaque l2Set (line : Nat) : Nat

/-- log 3: the slice that the hint of a copy's or a port's request names (R341), by context, layout and address (modulo 128). -/
opaque hintSlice (ctx layout va : Nat) : Nat

/-- log 150: the spare lasers of a bank (R503), and those of the module (R505), when it leaves the factory. -/
opaque laserSpares (bank : Nat) : Nat
opaque lasers : Nat

/-- log 150: the lanes of the fabric's ports that the lasers of a bank feed (R503). -/
opaque laserLanes (bank : Nat) : List (Nat × BitVec 16)

/-- log 112: the escape port, with its valid bit, that boot writes to a routing entry (R428, R431, R531): GRT.n by n, LRT.k by 1024 + k
(modulo 256). -/
opaque escTree (entry : Nat) : Nat

/-- log 76: the address of a job counter in the module's own region (R305), by launch and the path of its node. -/
opaque jobCounter (launch : Nat) (node : List Nat) : Word

end Sys2Proof.Config
end

