-- ==== Sys2Proof/WellFormed.lean ====
section
/-!
DEFINITION. Which instructions are well formed: those whose fields the spec's encoding tables admit, and those events
whose indices name a unit that the module has.
-/

namespace Sys2Proof

/-- R223, R224: code 15 is reserved, the rounding is 0 to 5, .SR goes with codes 0 to 3, and SAT with a code whose
destination is an IEEE floating-point type. -/
def vcvtOk (t : BitVec 1) (c : BitVec 4) (r : BitVec 3) : Bool :=
  c.toNat != 15 && r.toNat ≤ 5 && (r.toNat != 5 || c.toNat ≤ 3) &&
    (t == 0 || !(c.toNat == 8 || c.toNat == 9 || c.toNat == 14))

/-- R233: an iteration count of 8 to 26, or 0 for 24. -/
def vcordIter (n : BitVec 5) : Bool := n.toNat == 0 || (8 ≤ n.toNat && n.toNat ≤ 26)

/-- R63, VV: with m = 1, bits 4:3 of vb are 0. -/
def portOk (m : BitVec 1) (b : BitVec 5) : Bool := m == 0 || decide (b.toNat < 8)

/-- R250: the matrix configuration registers that exist. -/
def mcfgExists (c : BitVec 8) : Bool :=
  (decide (c.toNat < 0x30) && decide (c.toNat % 8 ≤ 4)) || (decide (0x30 ≤ c.toNat) && decide (c.toNat ≤ 0x3D))

/-- Whether an instruction is well formed. -/
def Instr.wf : Instr → Bool
  | .notify _ q => decide (q < 4096)
  | .bar2RingAccess _ _ => true
  | .entryFetch h => decide (h < 256)
  | .fetchPoll h => decide (h < 256)
  | .nopPacket h => decide (h < 256)
  | .launchPacket h => decide (h < 256)
  | .graphPacket h => decide (h < 256)
  | .writePacket h => decide (h < 256)
  | .fillPacket h => decide (h < 256)
  | .copyPacket h => decide (h < 256)
  | .signalPacket h => decide (h < 256)
  | .waitPacket h => decide (h < 256)
  | .waitRecheck h => decide (h < 256)
  | .waitTimeout h => decide (h < 256)
  | .fencePacket h => decide (h < 256)
  | .timestampPacket h => decide (h < 256)
  | .segadminNew h => decide (h < 256)
  | .segadminEvict h => decide (h < 256)
  | .segadminDrop h => decide (h < 256)
  | .segadminQuery h => decide (h < 256)
  | .packetComplete h _ => decide (h < 256)
  | .enable _ q => decide (q < 4096)
  | .disable _ q => decide (q < 4096)
  | .disableComplete => true
  | .queueMap => true
  | .idleUnmap h => decide (h < 256)
  | .timesliceUnmap h => decide (h < 256)
  | .blockHeader _ _ _ _ _ _ => true
  | .compactAddX0 _ _ => true
  | .compactAdd _ _ => true
  | .compactSub _ _ => true
  | .compactAnd _ _ => true
  | .compactOr _ _ => true
  | .compactXor _ _ => true
  | .compactAddi _ _ => true
  | .compactMovi _ _ => true
  | .compactShli _ _ => true
  | .compactShri _ _ => true
  | .compactSari _ _ => true
  | .compactLdd _ _ => true
  | .compactStd _ _ => true
  | .compactSaddi _ i => i != 0
  | .compactQput _ _ => true
  | .compactQget _ _ => true
  | .compactNop => true
  | .compactEnd => true
  | .add _ _ _ _ => true
  | .sub _ _ _ _ => true
  | .and _ _ _ _ => true
  | .or _ _ _ _ => true
  | .xor _ _ _ _ => true
  | .shl _ _ _ _ => true
  | .shr _ _ _ _ => true
  | .sar _ _ _ _ => true
  | .min _ _ _ _ => true
  | .max _ _ _ _ => true
  | .umin _ _ _ _ => true
  | .umax _ _ _ _ => true
  | .mul _ _ _ _ => true
  | .mulh _ _ _ _ => true
  | .umulh _ _ _ _ => true
  | .div _ _ _ _ => true
  | .udiv _ _ _ _ => true
  | .rem _ _ _ _ => true
  | .urem _ _ _ _ => true
  | .clz _ _ _ => true
  | .popc _ _ _ => true
  | .brev _ _ _ => true
  | .sextb _ _ _ => true
  | .sexth _ _ _ => true
  | .sextw _ _ _ => true
  | .zextw _ _ _ => true
  | .slt _ _ _ _ => true
  | .uslt _ _ _ _ => true
  | .addi _ _ _ _ => true
  | .andi _ _ _ _ => true
  | .ori _ _ _ _ => true
  | .xori _ _ _ _ => true
  | .shli _ _ _ _ => true
  | .shri _ _ _ _ => true
  | .sari _ _ _ _ => true
  | .movi _ _ _ => true
  | .ldlit _ _ _ => true
  | .setlc _ _ _ => true
  | .cmp _ p _ _ c _ => p != 0 && c.toNat ≤ 11
  | .cmpi _ p _ _ c _ => p != 0 && c.toNat ≤ 11
  | .br _ _ => true
  | .call _ _ => true
  | .jmp _ _ => true
  | .callr _ _ => true
  | .ret _ => true
  | .pand _ _ _ _ => true
  | .por _ _ _ _ => true
  | .pxor _ _ _ _ => true
  | .pandn _ _ _ _ => true
  | .pnot _ _ _ => true
  | .pmov _ _ _ => true
  | .pbcast _ _ _ => true
  | .pcnt _ _ _ => true
  | .ldb _ _ _ _ _ => true
  | .ldh _ _ _ _ _ => true
  | .ldw _ _ _ _ _ => true
  | .ldd _ _ _ _ _ => true
  | .stb _ _ _ _ _ => true
  | .sth _ _ _ _ _ => true
  | .stw _ _ _ _ _ => true
  | .std _ _ _ _ _ => true
  | .amo _ _ _ _ f => decide (f.toNat ≤ 8)
  | .amow _ _ _ _ f => decide (f.toNat ≤ 8)
  | .amon _ _ _ f => decide (f.toNat ≤ 10)
  | .cas _ _ _ _ => true
  | .casw _ _ _ _ => true
  | .asc _ _ _ _ f => decide (f.toNat ≤ 8)
  | .ascCas _ _ _ _ => true
  | .fence _ _ e => decide (e.toNat ≤ 5)
  | .sadd _ _ _ => true
  | .saddi _ _ i => i != 0
  | .swait _ _ _ => true
  | .sread _ _ _ => true
  | .sset _ _ _ => true
  | .qput _ _ _ => true
  | .qget _ _ _ => true
  | .qcount _ _ _ => true
  | .qflush _ _ => true
  | .brq _ _ _ => true
  | .csrr _ _ _ => true
  | .csrw _ _ _ => true
  | .csrwSet _ _ _ => true
  | .csrwClr _ _ _ => true
  | .nop _ => true
  | .rdv _ m => m != 0
  | .sysEnd _ => true
  | .trap _ _ => true
  | .bkpt _ => true
  | .lbar _ _ => true
  | .mwait _ _ => true
  | .mwaitTimeout slot _ => decide (slot < 3072)
  | .eret _ => true
  | .wfe _ => true
  | .stopack _ => true
  | .taskadd _ _ _ _ => true
  | .taskjoin _ _ _ _ => true
  | .taskget _ _ _ _ => true
  | .taskgetTimeout slot => decide (slot < 3072)
  | .cpyLin _ _ _ _ => true
  | .cpyShp _ _ _ _ => true
  | .cpySlot _ _ _ _ => true
  | .cpyFill _ _ _ _ => true
  | .cpyCirc _ _ _ _ => true
  | .gath _ _ _ _ => true
  | .scat _ _ _ _ => true
  | .racq _ _ n _ => decide (n.toNat < 16)
  | .rrel _ n _ => decide (n.toNat < 16)
  | .rcan _ n _ => decide (n.toNat < 16)
  | .rstat _ _ n => decide (n.toNat < 16)
  | .fempty _ _ _ => true
  | .ftest _ _ _ => true
  | .fput _ _ _ _ => true
  | .fget _ _ _ _ => true
  | .fred _ _ _ _ f => decide (f.toNat ≤ 10)
  | .fll _ _ _ => true
  | .fsc _ _ _ _ => true
  | .fsig _ _ _ _ => true
  | .fcoll _ _ _ _ => true
  | .segnew _ _ _ _ => true
  | .segatt _ _ _ _ _ => true
  | .segdet _ _ _ => true
  | .segevict _ _ _ => true
  | .segdrop _ _ _ => true
  | .segqry _ _ _ => true
  | .cflush _ _ _ _ => true
  | .cinv _ _ _ _ => true
  | .cclean _ _ _ _ => true
  | .cpref _ _ _ _ => true
  | .vadd _ _ _ b m => portOk m b
  | .vsub _ _ _ b m => portOk m b
  | .vmul _ _ _ b m => portOk m b
  | .vfma _ _ _ b m => portOk m b
  | .vfms _ _ _ b m => portOk m b
  | .vfnma _ _ _ b m => portOk m b
  | .vmax _ _ _ b m => portOk m b
  | .vmin _ _ _ b m => portOk m b
  | .vabs _ _ _ => true
  | .vneg _ _ _ => true
  | .vrcpe _ _ _ => true
  | .vrsqe _ _ _ => true
  | .vfloor _ _ _ => true
  | .vrnd _ _ _ => true
  | .vscale _ _ _ b m => portOk m b
  | .viadd _ _ _ b m => portOk m b
  | .visub _ _ _ b m => portOk m b
  | .vimul _ _ _ b m => portOk m b
  | .vand _ _ _ b m => portOk m b
  | .vor _ _ _ b m => portOk m b
  | .vxor _ _ _ b m => portOk m b
  | .vshl _ _ _ b m => portOk m b
  | .vsar _ _ _ b m => portOk m b
  | .vmov _ _ b m => portOk m b
  | .vsel _ _ _ b m => portOk m b
  | .vclamp _ _ _ b m => portOk m b
  | .vshr _ _ _ b m => portOk m b
  | .vcvt _ _ _ t c r => vcvtOk t c r
  | .vcmp _ p _ _ c _ => p != 0 && c.toNat ≤ 11
  | .vradd _ _ _ => true
  | .vrmax _ _ _ => true
  | .vrmin _ _ _ => true
  | .vraddx _ _ _ => true
  | .vperm _ _ _ b m => portOk m b
  | .vrot _ _ _ b m => portOk m b
  | .vshft _ _ _ b m => portOk m b
  | .vdup _ _ _ b m => portOk m b
  | .vbc _ _ _ => true
  | .vext _ _ _ _ => true
  | .vld _ _ _ _ _ => true
  | .vst _ _ _ _ _ => true
  | .vldl _ _ _ _ => true
  | .vstl _ _ _ _ => true
  | .vcord _ _ _ n f => vcordIter n && f.toNat ≤ 6
  | .vwin _ _ _ k => decide (k.toNat ≤ 5)
  | .pgo _ _ => true
  | .pstop _ _ => true
  | .vstp _ _ _ => true
  | .vstat _ _ _ => true
  | .portPrefetch slot port => decide (slot < 3072) && decide (port < 8)
  | .mcfg _ c _ => mcfgExists c
  | .mma _ => true
  | .mmac _ => true
  | .trn _ _ _ => true
  | .prm _ _ _ => true
  | .rred _ _ _ => true
  | .zero _ _ => true
  | .mclaim _ _ => true
  | .mrel _ _ => true
  | .mwaitn _ _ => true
  | .mpri _ _ => true
  | .mfmt _ _ _ => true
  | .mret _ _ => true
  | .mstat _ _ _ => true
  | .nestStart core => decide (core < 1536)
  | .kstep core => decide (core < 1536)
  | .retirementComplete core => decide (core < 1536)
  | .tileOpComplete core => decide (core < 1536)
  | .nestEntryComplete slot => decide (slot < 3072)
  | .streamAgeTick => true
  | .nestAgeTick => true
  | .recordAgeTick => true
  | .packetAgeTick => true
  | .commandStart slot _ => decide (slot < 3072)
  | .commandUnitLand slot _ _ _ => decide (slot < 3072)
  | .commandComplete slot _ _ => decide (slot < 3072)
  | .circuitSlot cluster => decide (cluster < 16)
  | .reservationExpire => true
  | .fabricTimeout _ => true
  | .graphTableLoad _ => true
  | .completionProcessing _ => true
  | .loopEvaluate _ _ => true
  | .endNode _ _ => true
  | .launchAdmission => true
  | .coresidentReserve _ slot => decide (slot < 3072)
  | .cowaitTimeout _ => true
  | .hierarchyExpansion _ => true
  | .recordReady _ => true
  | .taskPop slot _ => decide (slot < 3072)
  | .jobStart slot => decide (slot < 3072)
  | .jobEnd slot => decide (slot < 3072)
  | .spillRefill bank => decide (bank < 8)
  | .preemptionRequest _ _ => true
  | .affinityRelax _ => true
  | .tqReprio _ _ => true
  | .clusterShareWrite _ cluster _ => decide (cluster < 16)
  | .tlbinv _ _ => true
  | .tlbinvComplete => true
  | .rangeCtlWrite _ range _ => decide (range < 16)
  | .govLimitsWrite _ _ => true
  | .ballastStep => true
  | .tarnFillComplete _ _ => true
  | .tarnWritebackComplete _ _ => true
  | .tarnMigration _ _ => true
  | .dataFlit port flit => decide (port < 128) && decide (flit.length = 256)
  | .creditFlit port flit => decide (port < 128) && decide (flit.length = 256)
  | .nackFlit port flit => decide (port < 128) && decide (flit.length = 256)
  | .shedreqFlit port flit => decide (port < 128) && decide (flit.length = 256)
  | .restripeFlit port flit => decide (port < 128) && decide (flit.length = 256)
  | .abortFlit port flit => decide (port < 128) && decide (flit.length = 256)
  | .uncorrectableCodeword port lane => decide (port < 128) && decide (lane < 16)
  | .shedWindowEnd port => decide (port < 128)
  | .linkDown port _ => decide (port < 128)
  | .routeSelect port vc => decide (port < 128) && decide (vc < 4)
  | .escapeEntry port vc => decide (port < 128) && decide (vc < 4)
  | .egressSend port => decide (port < 128)
  | .escctlFlip _ _ => true
  | .put => true
  | .getreq => true
  | .getdata => true
  | .sig => true
  | .fllRequest => true
  | .fscRequest => true
  | .ack => true
  | .install _ _ => true
  | .remove _ _ => true
  | .removeComplete => true
  | .collectiveStart slot => decide (slot < 3072)
  | .bucketSend group _ => decide (group < 1024)
  | .red => true
  | .bucketTimeout _ _ => true
  | .collResult => true
  | .collIncomplete => true
  | .collError => true
  | .noResultTimeout group _ => decide (group < 1024)
  | .stop core => decide (core < 1536)
  | .resume core => decide (core < 1536)
  | .kill core => decide (core < 1536)
  | .report core => decide (core < 1536)
  | .fwCommandComplete core => decide (core < 1536)
  | .fwSelWrite core _ => decide (core < 1536)
  | .fwJcsrWrite core _ => decide (core < 1536)
  | .fwTick => true
  | .wdageExpire slot _ => decide (slot < 3072)
  | .jobTrap slot => decide (slot < 3072)
  | .fwContextRestart core => decide (core < 1536)
  | .scanDrain core => decide (core < 1536)
  | .coppiceScan core => decide (core < 1536)
  | .scanDeferTimeout core => decide (core < 1536)
  | .scanEnd core _ => decide (core < 1536)
  | .checkpointClose => true
  | .closeComplete => true
  | .rollback => true
  | .sliceSpare slice => decide (slice < 136)
  | .laserSpare _ => true
  | .hedgeSelWrite _ _ => true
  | .hedgeDataWrite _ _ => true
  | .hedgeApply => true
  | .patternTest _ stack ch _ => decide (stack < 16) && decide (ch < 32)
  | .patternTestComplete stack ch _ _ => decide (stack < 16) && decide (ch < 32)
  | .rdallWrite _ stack ch _ => decide (stack < 16) && decide (ch < 32)
  | .wdallWrite _ stack ch _ => decide (stack < 16) && decide (ch < 32)
  | .repairWrite _ stack ch _ => decide (stack < 16) && decide (ch < 32)
  | .chmodeWrite _ stack ch _ => decide (stack < 16) && decide (ch < 32)
  | .channelOffline stack ch => decide (stack < 16) && decide (ch < 32)
  | .stage _ _ => true
  | .stageComplete => true
  | .activate _ _ => true
  | .abort _ _ => true
  | .svncommit _ _ => true
  | .ready ctl => decide (ctl < 23)
  | .handed ctl => decide (ctl < 23)
  | .healthy ctl => decide (ctl < 23)
  | .updateDeadline => true
  | .switchWindowExpire => true
  | .coreFirmwareSwitch core => decide (core < 1536)
  | .fwHealth core _ => decide (core < 1536)
  | .boot _ => true
  | .clear _ => true
  | .retry _ => true
  | .getVersion _ => true
  | .getCapabilities _ => true
  | .negotiateAlgorithms _ => true
  | .getDigests _ => true
  | .getCertificate _ => true
  | .challenge _ => true
  | .getMeasurements _ => true
  | .perst => true
  | .bar4Access _ _ => true
  | .msixMaskWrite _ vec _ => decide (vec < 2048)
  | .cxlLinkDown p => decide (p < 4)
  | .cxlLinkUp p => decide (p < 4)
  | .undervoltage => true
  | .thermalThrottle die _ => decide (die ≤ 8)
  | .overtemperature die _ => decide (die ≤ 8)
  | .registerWrite _ _ _ => true
  | .throttleRelease _ => true
  | .laneRetrain port lane => decide (port < 128) && decide (lane < 16)
  | .controllerRestart _ => true

end Sys2Proof
end

