-- ==== Sys2Proof/Decode.lean ====
section
/-!
DEFINITION. The decoder, total on any parcels and rejecting by name, and the encoder beside it.
Only what R67's first check can see in a word alone is decided here; what depends on the stream or the machine
(R65's legality, PRIVILEGE, an unimplemented CSR number) is checked when the bundle is checked.
-/

namespace Sys2Proof

/-- Why a word is not an instruction: the sub-codes of ILLEGAL_OP that a word alone can raise (R68). -/
inductive DecodeErr where
  | reservedParcel | reservedOp | reservedFn | reservedField
deriving DecidableEq, Repr

/-- R68: the sub-code of ILLEGAL_OP. -/
def DecodeErr.sub : DecodeErr → Nat
  | .reservedParcel => 1 | .reservedOp => 2 | .reservedFn => 3 | .reservedField => 4

/-- The `n`-bit field of a word whose lowest bit is `lo`. -/
def fld (w : W32) (lo n : Nat) : BitVec n := w.extractLsb' lo n

/-- R66: a field that an instruction does not use must be 0. -/
def unused {n : Nat} (f : BitVec n) (i : Instr) : Except DecodeErr Instr :=
  if f = 0 then .ok i else .error .reservedField

/-- A field whose value must be one that `ok` admits, or the word raises RESERVED_FIELD. -/
def fieldIf (ok : Bool) (i : Instr) : Except DecodeErr Instr :=
  if ok then .ok i else .error .reservedField

/-- A function code that must be one that `ok` admits, or the word raises RESERVED_FN. -/
def fnIf (ok : Bool) (i : Except DecodeErr Instr) : Except DecodeErr Instr :=
  if ok then i else .error .reservedFn

/-- R112, R113: the ALU and ALU2 groups. -/
def decodeAlu (h : Hd) (d a b : BitVec 5) : Nat → Except DecodeErr Instr
  | 0 => .ok (.add h d a b) | 1 => .ok (.sub h d a b) | 2 => .ok (.and h d a b) | 3 => .ok (.or h d a b)
  | 4 => .ok (.xor h d a b) | 5 => .ok (.shl h d a b) | 6 => .ok (.shr h d a b) | 7 => .ok (.sar h d a b)
  | 8 => .ok (.min h d a b) | 9 => .ok (.max h d a b) | 10 => .ok (.umin h d a b) | 11 => .ok (.umax h d a b)
  | 12 => .ok (.mul h d a b) | 13 => .ok (.mulh h d a b) | 14 => .ok (.umulh h d a b)
  | _ => .error .reservedFn

def decodeAlu2 (h : Hd) (d a b : BitVec 5) : Nat → Except DecodeErr Instr
  | 0 => .ok (.div h d a b) | 1 => .ok (.udiv h d a b) | 2 => .ok (.rem h d a b) | 3 => .ok (.urem h d a b)
  | 4 => unused b (.clz h d a) | 5 => unused b (.popc h d a) | 6 => unused b (.brev h d a)
  | 7 => unused b (.sextb h d a) | 8 => unused b (.sexth h d a) | 9 => unused b (.sextw h d a)
  | 10 => unused b (.zextw h d a) | 11 => .ok (.slt h d a b) | 12 => .ok (.uslt h d a b)
  | _ => .error .reservedFn

/-- R115: SHI; the kind is imm9 8:7, and imm9 6 must be 0. -/
def decodeShi (h : Hd) (d a : BitVec 5) (w : W32) : Except DecodeErr Instr :=
  match (fld w 7 2).toNat with
  | 0 => unused (fld w 6 1) (.shli h d a (fld w 0 6))
  | 1 => unused (fld w 6 1) (.shri h d a (fld w 0 6))
  | 2 => unused (fld w 6 1) (.sari h d a (fld w 0 6))
  | _ => .error .reservedFn

/-- R63, XC: pair 0 and conditions 12 to 15 are reserved. -/
def decodeXc (w : W32) (i : Instr) : Except DecodeErr Instr :=
  fnIf (fld w 16 3 != 0 && decide ((fld w 2 4).toNat ≤ 11)) (.ok i)

/-- R125: JR. -/
def decodeJr (h : Hd) (d a b : BitVec 5) : Nat → Except DecodeErr Instr
  | 0 => fieldIf (d == 0 && b == 0) (.jmp h a)
  | 1 => fieldIf (d == 0 && b == 0) (.callr h a)
  | 2 => fieldIf (d == 0 && a == 0 && b == 0) (.ret h)
  | _ => .error .reservedFn

/-- R122: PLOG; bits 5:3 are reserved, bit 18 must be 0 but in PCNT, and the unary forms require pb = 0. -/
def decodePlog (h : Hd) (w : W32) : Except DecodeErr Instr :=
  let d := fld w 14 4
  let a := fld w 10 4
  let b := fld w 6 4
  let two := fld w 3 3 == 0 && fld w 18 1 == 0
  let one := two && b == 0
  match (fld w 0 3).toNat with
  | 0 => fieldIf two (.pand h d a b) | 1 => fieldIf two (.por h d a b)
  | 2 => fieldIf two (.pxor h d a b) | 3 => fieldIf two (.pandn h d a b)
  | 4 => fieldIf one (.pnot h d a) | 5 => fieldIf one (.pmov h d a) | 6 => fieldIf one (.pbcast h d a)
  | _ => fieldIf (fld w 3 3 == 0 && b == 0) (.pcnt h (fld w 14 5) a)

/-- R136: SEM. -/
def decodeSem (h : Hd) (w : W32) : Except DecodeErr Instr :=
  let d := fld w 14 5
  let n := fld w 8 6
  let a := fld w 3 5
  match (fld w 0 3).toNat with
  | 0 => unused d (.sadd h n a)
  | 1 => fieldIf (d == 0 && a != 0) (.saddi h n a)
  | 2 => unused d (.swait h n a)
  | 3 => unused a (.sread h d n)
  | 4 => unused d (.sset h n a)
  | _ => .error .reservedFn

/-- R140: QUEUE; bits 3:0 must be 0. -/
def decodeQueue (h : Hd) (w : W32) : Except DecodeErr Instr :=
  let d := fld w 14 5
  let q := fld w 11 3
  let a := fld w 6 5
  let z := fld w 0 4 == 0
  match (fld w 4 2).toNat with
  | 0 => fieldIf (z && d == 0) (.qput h q a)
  | 1 => fieldIf (z && a == 0) (.qget h d q)
  | 2 => fieldIf (z && a == 0) (.qcount h d q)
  | _ => fieldIf (z && d == 0 && a == 0) (.qflush h q)

/-- R143, R144: CSRR with op ≠ 0 is RESERVED_FIELD, CSRW with op 3 RESERVED_FN. -/
def decodeCsrr (h : Hd) (w : W32) : Except DecodeErr Instr :=
  unused (fld w 0 2) (.csrr h (fld w 14 5) (fld w 2 12))

def decodeCsrw (h : Hd) (w : W32) : Except DecodeErr Instr :=
  match (fld w 0 2).toNat with
  | 0 => .ok (.csrw h (fld w 14 5) (fld w 2 12))
  | 1 => .ok (.csrwSet h (fld w 14 5) (fld w 2 12))
  | 2 => .ok (.csrwClr h (fld w 14 5) (fld w 2 12))
  | _ => .error .reservedFn

/-- R148, R153: SYS; the argument bits a function does not use must be 0. -/
def decodeSys (h : Hd) (w : W32) : Except DecodeErr Instr :=
  let arg := fld w 0 14
  match (fld w 14 5).toNat with
  | 0 => unused arg (.nop h)
  | 1 => fieldIf (fld w 3 11 == 0 && fld w 0 3 != 0) (.rdv h (fld w 0 3))
  | 2 => unused arg (.sysEnd h)
  | 3 => .ok (.trap h arg)
  | 4 => unused arg (.bkpt h)
  | 5 => unused (fld w 3 11) (.lbar h (fld w 0 3))
  | 6 => unused (fld w 0 9) (.mwait h (fld w 9 5))
  | 16 => unused arg (.eret h)
  | 17 => unused arg (.wfe h)
  | 18 => unused arg (.stopack h)
  | _ => .error .reservedFn

/-- R154: TASK. -/
def decodeTask (h : Hd) (d a b : BitVec 5) : Nat → Except DecodeErr Instr
  | 0 => .ok (.taskadd h d a b) | 1 => .ok (.taskjoin h d a b) | 2 => .ok (.taskget h d a b)
  | _ => .error .reservedFn

/-- R158: the forms of CPY, GSC, RING, FE, FXFER, FLINK, SEG and CACHE. -/
def decodeCpy (h : Hd) (d a b : BitVec 5) : Nat → Except DecodeErr Instr
  | 0 => .ok (.cpyLin h d a b) | 1 => .ok (.cpyShp h d a b) | 2 => .ok (.cpySlot h d a b)
  | 3 => .ok (.cpyFill h d a b) | 4 => .ok (.cpyCirc h d a b)
  | _ => .error .reservedFn

def decodeGsc (h : Hd) (d a b : BitVec 5) : Nat → Except DecodeErr Instr
  | 0 => .ok (.gath h d a b) | 1 => .ok (.scat h d a b)
  | _ => .error .reservedFn

def decodeRing (h : Hd) (w : W32) : Except DecodeErr Instr :=
  let d := fld w 14 5
  let n := fld w 9 5
  let r := fld w 4 1
  let z := fld w 5 4 == 0 && decide (n.toNat < 16)
  match (fld w 0 4).toNat with
  | 0 => fieldIf z (.racq h d n r)
  | 1 => fieldIf (z && d == 0) (.rrel h n r)
  | 2 => fieldIf (z && d == 0) (.rcan h n r)
  | 3 => fieldIf (z && r == 0) (.rstat h d n)
  | _ => .error .reservedFn

def decodeFe (h : Hd) (d a b : BitVec 5) : Nat → Except DecodeErr Instr
  | 0 => unused d (.fempty h a b) | 1 => unused b (.ftest h d a)
  | _ => .error .reservedFn

def decodeFxfer (h : Hd) (d a b : BitVec 5) : Nat → Except DecodeErr Instr
  | 0 => .ok (.fput h d a b) | 1 => .ok (.fget h d a b)
  | _ => .error .reservedFn

def decodeFlink (h : Hd) (d a b : BitVec 5) : Nat → Except DecodeErr Instr
  | 0 => unused b (.fll h d a) | 1 => .ok (.fsc h d a b) | 2 => .ok (.fsig h d a b) | 3 => .ok (.fcoll h d a b)
  | _ => .error .reservedFn

def decodeSeg (h : Hd) (w : W32) : Except DecodeErr Instr :=
  let d := fld w 14 5
  let a := fld w 9 5
  let b := fld w 4 5
  match (fld w 0 4).toNat with
  | 0 => .ok (.segnew h d a b)
  | 1 => unused (fld w 6 3) (.segatt h d a (fld w 5 1) (fld w 4 1))
  | 2 => unused b (.segdet h d a) | 3 => unused b (.segevict h d a)
  | 4 => unused b (.segdrop h d a) | 5 => unused b (.segqry h d a)
  | _ => .error .reservedFn

def decodeCache (h : Hd) (d a b : BitVec 5) : Nat → Except DecodeErr Instr
  | 0 => .ok (.cflush h d a b) | 1 => .ok (.cinv h d a b) | 2 => .ok (.cclean h d a b) | 3 => .ok (.cpref h d a b)
  | _ => .error .reservedFn

/-- R63, VV: a port operand requires vb 4:3 = 0. -/
def vv (m : BitVec 1) (b : BitVec 5) (i : Instr) : Except DecodeErr Instr := fieldIf (portOk m b) i

def decodeVfp (h : Hd) (d a b : BitVec 5) (m : BitVec 1) : Nat → Except DecodeErr Instr
  | 0 => vv m b (.vadd h d a b m) | 1 => vv m b (.vsub h d a b m) | 2 => vv m b (.vmul h d a b m)
  | 3 => vv m b (.vfma h d a b m) | 4 => vv m b (.vfms h d a b m) | 5 => vv m b (.vfnma h d a b m)
  | 6 => vv m b (.vmax h d a b m) | _ => vv m b (.vmin h d a b m)

/-- R220: the unary forms require vb = 0 and m = 0. -/
def decodeVfp2 (h : Hd) (d a b : BitVec 5) (m : BitVec 1) : Nat → Except DecodeErr Instr
  | 0 => fieldIf (b == 0 && m == 0) (.vabs h d a) | 1 => fieldIf (b == 0 && m == 0) (.vneg h d a)
  | 2 => fieldIf (b == 0 && m == 0) (.vrcpe h d a) | 3 => fieldIf (b == 0 && m == 0) (.vrsqe h d a)
  | 4 => fieldIf (b == 0 && m == 0) (.vfloor h d a) | 5 => fieldIf (b == 0 && m == 0) (.vrnd h d a)
  | 6 => vv m b (.vscale h d a b m)
  | _ => .error .reservedFn

def decodeVint (h : Hd) (d a b : BitVec 5) (m : BitVec 1) : Nat → Except DecodeErr Instr
  | 0 => vv m b (.viadd h d a b m) | 1 => vv m b (.visub h d a b m) | 2 => vv m b (.vimul h d a b m)
  | 3 => vv m b (.vand h d a b m) | 4 => vv m b (.vor h d a b m) | 5 => vv m b (.vxor h d a b m)
  | 6 => vv m b (.vshl h d a b m) | _ => vv m b (.vsar h d a b m)

def decodeVmisc (h : Hd) (d a b : BitVec 5) (m : BitVec 1) : Nat → Except DecodeErr Instr
  | 0 => fieldIf (a == 0 && portOk m b) (.vmov h d b m)
  | 1 => vv m b (.vsel h d a b m) | 2 => vv m b (.vclamp h d a b m) | 3 => vv m b (.vshr h d a b m)
  | _ => .error .reservedFn

/-- R223, R224: reserved roundings and codes, and .SR with a code other than 0 to 3, are RESERVED_FN; m must be 0, and
SAT = 1 with a destination that is not an IEEE floating-point type is RESERVED_FIELD. -/
def decodeVcvt (h : Hd) (w : W32) : Except DecodeErr Instr :=
  let t := fld w 8 1
  let c := fld w 4 4
  let r := fld w 0 3
  fnIf (c.toNat != 15 && decide (r.toNat ≤ 5) && (r.toNat != 5 || decide (c.toNat ≤ 3)))
    (fieldIf (fld w 3 1 == 0 && vcvtOk t c r) (.vcvt h (fld w 14 5) (fld w 9 5) t c r))

def decodeVred (h : Hd) (d a b : BitVec 5) (m : BitVec 1) : Nat → Except DecodeErr Instr
  | 0 => fieldIf (b == 0 && m == 0) (.vradd h d a) | 1 => fieldIf (b == 0 && m == 0) (.vrmax h d a)
  | 2 => fieldIf (b == 0 && m == 0) (.vrmin h d a) | 3 => fieldIf (b == 0 && m == 0) (.vraddx h d a)
  | _ => .error .reservedFn

def decodeVperm (h : Hd) (d a b : BitVec 5) (m : BitVec 1) : Nat → Except DecodeErr Instr
  | 0 => vv m b (.vperm h d a b m) | 1 => vv m b (.vrot h d a b m)
  | 2 => vv m b (.vshft h d a b m) | 3 => vv m b (.vdup h d a b m)
  | _ => .error .reservedFn

def decodeVxs (h : Hd) (d a b : BitVec 5) (m : BitVec 1) : Nat → Except DecodeErr Instr
  | 0 => fieldIf (b == 0 && m == 0) (.vbc h d a)
  | 1 => fieldIf (m == 0) (.vext h d a b)
  | _ => .error .reservedFn

/-- R232: VLANE. -/
def decodeVlane (h : Hd) (w : W32) : Except DecodeErr Instr :=
  if fld w 0 1 = 0 then .ok (.vldl h (fld w 14 5) (fld w 9 5) (fld w 1 8))
  else .ok (.vstl h (fld w 14 5) (fld w 9 5) (fld w 1 8))

/-- R233: VCORD; fn 7 is reserved, the count is 0 or 8 to 26, and m must be 0. -/
def decodeVcord (h : Hd) (w : W32) : Except DecodeErr Instr :=
  fnIf (decide ((fld w 0 3).toNat ≤ 6))
    (fieldIf (fld w 3 1 == 0 && vcordIter (fld w 4 5)) (.vcord h (fld w 14 5) (fld w 9 5) (fld w 4 5) (fld w 0 3)))

/-- R204, R214, R236: VCTL. -/
def decodeVctl (h : Hd) (w : W32) : Except DecodeErr Instr :=
  let d := fld w 14 5
  let a := fld w 9 5
  let b := fld w 4 5
  let m := fld w 3 1
  match (fld w 0 3).toNat with
  | 0 => fnIf (decide ((fld w 4 3).toNat ≤ 5))
      (fieldIf (fld w 16 3 == 0 && fld w 10 4 == 0 && fld w 7 2 == 0 && m == 0)
        (.vwin h (fld w 14 2) (fld w 9 1) (fld w 4 3)))
  | 1 => fieldIf (fld w 17 2 == 0 && a == 0 && b == 0 && m == 0) (.pgo h (fld w 14 3))
  | 2 => fieldIf (fld w 17 2 == 0 && a == 0 && b == 0 && m == 0) (.pstop h (fld w 14 3))
  | 3 => fieldIf (fld w 12 2 == 0 && b == 0 && m == 0) (.vstp h d (fld w 9 3))
  | 4 => fieldIf (b == 0 && m == 0) (.vstat h d a)
  | _ => .error .reservedFn

/-- R243: the matrix forms (MC layout). -/
def decodeMcfg (h : Hd) (w : W32) : Except DecodeErr Instr :=
  fnIf (fld w 0 6 == 0) (fieldIf (mcfgExists (fld w 11 8)) (.mcfg h (fld w 11 8) (fld w 6 5)))

def decodeMgo (h : Hd) (w : W32) : Except DecodeErr Instr :=
  let pair := fld w 15 4 == 0 && fld w 6 5 == 0
  match (fld w 0 6).toNat with
  | 0 => fieldIf (fld w 11 8 == 0 && fld w 6 5 == 0) (.mma h)
  | 1 => fieldIf (fld w 11 8 == 0 && fld w 6 5 == 0) (.mmac h)
  | 2 => fieldIf pair (.trn h (fld w 13 2) (fld w 11 2))
  | 3 => fieldIf pair (.prm h (fld w 13 2) (fld w 11 2))
  | 4 => fieldIf pair (.rred h (fld w 13 2) (fld w 11 2))
  | 5 => fieldIf pair (.zero h (fld w 11 4))
  | _ => .error .reservedFn

def decodeMctl (h : Hd) (w : W32) : Except DecodeErr Instr :=
  let a := fld w 6 5
  match (fld w 0 6).toNat with
  | 0 => fieldIf (fld w 15 4 == 0 && a == 0) (.mclaim h (fld w 11 4))
  | 1 => fieldIf (fld w 15 4 == 0 && a == 0) (.mrel h (fld w 11 4))
  | 2 => unused (fld w 11 8) (.mwaitn h a)
  | 3 => unused (fld w 11 8) (.mpri h a)
  | 4 => unused (fld w 15 4) (.mfmt h (fld w 11 4) a)
  | 5 => fieldIf (fld w 13 6 == 0 && a == 0) (.mret h (fld w 11 2))
  | 6 => unused (fld w 12 7) (.mstat h (fld w 11 1) a)
  | _ => .error .reservedFn

/-- R65: the opcode map of the 32-bit words, for a word whose bits 31:30 are 0b10. -/
def decodeOp (w : W32) : Except DecodeErr Instr :=
  let h : Hd := ⟨w.getLsbD 29, fld w 25 4⟩
  let d := fld w 14 5
  let a := fld w 9 5
  let b := fld w 4 5
  let m := fld w 3 1
  let c4 := fld w 5 4
  let o5 := fld w 0 5
  let fn := (fld w 0 4).toNat
  let fn3 := (fld w 0 3).toNat
  match (fld w 19 6).toNat with
  | 0x00 => decodeAlu h d a b fn
  | 0x01 => decodeAlu2 h d a b fn
  | 0x02 => .ok (.addi h d a (fld w 0 9))
  | 0x03 => .ok (.andi h d a (fld w 0 9))
  | 0x04 => .ok (.ori h d a (fld w 0 9))
  | 0x05 => .ok (.xori h d a (fld w 0 9))
  | 0x06 => decodeShi h d a w
  | 0x07 => .ok (.movi h d (fld w 0 14))
  | 0x08 => .ok (.ldlit h d (fld w 0 14))
  | 0x09 => unused d (.setlc h a (fld w 0 9))
  | 0x0A => decodeXc w (.cmp h (fld w 16 3) (fld w 11 5) (fld w 6 5) (fld w 2 4) (fld w 0 2))
  | 0x0B => decodeXc w (.cmpi h (fld w 16 3) (fld w 11 5) (fld w 6 5) (fld w 2 4) (fld w 0 2))
  | 0x0C => .ok (.br h (fld w 0 19))
  | 0x0D => .ok (.call h (fld w 0 19))
  | 0x0E => decodeJr h d a b fn
  | 0x0F => decodePlog h w
  | 0x10 => .ok (.ldb h d a c4 o5)
  | 0x11 => .ok (.ldh h d a c4 o5)
  | 0x12 => .ok (.ldw h d a c4 o5)
  | 0x13 => .ok (.ldd h d a c4 o5)
  | 0x14 => .ok (.stb h d a c4 o5)
  | 0x15 => .ok (.sth h d a c4 o5)
  | 0x16 => .ok (.stw h d a c4 o5)
  | 0x17 => .ok (.std h d a c4 o5)
  | 0x18 => fnIf (decide (fn ≤ 8)) (.ok (.amo h d a b (fld w 0 4)))
  | 0x19 => fnIf (decide (fn ≤ 8)) (.ok (.amow h d a b (fld w 0 4)))
  | 0x1A => fnIf (decide (fn ≤ 10)) (unused d (.amon h a b (fld w 0 4)))
  | 0x1B => match fn with
    | 0 => .ok (.cas h d a b) | 1 => .ok (.casw h d a b) | _ => .error .reservedFn
  | 0x1C => if fn = 9 then .ok (.ascCas h d a b) else fnIf (decide (fn ≤ 8)) (.ok (.asc h d a b (fld w 0 4)))
  | 0x1D => fieldIf (decide ((fld w 0 3).toNat ≤ 5)) (.fence h (fld w 3 16) (fld w 0 3))
  | 0x1E => decodeSem h w
  | 0x1F => decodeQueue h w
  | 0x20 => .ok (.brq h (fld w 16 3) (fld w 0 16))
  | 0x21 => decodeCsrr h w
  | 0x22 => decodeCsrw h w
  | 0x23 => decodeSys h w
  | 0x24 => decodeTask h d a b fn
  | 0x25 => decodeCpy h d a b fn
  | 0x26 => decodeGsc h d a b fn
  | 0x27 => decodeRing h w
  | 0x28 => decodeFe h d a b fn
  | 0x29 => decodeFxfer h d a b fn
  | 0x2A => fnIf (decide (fn ≤ 10)) (.ok (.fred h d a b (fld w 0 4)))
  | 0x2B => decodeFlink h d a b fn
  | 0x2C => decodeSeg h w
  | 0x2D => decodeCache h d a b fn
  | 0x2E => decodeVfp h d a b m fn3
  | 0x2F => decodeVfp2 h d a b m fn3
  | 0x30 => decodeVint h d a b m fn3
  | 0x31 => decodeVmisc h d a b m fn3
  | 0x32 => decodeVcvt h w
  | 0x33 => decodeXc w (.vcmp h (fld w 16 3) (fld w 11 5) (fld w 6 5) (fld w 2 4) (fld w 0 2))
  | 0x34 => decodeVred h d a b m fn3
  | 0x35 => decodeVperm h d a b m fn3
  | 0x36 => decodeVxs h d a b m fn3
  | 0x37 => .ok (.vld h d a c4 o5)
  | 0x38 => .ok (.vst h d a c4 o5)
  | 0x39 => decodeVlane h w
  | 0x3A => decodeVcord h w
  | 0x3B => decodeVctl h w
  | 0x3C => decodeMcfg h w
  | 0x3D => decodeMgo h w
  | 0x3E => decodeMctl h w
  | _ => .error .reservedOp

/-- R46: a block header word, bits 31:28 = 0b1100. What R47 forbids is checked at entry, not here. -/
def decodeHeader (w : W32) : Instr :=
  .blockHeader (fld w 27 1) (fld w 26 1) (fld w 25 1) (fld w 22 3) (fld w 12 10) (fld w 0 12)

/-- R45: the compact parcels. -/
def decodeCompact (p : Parcel) : Except DecodeErr Instr :=
  let a := p.extractLsb' 5 5
  let b := p.extractLsb' 0 5
  match (p.extractLsb' 10 5).toNat with
  | 0x01 => .ok (.compactAddX0 a b) | 0x02 => .ok (.compactAdd a b) | 0x03 => .ok (.compactSub a b)
  | 0x04 => .ok (.compactAnd a b) | 0x05 => .ok (.compactOr a b) | 0x06 => .ok (.compactXor a b)
  | 0x07 => .ok (.compactAddi a b) | 0x08 => .ok (.compactMovi a b) | 0x09 => .ok (.compactShli a b)
  | 0x0A => .ok (.compactShri a b) | 0x0B => .ok (.compactSari a b) | 0x0C => .ok (.compactLdd a b)
  | 0x0D => .ok (.compactStd a b)
  | 0x0E => if b = 0 then .error .reservedParcel else .ok (.compactSaddi a b)
  | 0x0F => if p.extractLsb' 8 2 = 0 then .ok (.compactQput (p.extractLsb' 5 3) b) else .error .reservedParcel
  | 0x10 => if p.extractLsb' 3 2 = 0 then .ok (.compactQget a (p.extractLsb' 0 3)) else .error .reservedParcel
  | 0x11 => if a = 0 ∧ b = 0 then .ok .compactNop else .error .reservedParcel
  | 0x12 => if a = 0 ∧ b = 0 then .ok .compactEnd else .error .reservedParcel
  | _ => .error .reservedParcel

/-- R41: how many parcels the instruction has that begins with `p`; a reserved class counts one. -/
def parcelCount (p : Parcel) : Nat :=
  if p.getLsbD 15 && (!(p.getLsbD 14) || (p.extractLsb' 12 2 == 0)) then 2 else 1

/-- R41: a first parcel whose bits 15:12 are 0b1100 begins a header. -/
def isHeaderParcel (p : Parcel) : Bool := p.extractLsb' 12 4 == 0b1100#4

/-- R41, R42: the instruction that begins with parcel `p`, `q` being the parcel after it, which only a 32-bit word or
a header reads. -/
def decodeParcels (p q : Parcel) : Except DecodeErr Instr :=
  if p.getLsbD 15 = false then decodeCompact p
  else if p.getLsbD 14 = false then decodeOp (p ++ q)
  else if isHeaderParcel p then .ok (decodeHeader (p ++ q))
  else .error .reservedParcel

/-- R9, R41: the little-endian parcel of two bytes, the first at the lower address. -/
def parcelOf (lo hi : Byte) : Parcel := hi ++ lo

/-- The instruction at the head of a byte sequence, with the bytes after it. A sequence that ends inside the
instruction is read as if bytes of zero followed. -/
def decodeBytes (bs : List Byte) : Except DecodeErr (Instr × List Byte) :=
  let p := parcelOf (bs.getD 0 0) (bs.getD 1 0)
  let q := parcelOf (bs.getD 2 0) (bs.getD 3 0)
  (decodeParcels p q).map fun i => (i, bs.drop (2 * parcelCount p))

/-- R42, R43: the bytes of a word as the hardware stores them: two parcels, the high half first, each little-endian. -/
def tableBytes (nbits w : Nat) : List Byte :=
  let x : W32 := BitVec.ofNat 32 w
  if nbits ≤ 16 then [x.extractLsb' 0 8, x.extractLsb' 8 8]
  else [x.extractLsb' 16 8, x.extractLsb' 24 8, x.extractLsb' 0 8, x.extractLsb' 8 8]

/-- The instruction that the decoder reads from a word of the opcode table: a compact parcel where `nbits` is 16, a
32-bit word or header otherwise. -/
def decodeTableWord (nbits w : Nat) : Option Instr :=
  match decodeBytes (tableBytes nbits w) with
  | .ok (i, _) => some i
  | .error _ => none

/-- R42: a 32-bit word is two parcels, its high half first. -/
def wordParcels (w : W32) : List Parcel := [w.extractLsb' 16 16, w.extractLsb' 0 16]

/-- The parcels of an instruction, from the encoding tables of R43 to R46 and R63 to R66; an event has none. -/
def encode : Instr → List Parcel
  | .blockHeader r e t k l n => wordParcels (12#4 ++ r ++ e ++ t ++ k ++ l ++ n)
  | .compactAddX0 a b => [1#6 ++ a ++ b]
  | .compactAdd a b => [2#6 ++ a ++ b]
  | .compactSub a b => [3#6 ++ a ++ b]
  | .compactAnd a b => [4#6 ++ a ++ b]
  | .compactOr a b => [5#6 ++ a ++ b]
  | .compactXor a b => [6#6 ++ a ++ b]
  | .compactAddi a i => [7#6 ++ a ++ i]
  | .compactMovi a i => [8#6 ++ a ++ i]
  | .compactShli a n => [9#6 ++ a ++ n]
  | .compactShri a n => [10#6 ++ a ++ n]
  | .compactSari a n => [11#6 ++ a ++ n]
  | .compactLdd a b => [12#6 ++ a ++ b]
  | .compactStd a b => [13#6 ++ a ++ b]
  | .compactSaddi n i => [14#6 ++ n ++ i]
  | .compactQput q b => [60#8 ++ q ++ b]
  | .compactQget a q => [16#6 ++ a ++ 0#2 ++ q]
  | .compactNop => [17408#16]
  | .compactEnd => [18432#16]
  | .add h d a b => wordParcels (2#2 ++ BitVec.ofBool h.s ++ h.g ++ 0#6 ++ d ++ a ++ b ++ 0#4)
  | .sub h d a b => wordParcels (2#2 ++ BitVec.ofBool h.s ++ h.g ++ 0#6 ++ d ++ a ++ b ++ 1#4)
  | .and h d a b => wordParcels (2#2 ++ BitVec.ofBool h.s ++ h.g ++ 0#6 ++ d ++ a ++ b ++ 2#4)
  | .or h d a b => wordParcels (2#2 ++ BitVec.ofBool h.s ++ h.g ++ 0#6 ++ d ++ a ++ b ++ 3#4)
  | .xor h d a b => wordParcels (2#2 ++ BitVec.ofBool h.s ++ h.g ++ 0#6 ++ d ++ a ++ b ++ 4#4)
  | .shl h d a b => wordParcels (2#2 ++ BitVec.ofBool h.s ++ h.g ++ 0#6 ++ d ++ a ++ b ++ 5#4)
  | .shr h d a b => wordParcels (2#2 ++ BitVec.ofBool h.s ++ h.g ++ 0#6 ++ d ++ a ++ b ++ 6#4)
  | .sar h d a b => wordParcels (2#2 ++ BitVec.ofBool h.s ++ h.g ++ 0#6 ++ d ++ a ++ b ++ 7#4)
  | .min h d a b => wordParcels (2#2 ++ BitVec.ofBool h.s ++ h.g ++ 0#6 ++ d ++ a ++ b ++ 8#4)
  | .max h d a b => wordParcels (2#2 ++ BitVec.ofBool h.s ++ h.g ++ 0#6 ++ d ++ a ++ b ++ 9#4)
  | .umin h d a b => wordParcels (2#2 ++ BitVec.ofBool h.s ++ h.g ++ 0#6 ++ d ++ a ++ b ++ 10#4)
  | .umax h d a b => wordParcels (2#2 ++ BitVec.ofBool h.s ++ h.g ++ 0#6 ++ d ++ a ++ b ++ 11#4)
  | .mul h d a b => wordParcels (2#2 ++ BitVec.ofBool h.s ++ h.g ++ 0#6 ++ d ++ a ++ b ++ 12#4)
  | .mulh h d a b => wordParcels (2#2 ++ BitVec.ofBool h.s ++ h.g ++ 0#6 ++ d ++ a ++ b ++ 13#4)
  | .umulh h d a b => wordParcels (2#2 ++ BitVec.ofBool h.s ++ h.g ++ 0#6 ++ d ++ a ++ b ++ 14#4)
  | .div h d a b => wordParcels (2#2 ++ BitVec.ofBool h.s ++ h.g ++ 1#6 ++ d ++ a ++ b ++ 0#4)
  | .udiv h d a b => wordParcels (2#2 ++ BitVec.ofBool h.s ++ h.g ++ 1#6 ++ d ++ a ++ b ++ 1#4)
  | .rem h d a b => wordParcels (2#2 ++ BitVec.ofBool h.s ++ h.g ++ 1#6 ++ d ++ a ++ b ++ 2#4)
  | .urem h d a b => wordParcels (2#2 ++ BitVec.ofBool h.s ++ h.g ++ 1#6 ++ d ++ a ++ b ++ 3#4)
  | .clz h d a => wordParcels (2#2 ++ BitVec.ofBool h.s ++ h.g ++ 1#6 ++ d ++ a ++ 4#9)
  | .popc h d a => wordParcels (2#2 ++ BitVec.ofBool h.s ++ h.g ++ 1#6 ++ d ++ a ++ 5#9)
  | .brev h d a => wordParcels (2#2 ++ BitVec.ofBool h.s ++ h.g ++ 1#6 ++ d ++ a ++ 6#9)
  | .sextb h d a => wordParcels (2#2 ++ BitVec.ofBool h.s ++ h.g ++ 1#6 ++ d ++ a ++ 7#9)
  | .sexth h d a => wordParcels (2#2 ++ BitVec.ofBool h.s ++ h.g ++ 1#6 ++ d ++ a ++ 8#9)
  | .sextw h d a => wordParcels (2#2 ++ BitVec.ofBool h.s ++ h.g ++ 1#6 ++ d ++ a ++ 9#9)
  | .zextw h d a => wordParcels (2#2 ++ BitVec.ofBool h.s ++ h.g ++ 1#6 ++ d ++ a ++ 10#9)
  | .slt h d a b => wordParcels (2#2 ++ BitVec.ofBool h.s ++ h.g ++ 1#6 ++ d ++ a ++ b ++ 11#4)
  | .uslt h d a b => wordParcels (2#2 ++ BitVec.ofBool h.s ++ h.g ++ 1#6 ++ d ++ a ++ b ++ 12#4)
  | .addi h d a i => wordParcels (2#2 ++ BitVec.ofBool h.s ++ h.g ++ 2#6 ++ d ++ a ++ i)
  | .andi h d a i => wordParcels (2#2 ++ BitVec.ofBool h.s ++ h.g ++ 3#6 ++ d ++ a ++ i)
  | .ori h d a i => wordParcels (2#2 ++ BitVec.ofBool h.s ++ h.g ++ 4#6 ++ d ++ a ++ i)
  | .xori h d a i => wordParcels (2#2 ++ BitVec.ofBool h.s ++ h.g ++ 5#6 ++ d ++ a ++ i)
  | .shli h d a n => wordParcels (2#2 ++ BitVec.ofBool h.s ++ h.g ++ 6#6 ++ d ++ a ++ 0#3 ++ n)
  | .shri h d a n => wordParcels (2#2 ++ BitVec.ofBool h.s ++ h.g ++ 6#6 ++ d ++ a ++ 2#3 ++ n)
  | .sari h d a n => wordParcels (2#2 ++ BitVec.ofBool h.s ++ h.g ++ 6#6 ++ d ++ a ++ 4#3 ++ n)
  | .movi h d i => wordParcels (2#2 ++ BitVec.ofBool h.s ++ h.g ++ 7#6 ++ d ++ i)
  | .ldlit h d i => wordParcels (2#2 ++ BitVec.ofBool h.s ++ h.g ++ 8#6 ++ d ++ i)
  | .setlc h a i => wordParcels (2#2 ++ BitVec.ofBool h.s ++ h.g ++ 288#11 ++ a ++ i)
  | .cmp h p a b c k => wordParcels (2#2 ++ BitVec.ofBool h.s ++ h.g ++ 10#6 ++ p ++ a ++ b ++ c ++ k)
  | .cmpi h p a i c k => wordParcels (2#2 ++ BitVec.ofBool h.s ++ h.g ++ 11#6 ++ p ++ a ++ i ++ c ++ k)
  | .br h o => wordParcels (2#2 ++ BitVec.ofBool h.s ++ h.g ++ 12#6 ++ o)
  | .call h o => wordParcels (2#2 ++ BitVec.ofBool h.s ++ h.g ++ 13#6 ++ o)
  | .jmp h a => wordParcels (2#2 ++ BitVec.ofBool h.s ++ h.g ++ 448#11 ++ a ++ 0#9)
  | .callr h a => wordParcels (2#2 ++ BitVec.ofBool h.s ++ h.g ++ 448#11 ++ a ++ 1#9)
  | .ret h => wordParcels (2#2 ++ BitVec.ofBool h.s ++ h.g ++ 7340034#25)
  | .pand h d a b => wordParcels (2#2 ++ BitVec.ofBool h.s ++ h.g ++ 30#7 ++ d ++ a ++ b ++ 0#6)
  | .por h d a b => wordParcels (2#2 ++ BitVec.ofBool h.s ++ h.g ++ 30#7 ++ d ++ a ++ b ++ 1#6)
  | .pxor h d a b => wordParcels (2#2 ++ BitVec.ofBool h.s ++ h.g ++ 30#7 ++ d ++ a ++ b ++ 2#6)
  | .pandn h d a b => wordParcels (2#2 ++ BitVec.ofBool h.s ++ h.g ++ 30#7 ++ d ++ a ++ b ++ 3#6)
  | .pnot h d a => wordParcels (2#2 ++ BitVec.ofBool h.s ++ h.g ++ 30#7 ++ d ++ a ++ 4#10)
  | .pmov h d a => wordParcels (2#2 ++ BitVec.ofBool h.s ++ h.g ++ 30#7 ++ d ++ a ++ 5#10)
  | .pbcast h d a => wordParcels (2#2 ++ BitVec.ofBool h.s ++ h.g ++ 30#7 ++ d ++ a ++ 6#10)
  | .pcnt h d a => wordParcels (2#2 ++ BitVec.ofBool h.s ++ h.g ++ 15#6 ++ d ++ a ++ 7#10)
  | .ldb h d a c o => wordParcels (2#2 ++ BitVec.ofBool h.s ++ h.g ++ 16#6 ++ d ++ a ++ c ++ o)
  | .ldh h d a c o => wordParcels (2#2 ++ BitVec.ofBool h.s ++ h.g ++ 17#6 ++ d ++ a ++ c ++ o)
  | .ldw h d a c o => wordParcels (2#2 ++ BitVec.ofBool h.s ++ h.g ++ 18#6 ++ d ++ a ++ c ++ o)
  | .ldd h d a c o => wordParcels (2#2 ++ BitVec.ofBool h.s ++ h.g ++ 19#6 ++ d ++ a ++ c ++ o)
  | .stb h d a c o => wordParcels (2#2 ++ BitVec.ofBool h.s ++ h.g ++ 20#6 ++ d ++ a ++ c ++ o)
  | .sth h d a c o => wordParcels (2#2 ++ BitVec.ofBool h.s ++ h.g ++ 21#6 ++ d ++ a ++ c ++ o)
  | .stw h d a c o => wordParcels (2#2 ++ BitVec.ofBool h.s ++ h.g ++ 22#6 ++ d ++ a ++ c ++ o)
  | .std h d a c o => wordParcels (2#2 ++ BitVec.ofBool h.s ++ h.g ++ 23#6 ++ d ++ a ++ c ++ o)
  | .amo h d a b f => wordParcels (2#2 ++ BitVec.ofBool h.s ++ h.g ++ 24#6 ++ d ++ a ++ b ++ f)
  | .amow h d a b f => wordParcels (2#2 ++ BitVec.ofBool h.s ++ h.g ++ 25#6 ++ d ++ a ++ b ++ f)
  | .amon h a b f => wordParcels (2#2 ++ BitVec.ofBool h.s ++ h.g ++ 832#11 ++ a ++ b ++ f)
  | .cas h d a b => wordParcels (2#2 ++ BitVec.ofBool h.s ++ h.g ++ 27#6 ++ d ++ a ++ b ++ 0#4)
  | .casw h d a b => wordParcels (2#2 ++ BitVec.ofBool h.s ++ h.g ++ 27#6 ++ d ++ a ++ b ++ 1#4)
  | .asc h d a b f => wordParcels (2#2 ++ BitVec.ofBool h.s ++ h.g ++ 28#6 ++ d ++ a ++ b ++ f)
  | .ascCas h d a b => wordParcels (2#2 ++ BitVec.ofBool h.s ++ h.g ++ 28#6 ++ d ++ a ++ b ++ 9#4)
  | .fence h m e => wordParcels (2#2 ++ BitVec.ofBool h.s ++ h.g ++ 29#6 ++ m ++ e)
  | .sadd h n a => wordParcels (2#2 ++ BitVec.ofBool h.s ++ h.g ++ 960#11 ++ n ++ a ++ 0#3)
  | .saddi h n i => wordParcels (2#2 ++ BitVec.ofBool h.s ++ h.g ++ 960#11 ++ n ++ i ++ 1#3)
  | .swait h n a => wordParcels (2#2 ++ BitVec.ofBool h.s ++ h.g ++ 960#11 ++ n ++ a ++ 2#3)
  | .sread h d n => wordParcels (2#2 ++ BitVec.ofBool h.s ++ h.g ++ 30#6 ++ d ++ n ++ 3#8)
  | .sset h n a => wordParcels (2#2 ++ BitVec.ofBool h.s ++ h.g ++ 960#11 ++ n ++ a ++ 4#3)
  | .qput h q a => wordParcels (2#2 ++ BitVec.ofBool h.s ++ h.g ++ 992#11 ++ q ++ a ++ 0#6)
  | .qget h d q => wordParcels (2#2 ++ BitVec.ofBool h.s ++ h.g ++ 31#6 ++ d ++ q ++ 16#11)
  | .qcount h d q => wordParcels (2#2 ++ BitVec.ofBool h.s ++ h.g ++ 31#6 ++ d ++ q ++ 32#11)
  | .qflush h q => wordParcels (2#2 ++ BitVec.ofBool h.s ++ h.g ++ 992#11 ++ q ++ 48#11)
  | .brq h q o => wordParcels (2#2 ++ BitVec.ofBool h.s ++ h.g ++ 32#6 ++ q ++ o)
  | .csrr h d c => wordParcels (2#2 ++ BitVec.ofBool h.s ++ h.g ++ 33#6 ++ d ++ c ++ 0#2)
  | .csrw h a c => wordParcels (2#2 ++ BitVec.ofBool h.s ++ h.g ++ 34#6 ++ a ++ c ++ 0#2)
  | .csrwSet h a c => wordParcels (2#2 ++ BitVec.ofBool h.s ++ h.g ++ 34#6 ++ a ++ c ++ 1#2)
  | .csrwClr h a c => wordParcels (2#2 ++ BitVec.ofBool h.s ++ h.g ++ 34#6 ++ a ++ c ++ 2#2)
  | .nop h => wordParcels (2#2 ++ BitVec.ofBool h.s ++ h.g ++ 18350080#25)
  | .rdv h m => wordParcels (2#2 ++ BitVec.ofBool h.s ++ h.g ++ 2295808#22 ++ m)
  | .sysEnd h => wordParcels (2#2 ++ BitVec.ofBool h.s ++ h.g ++ 18382848#25)
  | .trap h c => wordParcels (2#2 ++ BitVec.ofBool h.s ++ h.g ++ 1123#11 ++ c)
  | .bkpt h => wordParcels (2#2 ++ BitVec.ofBool h.s ++ h.g ++ 18415616#25)
  | .lbar h k => wordParcels (2#2 ++ BitVec.ofBool h.s ++ h.g ++ 2304000#22 ++ k)
  | .mwait h a => wordParcels (2#2 ++ BitVec.ofBool h.s ++ h.g ++ 1126#11 ++ a ++ 0#9)
  | .eret h => wordParcels (2#2 ++ BitVec.ofBool h.s ++ h.g ++ 18612224#25)
  | .wfe h => wordParcels (2#2 ++ BitVec.ofBool h.s ++ h.g ++ 18628608#25)
  | .stopack h => wordParcels (2#2 ++ BitVec.ofBool h.s ++ h.g ++ 18644992#25)
  | .taskadd h d a b => wordParcels (2#2 ++ BitVec.ofBool h.s ++ h.g ++ 36#6 ++ d ++ a ++ b ++ 0#4)
  | .taskjoin h d a b => wordParcels (2#2 ++ BitVec.ofBool h.s ++ h.g ++ 36#6 ++ d ++ a ++ b ++ 1#4)
  | .taskget h d a b => wordParcels (2#2 ++ BitVec.ofBool h.s ++ h.g ++ 36#6 ++ d ++ a ++ b ++ 2#4)
  | .cpyLin h d a b => wordParcels (2#2 ++ BitVec.ofBool h.s ++ h.g ++ 37#6 ++ d ++ a ++ b ++ 0#4)
  | .cpyShp h d a b => wordParcels (2#2 ++ BitVec.ofBool h.s ++ h.g ++ 37#6 ++ d ++ a ++ b ++ 1#4)
  | .cpySlot h d a b => wordParcels (2#2 ++ BitVec.ofBool h.s ++ h.g ++ 37#6 ++ d ++ a ++ b ++ 2#4)
  | .cpyFill h d a b => wordParcels (2#2 ++ BitVec.ofBool h.s ++ h.g ++ 37#6 ++ d ++ a ++ b ++ 3#4)
  | .cpyCirc h d a b => wordParcels (2#2 ++ BitVec.ofBool h.s ++ h.g ++ 37#6 ++ d ++ a ++ b ++ 4#4)
  | .gath h d a b => wordParcels (2#2 ++ BitVec.ofBool h.s ++ h.g ++ 38#6 ++ d ++ a ++ b ++ 0#4)
  | .scat h d a b => wordParcels (2#2 ++ BitVec.ofBool h.s ++ h.g ++ 38#6 ++ d ++ a ++ b ++ 1#4)
  | .racq h d n r => wordParcels (2#2 ++ BitVec.ofBool h.s ++ h.g ++ 39#6 ++ d ++ n ++ 0#4 ++ r ++ 0#4)
  | .rrel h n r => wordParcels (2#2 ++ BitVec.ofBool h.s ++ h.g ++ 1248#11 ++ n ++ 0#4 ++ r ++ 1#4)
  | .rcan h n r => wordParcels (2#2 ++ BitVec.ofBool h.s ++ h.g ++ 1248#11 ++ n ++ 0#4 ++ r ++ 2#4)
  | .rstat h d n => wordParcels (2#2 ++ BitVec.ofBool h.s ++ h.g ++ 39#6 ++ d ++ n ++ 3#9)
  | .fempty h a b => wordParcels (2#2 ++ BitVec.ofBool h.s ++ h.g ++ 1280#11 ++ a ++ b ++ 0#4)
  | .ftest h d a => wordParcels (2#2 ++ BitVec.ofBool h.s ++ h.g ++ 40#6 ++ d ++ a ++ 1#9)
  | .fput h d a b => wordParcels (2#2 ++ BitVec.ofBool h.s ++ h.g ++ 41#6 ++ d ++ a ++ b ++ 0#4)
  | .fget h d a b => wordParcels (2#2 ++ BitVec.ofBool h.s ++ h.g ++ 41#6 ++ d ++ a ++ b ++ 1#4)
  | .fred h d a b f => wordParcels (2#2 ++ BitVec.ofBool h.s ++ h.g ++ 42#6 ++ d ++ a ++ b ++ f)
  | .fll h d a => wordParcels (2#2 ++ BitVec.ofBool h.s ++ h.g ++ 43#6 ++ d ++ a ++ 0#9)
  | .fsc h d a b => wordParcels (2#2 ++ BitVec.ofBool h.s ++ h.g ++ 43#6 ++ d ++ a ++ b ++ 1#4)
  | .fsig h d a b => wordParcels (2#2 ++ BitVec.ofBool h.s ++ h.g ++ 43#6 ++ d ++ a ++ b ++ 2#4)
  | .fcoll h d a b => wordParcels (2#2 ++ BitVec.ofBool h.s ++ h.g ++ 43#6 ++ d ++ a ++ b ++ 3#4)
  | .segnew h d a b => wordParcels (2#2 ++ BitVec.ofBool h.s ++ h.g ++ 44#6 ++ d ++ a ++ b ++ 0#4)
  | .segatt h d a l w => wordParcels (2#2 ++ BitVec.ofBool h.s ++ h.g ++ 44#6 ++ d ++ a ++ 0#3 ++ l ++ w ++ 1#4)
  | .segdet h d a => wordParcels (2#2 ++ BitVec.ofBool h.s ++ h.g ++ 44#6 ++ d ++ a ++ 2#9)
  | .segevict h d a => wordParcels (2#2 ++ BitVec.ofBool h.s ++ h.g ++ 44#6 ++ d ++ a ++ 3#9)
  | .segdrop h d a => wordParcels (2#2 ++ BitVec.ofBool h.s ++ h.g ++ 44#6 ++ d ++ a ++ 4#9)
  | .segqry h d a => wordParcels (2#2 ++ BitVec.ofBool h.s ++ h.g ++ 44#6 ++ d ++ a ++ 5#9)
  | .cflush h d a b => wordParcels (2#2 ++ BitVec.ofBool h.s ++ h.g ++ 45#6 ++ d ++ a ++ b ++ 0#4)
  | .cinv h d a b => wordParcels (2#2 ++ BitVec.ofBool h.s ++ h.g ++ 45#6 ++ d ++ a ++ b ++ 1#4)
  | .cclean h d a b => wordParcels (2#2 ++ BitVec.ofBool h.s ++ h.g ++ 45#6 ++ d ++ a ++ b ++ 2#4)
  | .cpref h d a b => wordParcels (2#2 ++ BitVec.ofBool h.s ++ h.g ++ 45#6 ++ d ++ a ++ b ++ 3#4)
  | .vadd h d a b m => wordParcels (2#2 ++ BitVec.ofBool h.s ++ h.g ++ 46#6 ++ d ++ a ++ b ++ m ++ 0#3)
  | .vsub h d a b m => wordParcels (2#2 ++ BitVec.ofBool h.s ++ h.g ++ 46#6 ++ d ++ a ++ b ++ m ++ 1#3)
  | .vmul h d a b m => wordParcels (2#2 ++ BitVec.ofBool h.s ++ h.g ++ 46#6 ++ d ++ a ++ b ++ m ++ 2#3)
  | .vfma h d a b m => wordParcels (2#2 ++ BitVec.ofBool h.s ++ h.g ++ 46#6 ++ d ++ a ++ b ++ m ++ 3#3)
  | .vfms h d a b m => wordParcels (2#2 ++ BitVec.ofBool h.s ++ h.g ++ 46#6 ++ d ++ a ++ b ++ m ++ 4#3)
  | .vfnma h d a b m => wordParcels (2#2 ++ BitVec.ofBool h.s ++ h.g ++ 46#6 ++ d ++ a ++ b ++ m ++ 5#3)
  | .vmax h d a b m => wordParcels (2#2 ++ BitVec.ofBool h.s ++ h.g ++ 46#6 ++ d ++ a ++ b ++ m ++ 6#3)
  | .vmin h d a b m => wordParcels (2#2 ++ BitVec.ofBool h.s ++ h.g ++ 46#6 ++ d ++ a ++ b ++ m ++ 7#3)
  | .vabs h d a => wordParcels (2#2 ++ BitVec.ofBool h.s ++ h.g ++ 47#6 ++ d ++ a ++ 0#9)
  | .vneg h d a => wordParcels (2#2 ++ BitVec.ofBool h.s ++ h.g ++ 47#6 ++ d ++ a ++ 1#9)
  | .vrcpe h d a => wordParcels (2#2 ++ BitVec.ofBool h.s ++ h.g ++ 47#6 ++ d ++ a ++ 2#9)
  | .vrsqe h d a => wordParcels (2#2 ++ BitVec.ofBool h.s ++ h.g ++ 47#6 ++ d ++ a ++ 3#9)
  | .vfloor h d a => wordParcels (2#2 ++ BitVec.ofBool h.s ++ h.g ++ 47#6 ++ d ++ a ++ 4#9)
  | .vrnd h d a => wordParcels (2#2 ++ BitVec.ofBool h.s ++ h.g ++ 47#6 ++ d ++ a ++ 5#9)
  | .vscale h d a b m => wordParcels (2#2 ++ BitVec.ofBool h.s ++ h.g ++ 47#6 ++ d ++ a ++ b ++ m ++ 6#3)
  | .viadd h d a b m => wordParcels (2#2 ++ BitVec.ofBool h.s ++ h.g ++ 48#6 ++ d ++ a ++ b ++ m ++ 0#3)
  | .visub h d a b m => wordParcels (2#2 ++ BitVec.ofBool h.s ++ h.g ++ 48#6 ++ d ++ a ++ b ++ m ++ 1#3)
  | .vimul h d a b m => wordParcels (2#2 ++ BitVec.ofBool h.s ++ h.g ++ 48#6 ++ d ++ a ++ b ++ m ++ 2#3)
  | .vand h d a b m => wordParcels (2#2 ++ BitVec.ofBool h.s ++ h.g ++ 48#6 ++ d ++ a ++ b ++ m ++ 3#3)
  | .vor h d a b m => wordParcels (2#2 ++ BitVec.ofBool h.s ++ h.g ++ 48#6 ++ d ++ a ++ b ++ m ++ 4#3)
  | .vxor h d a b m => wordParcels (2#2 ++ BitVec.ofBool h.s ++ h.g ++ 48#6 ++ d ++ a ++ b ++ m ++ 5#3)
  | .vshl h d a b m => wordParcels (2#2 ++ BitVec.ofBool h.s ++ h.g ++ 48#6 ++ d ++ a ++ b ++ m ++ 6#3)
  | .vsar h d a b m => wordParcels (2#2 ++ BitVec.ofBool h.s ++ h.g ++ 48#6 ++ d ++ a ++ b ++ m ++ 7#3)
  | .vmov h d b m => wordParcels (2#2 ++ BitVec.ofBool h.s ++ h.g ++ 49#6 ++ d ++ 0#5 ++ b ++ m ++ 0#3)
  | .vsel h d a b m => wordParcels (2#2 ++ BitVec.ofBool h.s ++ h.g ++ 49#6 ++ d ++ a ++ b ++ m ++ 1#3)
  | .vclamp h d a b m => wordParcels (2#2 ++ BitVec.ofBool h.s ++ h.g ++ 49#6 ++ d ++ a ++ b ++ m ++ 2#3)
  | .vshr h d a b m => wordParcels (2#2 ++ BitVec.ofBool h.s ++ h.g ++ 49#6 ++ d ++ a ++ b ++ m ++ 3#3)
  | .vcvt h d a t c r => wordParcels (2#2 ++ BitVec.ofBool h.s ++ h.g ++ 50#6 ++ d ++ a ++ t ++ c ++ 0#1 ++ r)
  | .vcmp h p a b c k => wordParcels (2#2 ++ BitVec.ofBool h.s ++ h.g ++ 51#6 ++ p ++ a ++ b ++ c ++ k)
  | .vradd h d a => wordParcels (2#2 ++ BitVec.ofBool h.s ++ h.g ++ 52#6 ++ d ++ a ++ 0#9)
  | .vrmax h d a => wordParcels (2#2 ++ BitVec.ofBool h.s ++ h.g ++ 52#6 ++ d ++ a ++ 1#9)
  | .vrmin h d a => wordParcels (2#2 ++ BitVec.ofBool h.s ++ h.g ++ 52#6 ++ d ++ a ++ 2#9)
  | .vraddx h d a => wordParcels (2#2 ++ BitVec.ofBool h.s ++ h.g ++ 52#6 ++ d ++ a ++ 3#9)
  | .vperm h d a b m => wordParcels (2#2 ++ BitVec.ofBool h.s ++ h.g ++ 53#6 ++ d ++ a ++ b ++ m ++ 0#3)
  | .vrot h d a b m => wordParcels (2#2 ++ BitVec.ofBool h.s ++ h.g ++ 53#6 ++ d ++ a ++ b ++ m ++ 1#3)
  | .vshft h d a b m => wordParcels (2#2 ++ BitVec.ofBool h.s ++ h.g ++ 53#6 ++ d ++ a ++ b ++ m ++ 2#3)
  | .vdup h d a b m => wordParcels (2#2 ++ BitVec.ofBool h.s ++ h.g ++ 53#6 ++ d ++ a ++ b ++ m ++ 3#3)
  | .vbc h d a => wordParcels (2#2 ++ BitVec.ofBool h.s ++ h.g ++ 54#6 ++ d ++ a ++ 0#9)
  | .vext h d a b => wordParcels (2#2 ++ BitVec.ofBool h.s ++ h.g ++ 54#6 ++ d ++ a ++ b ++ 1#4)
  | .vld h d a c o => wordParcels (2#2 ++ BitVec.ofBool h.s ++ h.g ++ 55#6 ++ d ++ a ++ c ++ o)
  | .vst h d a c o => wordParcels (2#2 ++ BitVec.ofBool h.s ++ h.g ++ 56#6 ++ d ++ a ++ c ++ o)
  | .vldl h d a o => wordParcels (2#2 ++ BitVec.ofBool h.s ++ h.g ++ 57#6 ++ d ++ a ++ o ++ 0#1)
  | .vstl h d a o => wordParcels (2#2 ++ BitVec.ofBool h.s ++ h.g ++ 57#6 ++ d ++ a ++ o ++ 1#1)
  | .vcord h d a n f => wordParcels (2#2 ++ BitVec.ofBool h.s ++ h.g ++ 58#6 ++ d ++ a ++ n ++ 0#1 ++ f)
  | .vwin h t u k => wordParcels (2#2 ++ BitVec.ofBool h.s ++ h.g ++ 472#9 ++ t ++ 0#4 ++ u ++ 0#2 ++ k ++ 0#4)
  | .pgo h p => wordParcels (2#2 ++ BitVec.ofBool h.s ++ h.g ++ 236#8 ++ p ++ 1#14)
  | .pstop h p => wordParcels (2#2 ++ BitVec.ofBool h.s ++ h.g ++ 236#8 ++ p ++ 2#14)
  | .vstp h d p => wordParcels (2#2 ++ BitVec.ofBool h.s ++ h.g ++ 59#6 ++ d ++ 0#2 ++ p ++ 3#9)
  | .vstat h d a => wordParcels (2#2 ++ BitVec.ofBool h.s ++ h.g ++ 59#6 ++ d ++ a ++ 4#9)
  | .mcfg h c a => wordParcels (2#2 ++ BitVec.ofBool h.s ++ h.g ++ 60#6 ++ c ++ a ++ 0#6)
  | .mma h => wordParcels (2#2 ++ BitVec.ofBool h.s ++ h.g ++ 31981568#25)
  | .mmac h => wordParcels (2#2 ++ BitVec.ofBool h.s ++ h.g ++ 31981569#25)
  | .trn h d t => wordParcels (2#2 ++ BitVec.ofBool h.s ++ h.g ++ 976#10 ++ d ++ t ++ 2#11)
  | .prm h d t => wordParcels (2#2 ++ BitVec.ofBool h.s ++ h.g ++ 976#10 ++ d ++ t ++ 3#11)
  | .rred h d t => wordParcels (2#2 ++ BitVec.ofBool h.s ++ h.g ++ 976#10 ++ d ++ t ++ 4#11)
  | .zero h m => wordParcels (2#2 ++ BitVec.ofBool h.s ++ h.g ++ 976#10 ++ m ++ 5#11)
  | .mclaim h n => wordParcels (2#2 ++ BitVec.ofBool h.s ++ h.g ++ 992#10 ++ n ++ 0#11)
  | .mrel h n => wordParcels (2#2 ++ BitVec.ofBool h.s ++ h.g ++ 992#10 ++ n ++ 1#11)
  | .mwaitn h a => wordParcels (2#2 ++ BitVec.ofBool h.s ++ h.g ++ 15872#14 ++ a ++ 2#6)
  | .mpri h a => wordParcels (2#2 ++ BitVec.ofBool h.s ++ h.g ++ 15872#14 ++ a ++ 3#6)
  | .mfmt h e a => wordParcels (2#2 ++ BitVec.ofBool h.s ++ h.g ++ 992#10 ++ e ++ a ++ 4#6)
  | .mret h t => wordParcels (2#2 ++ BitVec.ofBool h.s ++ h.g ++ 3968#12 ++ t ++ 5#11)
  | .mstat h c d => wordParcels (2#2 ++ BitVec.ofBool h.s ++ h.g ++ 7936#13 ++ c ++ d ++ 6#6)
  | .notify _ _
  | .bar2RingAccess _ _
  | .entryFetch _
  | .fetchPoll _
  | .nopPacket _
  | .launchPacket _
  | .graphPacket _
  | .writePacket _
  | .fillPacket _
  | .copyPacket _
  | .signalPacket _
  | .waitPacket _
  | .waitRecheck _
  | .waitTimeout _
  | .fencePacket _
  | .timestampPacket _
  | .segadminNew _
  | .segadminEvict _
  | .segadminDrop _
  | .segadminQuery _
  | .packetComplete _ _
  | .enable _ _
  | .disable _ _
  | .disableComplete
  | .queueMap
  | .idleUnmap _
  | .timesliceUnmap _
  | .mwaitTimeout _ _
  | .taskgetTimeout _
  | .portPrefetch _ _
  | .nestStart _
  | .kstep _
  | .retirementComplete _
  | .tileOpComplete _
  | .nestEntryComplete _
  | .streamAgeTick
  | .nestAgeTick
  | .recordAgeTick
  | .packetAgeTick
  | .commandStart _ _
  | .commandUnitLand _ _ _ _
  | .commandComplete _ _ _
  | .circuitSlot _
  | .reservationExpire
  | .fabricTimeout _
  | .graphTableLoad _
  | .completionProcessing _
  | .loopEvaluate _ _
  | .endNode _ _
  | .launchAdmission
  | .coresidentReserve _ _
  | .cowaitTimeout _
  | .hierarchyExpansion _
  | .recordReady _
  | .taskPop _ _
  | .jobStart _
  | .jobEnd _
  | .spillRefill _
  | .preemptionRequest _ _
  | .affinityRelax _
  | .tqReprio _ _
  | .clusterShareWrite _ _ _
  | .tlbinv _ _
  | .tlbinvComplete
  | .rangeCtlWrite _ _ _
  | .govLimitsWrite _ _
  | .ballastStep
  | .tarnFillComplete _ _
  | .tarnWritebackComplete _ _
  | .tarnMigration _ _
  | .dataFlit _ _
  | .creditFlit _ _
  | .nackFlit _ _
  | .shedreqFlit _ _
  | .restripeFlit _ _
  | .abortFlit _ _
  | .uncorrectableCodeword _ _
  | .shedWindowEnd _
  | .linkDown _ _
  | .routeSelect _ _
  | .escapeEntry _ _
  | .egressSend _
  | .escctlFlip _ _
  | .put
  | .getreq
  | .getdata
  | .sig
  | .fllRequest
  | .fscRequest
  | .ack
  | .install _ _
  | .remove _ _
  | .removeComplete
  | .collectiveStart _
  | .bucketSend _ _
  | .red
  | .bucketTimeout _ _
  | .collResult
  | .collIncomplete
  | .collError
  | .noResultTimeout _ _
  | .stop _
  | .resume _
  | .kill _
  | .report _
  | .fwCommandComplete _
  | .fwSelWrite _ _
  | .fwJcsrWrite _ _
  | .fwTick
  | .wdageExpire _ _
  | .jobTrap _
  | .fwContextRestart _
  | .scanDrain _
  | .coppiceScan _
  | .scanDeferTimeout _
  | .scanEnd _ _
  | .checkpointClose
  | .closeComplete
  | .rollback
  | .sliceSpare _
  | .laserSpare _
  | .hedgeSelWrite _ _
  | .hedgeDataWrite _ _
  | .hedgeApply
  | .patternTest _ _ _ _
  | .patternTestComplete _ _ _ _
  | .rdallWrite _ _ _ _
  | .wdallWrite _ _ _ _
  | .repairWrite _ _ _ _
  | .chmodeWrite _ _ _ _
  | .channelOffline _ _
  | .stage _ _
  | .stageComplete
  | .activate _ _
  | .abort _ _
  | .svncommit _ _
  | .ready _
  | .handed _
  | .healthy _
  | .updateDeadline
  | .switchWindowExpire
  | .coreFirmwareSwitch _
  | .fwHealth _ _
  | .boot _
  | .clear _
  | .retry _
  | .getVersion _
  | .getCapabilities _
  | .negotiateAlgorithms _
  | .getDigests _
  | .getCertificate _
  | .challenge _
  | .getMeasurements _
  | .perst
  | .bar4Access _ _
  | .msixMaskWrite _ _ _
  | .cxlLinkDown _
  | .cxlLinkUp _
  | .undervoltage
  | .thermalThrottle _ _
  | .overtemperature _ _
  | .registerWrite _ _ _
  | .throttleRelease _
  | .laneRetrain _ _
  | .controllerRestart _ => []

/-- R9: the bytes of parcels in memory order. -/
def parcelBytes : List Parcel → List Byte
  | [] => []
  | p :: ps => p.extractLsb' 0 8 :: p.extractLsb' 8 8 :: parcelBytes ps

/-- What the decoder reads from the encoder's parcels. -/
def decodeEncoded (i : Instr) : Except DecodeErr Instr :=
  match encode i with
  | [p] => decodeParcels p 0
  | [p, q] => decodeParcels p q
  | _ => .error .reservedParcel

end Sys2Proof
end

