-- ==== Sys2Proof/Machine/State.lean ====
section
/-!
DEFINITION. The state of the module: plain data, holding every piece of state that the spec names.
A register is a bit vector, a count or an index a number, an alternative an inductive type. `State.reset` is the
machine right after reset; the values it gives where the spec gives none are named in the assumption log.
-/

namespace Sys2Proof.Machine

/-- Values by number, in one canonical form: numbers strictly rising, and none listed at its default. -/
abbrev Sparse (α : Type) := List (Nat × α)

/-- Memory: the listed bytes, every other byte reading 0 (log 1). The keys of the address spaces are disjoint
(Ops.lean); physical addresses are their own keys. -/
abbrev Memory := List Host.Cell

/-- Why a machine stops: no power. -/
inductive Fault where
  /-- Raised by `step` when a stream is to issue and the power has been removed (R541, R542): the module has no always-on island,
  so no stream runs until a boot. Safe: the machine stops where the spec says that power is gone. -/
  | poweredOff
deriving DecidableEq, Repr

/-- Why a step has no meaning. -/
inductive Refusal where
  /-- Raised by an arm of `exec` whose instruction has no meaning yet. Safe: the machine stops. -/
  | notModelled (mnemonic : String)
deriving DecidableEq, Repr

/-- Who executes: a slot number (0 to 3071 the job slots, then the firmware contexts, then the embedded controllers)
and one of its streams. -/
structure Agent where
  slot : Nat
  st   : StreamId
deriving DecidableEq, Repr

/-- What happens next (the environment's and the arbiters' choice, as data): an event of the opcode table, a cycle of
one of a core's three issue units (R320), a step of a context that runs the scalar profile (R70), a walk whose result a
core's or a cluster's TLB keeps at an index (R336; log 4), a request that reaches the L2, with the slice that its hint names
(R341, R343; log 123), a stack's read of a stored sector (R502), an error that memory cells take
(R497; log 102), an error of an L2 slice, corrected or of a line past correction (R503), the host's choice of BAR4's size (R536),
what the sensors of the nine dies and of the input show (R542), or a write over I3C (R543). -/
inductive Turn where
  | event   (i : Instr)
  | unit    (core : Nat) (k : StreamId)
  | context (slot : Nat)
  | fill    (cluster : Bool) (unit index cls ctx va : Nat)
  | l2      (cluster : Nat) (ctx : Option Nat) (addr : Nat) (hint : Option Nat)
  | sector  (sector : Nat)
  | wear    (unit pos : Nat) (e : Byte)
  | slice   (slice : Nat) (line : Option Nat)
  | bar4    (log2 : Nat)
  | sensors (temps : List Nat) (inputv inputw : Nat)
  | i3c     (off : Nat) (d : Word)
deriving DecidableEq, Repr

/-! ## Streams (chapters 02, 04, 16) -/

/-- A fault as its record shows it: code and status word (R470, R471), fault address, and the PC where it is not the
bundle's own (R126). -/
structure Trap where
  code   : Nat
  sub    : Word := 0
  faddr  : Word := 0
  pc     : Option Word := none
deriving DecidableEq, Repr

/-- R46, R49, R50, R52: the block that a stream runs. `body` is the loop buffer as far as it has been fetched;
`drain` is the early epilogue's c + 1, in place of N (R237); `halted` says that a fault has stopped the epilogue (R468). -/
structure Block where
  hdr    : Word
  rot    : Bool
  exp    : Bool
  stg    : Bool
  stages : Nat
  len    : Nat
  n      : Nat
  k      : Nat
  pos    : Nat
  body   : List Parcel
  drain  : Option Nat
  halted : Bool := false
deriving DecidableEq, Repr

/-- A value on its way to a register: `en` masks the bits that the result writes. A row is a physical row,
64 × tile + row (R205). -/
inductive PendVal where
  | x   (n : Nat) (v : Word)
  | p   (n : Nat) (v en : BitVec 256)
  | row (r : Nat) (v en : Row)
deriving DecidableEq, Repr

/-- R55, R469: an entry of the pending-write queue: the value, the VSTAT flags it will raise, and the bundles left. -/
structure Pend where
  val    : PendVal
  flags  : BitVec 5
  remain : Nat
deriving DecidableEq, Repr

/-- R146: the wait that holds the next bundle; `since` is the TICK at which it began. -/
structure Wait where
  kind  : Nat
  obj   : Nat
  arg   : BitVec 32
  since : Nat
deriving DecidableEq, Repr

/-- R152: the monitor, armed on a line (its key), and whether another agent has written it since. -/
structure Monitor where
  line    : Nat
  written : Bool
deriving DecidableEq, Repr

/-- R496, R498: the snapshot that RACQ.C takes, with the ring, the slots of the output ring that were held before the
phase, how often the phase was cancelled, and whether its restart has yet to take the held slot again (log 43). -/
structure Phase where
  ring    : Nat
  x       : Vector Word 32
  p       : Vector (BitVec 256) 16
  lc      : BitVec 32
  rrb     : BitVec 8
  n       : Nat
  cancels : Nat
  outHeld : Nat
  redo    : Bool
deriving DecidableEq, Repr

/-- How a stream came to its next header: a transfer or an entry (R50), or the end of a block's body (R48). -/
inductive Arrival where
  | transfer | fall
deriving DecidableEq, Repr

/-- A stream. Predicates are held as 256 bits, of which the A and M streams use bit 0 (R61, R62). `reenter` is the
pass number and pass count that a restart gives the block it enters (R239, R498). -/
structure Stream where
  x        : Vector Word 32 := Vector.replicate 32 0
  p        : Vector (BitVec 256) 16 := Vector.replicate 16 0
  lc       : BitVec 32 := 0
  rrb      : BitVec 8 := 0
  acls     : BitVec 4 := 0
  iterPend : Bool := false
  iterCnt  : BitVec 32 := 0
  cmdidx   : BitVec 48 := 0
  pc       : Word := 0
  arrival  : Arrival := .transfer
  blk      : Option Block := none
  exposed  : Bool := false
  pend     : List Pend := []
  ended    : Bool := false
  wait     : Option Wait := none
  age      : Nat := 0
  agedAt   : Option Nat := none
  readyFor : Nat := 0
  monitor  : Option Monitor := none
  rdv      : Sparse Nat := []
  lbar     : Sparse Nat := []
  phase    : Option Phase := none
  reenter  : Option (Nat × Nat) := none
deriving DecidableEq, Repr

/-! ## Job slots (chapters 04, 05, 06, 07, 09, 16) -/

/-- R461: the state of a job slot; `free` is an empty slot (OCC = 0), `starting` a slot whose job has been admitted
and has not started (R318). -/
inductive JobState where
  | free | starting | running | stopping | stopped | trapped | killing
deriving DecidableEq, Repr

/-- R300: a continuation record, with what the task queue knows of it: its context and launch, the path of its parent
node when LEAFV is set, the key of the counter that it is held on, whether it is held (R302) or ready, the TICK at which
it becomes or became ready, its age, whether it is spilled and its place in the spill region (R307), whether its affinity has
relaxed (R309), the last TICK at which a free slot fitted it (R316), the ramp slot that R398 assigned to it, the ramp slot of its
start, and its class when it became ready (R464). -/
structure TaskRec where
  code     : Word := 0
  frame    : Word := 0
  join     : Word := 0
  key      : BitVec 32 := 0
  kind     : Nat := 0
  prio     : Nat := 0
  affkind  : Nat := 0
  affinity : Word := 0
  place    : Word := 0
  resume   : Bool := false
  waitjoin : Bool := false
  leafv    : Bool := false
  waiton   : Word := 0
  launchid : BitVec 32 := 0
  leaf     : BitVec 32 := 0
  ctx      : Nat := 0
  launch   : Nat := 0
  waitKey  : Nat := 0
  held     : Bool := false
  ready    : Bool := false
  readyAt  : Nat := 0
  age      : Nat := 0
  spilled  : Bool := false
  spillAt  : Nat := 0
  fitAt    : Nat := 0
  relaxed  : Bool := false
  rampSlot : Option Nat := none
  rampN    : Nat := 0
  prioAt   : Nat := 0
deriving DecidableEq, Repr

/-- R470: a trap record. -/
structure TrapRec where
  code       : Nat := 0
  source     : Nat := 0
  async      : Bool := false
  ended      : Bool := false
  statusOnly : Bool := false
  launchid   : BitVec 32 := 0
  cmdidx     : BitVec 48 := 0
  place      : BitVec 16 := 0
  pc         : Word := 0
  repidx     : BitVec 32 := 0
  status     : Word := 0
  faddr      : Word := 0
  leaf       : Word := 0
  tick       : Word := 0
deriving DecidableEq, Repr

/-- A run of bytes that a command moves (R168, R169, R173). -/
structure Run3 where
  src : Word
  dst : Word
  len : Nat
deriving DecidableEq, Repr

/-- A run of a unit: its bytes as they were read when the command started (R168), the runs of them whose check failed (R497), and
whether they are still to be read, since a line of their source is empty or a channel holds it; `elem` is the element of a
gather or scatter that it is, or is a part of. -/
structure Part where
  run    : Run3
  data   : List Byte := []
  poison : List (Nat × Nat) := []
  late   : Bool := false
  elem   : Option Run3 := none
deriving DecidableEq, Repr

/-- A unit of a command (R166): the runs that go to one 4 KiB block, the fault that reading them met, whether it has landed, and
the tag of its packet (R180); `count` is what its landing counts where that is not the bytes of its runs. -/
structure Unit4k where
  parts  : List Part
  fault  : Option Trap := none
  landed : Bool := false
  tag    : Option Nat := none
  count  : Option Nat := none
deriving DecidableEq, Repr

/-- R263: what a REDUCE retirement hands to FQ: the nest-queue entry, the retirement's number, and its descriptor's bytes and the 64 buckets. -/
structure Handoff where
  nest    : Nat
  n       : Nat
  desc    : List Byte
  buckets : List (List Byte)
deriving DecidableEq, Repr

/-- R160, R196: a command: what its issue copied, and how far it has come. `slotNo` is the ring slot it holds
(R178); `again` marks a source record that runs once more for a cancelled phase (R498). -/
structure Cmd where
  id       : Nat := 0
  cw       : Word := 0
  opa      : Word := 0
  opb      : Word := 0
  op       : Nat := 0
  fn       : Nat := 0
  cmdidx   : BitVec 48 := 0
  started  : Bool := false
  units    : List Unit4k := []
  bytes    : Nat := 0
  slotNo   : Option Nat := none
  failed   : Bool := false
  handoff  : Option Handoff := none
  again    : Bool := false
deriving DecidableEq, Repr

/-- R174, R175, R178: a ring: its CSRs and counters. `heldP`, `heldC` are the held slots, oldest first, with whether
each has been released out of order; `src` gives the command that filled a slot. -/
structure Ring where
  base      : Word := 0
  geom      : Word := 0
  role      : Word := 0
  filled    : Nat := 0
  free      : Nat := 0
  prod      : Nat := 0
  cons      : Nat := 0
  cfgerr    : Bool := false
  heldP     : List (Nat × Bool) := []
  heldC     : List (Nat × Bool) := []
  phasePc   : Word := 0
  phaseIter : Word := 0
  commits   : Word := 0
  src       : Sparse (Option Cmd) := []
deriving DecidableEq, Repr

/-- A use that a port has read ahead (R216): its value, or the fault that its consumer will raise (R217). -/
structure Prefetch where
  value : Row
  fault : Option Trap
deriving DecidableEq, Repr

/-- R212 to R216: an operand port: its CSRs, what PGO latched, the indices, and the uses read ahead. -/
structure Port where
  base    : Word := 0
  type    : Word := 0
  cnt     : Vector Word 6 := Vector.replicate 6 0
  stride  : Vector Word 6 := Vector.replicate 6 0
  run     : Bool := false
  exh     : Bool := false
  lbase   : Word := 0
  ltype   : Word := 0
  lcnt    : Vector Word 6 := Vector.replicate 6 0
  lstride : Vector Word 6 := Vector.replicate 6 0
  idx     : Vector Nat 6 := Vector.replicate 6 0
  used    : BitVec 48 := 0
  ahead   : List Prefetch := []
deriving DecidableEq, Repr

/-- R203: the element types of a tile. -/
inductive TType where
  | fp32 | int32 | bf16 | fp16 | int16
deriving DecidableEq, Repr

/-- R250: the matrix configuration registers, by number. -/
abbrev MRegs := Sparse Word

/-- The kinds of nest-queue entries (R243, R258). -/
inductive NestKind where
  | mma | mmac | trn | prm | rred | zero | mret
deriving DecidableEq, Repr

/-- R254, R255, R259, R269: a nest-queue entry: its number, what it latched, its indices, its age, how many retirement
points it has passed, and the retirements handed to FQ that have not ended. `td`, `ts` are the operands of a tile
operation (`td` the mask of a ZERO); `worked` says that its work on the array is over; `stepAt` is the TICK at which the
k-step or tile operation in progress began; `refetch` the command that its k-step waits for (R498), and `failed` that a k-step faulted: it goes no further. -/
structure Nest where
  id       : Nat := 0
  kind     : NestKind
  regs     : MRegs := []
  fmtA     : BitVec 32 := 0
  fmtB     : BitVec 32 := 0
  td       : Nat := 0
  ts       : Nat := 0
  cmdidx   : BitVec 48 := 0
  prio     : Nat := 0
  issued   : Nat := 0
  age      : Nat := 0
  started  : Bool := false
  worked   : Bool := false
  overtaken : Bool := false
  idx      : List Nat := [0, 0, 0, 0, 0, 0]
  stepAt   : Nat := 0
  retired  : Nat := 0
  reducing : List Nat := []
  refetch  : Option Nat := none
  failed   : Bool := false
deriving DecidableEq, Repr

/-- R245: the state of an operand slot. -/
inductive OSlotState where
  | empty | filling | full | claimed | releasing
deriving DecidableEq, Repr

/-- R245, R248: an operand slot: its state, the command that filled it, and, when RELEASING, how many entries must
still complete. -/
structure OSlot where
  state   : OSlotState := .empty
  src     : Option Cmd := none
  waitFor : Nat := 0
  cancels : Nat := 0
deriving DecidableEq, Repr

/-- R188: an attachment of a job to a tarn. -/
structure Attach where
  name   : Nat
  writer : Bool
deriving DecidableEq, Repr

/-- A job slot, or the slot of a context of the scalar profile, which uses the A stream alone. `reserved` is the launch that
R315 reserves it for; `attachAt` counts the attachments that the job's start has made (R318), and `resuming` says that a
restored job waits for the slots that are being refetched (R479); `liveEnts` are the live ranges of its part (R76), as
(offset, length); `trapRec` is the record of its trap, which `trapDue` says is still to be written (R472), `issuedAt` the cycle of a controller's last bundle (R511), `saveArea` where its stop saved it; `replies` are answers that have come for a held bundle (Packets, Tarn and Tasks say which number is which). -/
structure Slot where
  state    : JobState := .free
  reserved : Option Nat := none
  a        : Stream := {}
  m        : Stream := {}
  v        : Stream := {}
  sem      : Sparse (BitVec 32) := []
  q        : Sparse (List Word) := []
  ctx      : Nat := 0
  job      : TaskRec := {}
  launch   : Nat := 0
  prio     : Nat := 0
  levels   : Nat := 0
  coresident : Bool := false
  migrate  : Bool := false
  maxDepth : Nat := 0
  rampSlot : BitVec 32 := 0
  levelIdx : List Word := []
  tilesMask : Nat := 0
  oslotMask : Nat := 0
  ringMask : Nat := 0
  portMask : Nat := 0
  partStart : Nat := 0
  partLen  : Nat := 0
  liveEnts : List (Nat × Nat) := []
  startAt  : Nat := 0
  attachAt : Nat := 0
  resuming : Bool := false
  vwin     : BitVec 3 := 0
  vlive    : BitVec 32 := 0
  vflags   : BitVec 5 := 0
  vrm      : BitVec 2 := 0
  rndseed  : BitVec 32 := 0
  gens     : Sparse (BitVec 32) := []
  fmt      : Sparse (BitVec 32) := []
  rings    : Sparse Ring := []
  ports    : Sparse Port := []
  cq       : List Cmd := []
  fq       : List Cmd := []
  mregs    : MRegs := []
  nests    : List Nest := []
  oslots   : Sparse OSlot := []
  mretired : BitVec 32 := 0
  msat     : Bool := false
  attach   : List Attach := []
  trapRec  : Option TrapRec := none
  trapDue  : Bool := false
  issuedAt : Option Nat := none
  saveArea : Word := 0
  replies  : Sparse Word := []
deriving DecidableEq, Repr

/-- R476: what a stop saved, by save area: the slot's state, the live tile rows, the half of lane memory and the live
ranges of the part, as bytes by offset, the windows that bind the job (R412), and the size. -/
structure Saved where
  slot  : Slot
  tiles : Sparse (BitVec 32)
  types : Sparse TType
  lanes : Memory
  part  : Memory
  windows : List Nat
  size  : Nat
deriving DecidableEq, Repr

/-! ## Cores (chapters 06, 07, 13, 16, 17) -/

/-- R458 to R467, R322: the firmware registers of a core, the command in progress (its operation, 5 for a RESUME whose job is
there; the slot it acts on, the state that a KILL found, the address that FW.ARG gave, and its result so far), the TICK of a fault of the context, its image (1 for the staged one), the TICK at which a job last started or
ended on the core, and the window of 64 cycles with the cycles of it that firmware has taken from ready V streams. -/
structure Fw where
  sel      : Word
  result   : BitVec 8 := 0
  reject   : Bool := false
  busy     : Bool := false
  arg      : Word := 0
  event    : BitVec 5 := 0
  evmask   : BitVec 5 := 0
  wdage    : BitVec 16 := 0
  period   : BitVec 16 := 1000
  tbase    : Word := 0
  share    : Nat := 1
  op       : Nat := 0
  target   : Nat := 0
  prior    : JobState := .free
  cmdArg   : Word := 0
  health   : Bool := false
  faulted  : Option Nat := none
  image    : Nat := 0
  jobAt    : Option Nat := none
  window   : Nat := 0
  budget   : Nat := 0
deriving DecidableEq, Repr

/-- R485: the scan phase of a core. -/
inductive ScanPhase where
  | run | drain | deferred
deriving DecidableEq, Repr

/-- R259: a retirement on the retire port of a core, or waiting for it: job slot, nest-queue entry, tile, number, and the
TICK at which it took the port. -/
structure Retire where
  slot  : Nat
  nest  : Nat
  tile  : Nat
  n     : Nat
  since : Option Nat := none
deriving DecidableEq, Repr

/-- What a core holds. `usedA`, `usedM`, `usedV` are the TICKs at which its units last issued (R320), `engAt` that at which an engine last added to a
semaphore of it (R137). A tile word is numbered 8192 × tile + 128 × row + lane; a line of the core scratchpad that is
not listed in `empty` is full (R179, R329). -/
structure Core where
  empty    : List Nat := []
  tiles    : Sparse (BitVec 32) := []
  ttype    : Sparse TType := []
  fw       : Fw
  arrayBy  : Option Nat := none
  port     : List Retire := []
  lostA    : Nat := 0
  lostM    : Nat := 0
  lostV    : Nat := 0
  usedA    : Option Nat := none
  usedM    : Option Nat := none
  usedV    : Option Nat := none
  engAt    : Option Nat := none
  scan     : ScanPhase := .run
  scanning : Option Nat := none
  scanInt  : Nat := 0
  waitScan : Option Nat := none
  passInt  : BitVec 32 := 0
  passAt   : Option Nat := none
  est      : Nat := 100
  estPrev  : Nat := 100
  acts     : Sparse Nat := []
  ballast  : Word := 0
deriving DecidableEq, Repr

/-! ## The bundle being issued -/

/-- How the bundle at hand stands: going on, taken elsewhere by a transfer, waiting (R157), ended by data whose
check fails (R497), cancelled by a fault (R69), or the stream's last (R150). -/
inductive IssueOutcome where
  | issued | branched | waiting | ended | poisoned
  | faulted (t : Trap)
deriving DecidableEq, Repr

/-- R60: what the words of a bundle read: the slot and its core's tiles as they stood before the bundle. A port read performs before
the bundle issues (R216): `mem`, `poison` and `empty` are memory and the core's empty lines as they stood; `ports` are the ports as
the bundle's uses have left them, and `went` those that a PGO of the bundle starts, which its uses do not see (R241). -/
structure View where
  slot  : Slot
  tiles : Sparse (BitVec 32)
  ttype : Sparse TType
  mem   : Memory := []
  poison : List Nat := []
  badLines : List Nat := []
  empty : List Nat := []
  ports : Sparse Port := []
  went  : List Nat := []
deriving DecidableEq, Repr

/-- The bundle at hand: who issues it, what its words read when it has more than one, how it stands, and the VSTAT
flags that its words have raised so far (R236). -/
structure Issue where
  agent   : Agent
  view    : Option View := none
  outcome : IssueOutcome := .issued
  flags   : BitVec 5 := 0
deriving DecidableEq, Repr

/-! ## Memory, translation, access checks (chapters 10, 17, 19) -/

/-- R342: a range register group. -/
structure RangeReg where
  base  : Word := 0
  limit : Word := 0
  ctl   : Word := 0
deriving DecidableEq, Repr

/-- R339, R343: a line that a set of the L2 holds: its way, its number (physical address / 128), and the range for which it is
retained. -/
structure L2Line where
  way   : Nat
  line  : Nat
  range : Option Nat := none
deriving DecidableEq, Repr

/-- R330: CLUSTER.c.SHARE. -/
structure ShareReg where
  share  : Nat := 0
  reject : Bool := false
deriving DecidableEq, Repr

/-- R336: a translation that a TLB holds: a context's page, as (first address, size), its physical address, attribute,
layout and rights (R334). -/
structure TlbEntry where
  ctx    : Nat
  base   : Nat
  size   : Nat
  pa     : Nat
  attr   : Nat
  layout : Nat
  r      : Bool
  w      : Bool
  x      : Bool
  comp   : Bool := false
deriving DecidableEq, Repr

/-- R336: the invalidation in progress (`all`: ALLVA), and what the TLBs hold, by core (128 entries each) and by cluster (4096). -/
structure Tlb where
  busy : Bool := false
  all  : Bool := false
  ctx  : Nat := 0
  va   : Nat := 0
  pages : Nat := 0
  cores : Sparse (Sparse TlbEntry) := []
  clusters : Sparse (Sparse TlbEntry) := []
deriving DecidableEq, Repr

/-- R507: a target's Hedge table: window bounds (first, last) by window, permission bits by master id. -/
structure HedgeTable where
  windows : Sparse (Nat × Nat) := []
  perms   : Sparse (BitVec 32) := []
deriving DecidableEq, Repr

/-- R509: the table registers and the write that has not applied yet. -/
structure Hedge where
  sel     : Word := 0
  reject  : Bool := false
  pending : Option (Word × Word) := none
  tables  : Sparse HedgeTable := []
deriving DecidableEq, Repr

/-- R183: a reservation at the target: its requester (device, core, slot, stream as one number), its line, its TICK. -/
structure Reservation where
  requester : Nat
  line      : Nat
  since     : Nat
deriving DecidableEq, Repr

/-- R488: an undo-log entry: the line, the interval and the pre-image, with the tick order of the list newest first. -/
structure UndoEntry where
  line     : Nat
  interval : Nat
  image    : BitVec 1024
deriving DecidableEq, Repr

/-- R487 to R494: an interval that has not committed: its number, when it closed, the cores that wrote in it, whether
it is unprotected, and whether its write-backs have performed. -/
structure Interval where
  n        : Nat
  closedAt : Option Nat := none
  complete : Bool := false
  writers  : List Nat := []
  unprot   : Bool := false
deriving DecidableEq, Repr

/-! ## Tarns (chapter 12) -/

/-- R377: the states of a tarn that the directory lists (ABSENT is not listed). -/
inductive TarnState where
  | filling | resident | evicting | evicted
deriving DecidableEq, Repr

/-- What asked for a tarn's write-back (R379): an allocation for a launch or for no launch, with a number of its own, a SEGEVICT
command, or an EVICT record of a packet. -/
inductive Asker where
  | auto  (launch : Option Nat) (who : Nat)
  | cmd   (slot id : Nat)
  | admin (q idx : Nat)
deriving DecidableEq, Repr

/-- R187, R373 to R383: a tarn of the directory. `run` is the start of its storage, as an offset of its level's space;
`home` its domain's number; `dirty` its dirty units; `waiting` the attaches that wait, in directory order, counted by
`readers` and `writer` (R380); `holds` the launches that hold it; `askedBy` what asked for its write-back; `mover` the attach
that its move serves (R382) and `moveFrom` the domain and run that it moves from; `fresh` says that it has not been filled
yet; `born` is the interval of its creation, `writtenIn` that of its last write and `filledIn` that of its last fill (R385); `cleaning`
gives the units that a close has still to copy, with the interval that closed (R384). `evicts` and `drops` are the operations
that the directory has accepted and that complete at EVICTED and at its end (R191), and `maker` the SEGNEW that has made it and
still waits. -/
structure Tarn where
  ctx      : Nat
  name     : Nat
  level    : Nat
  home     : Nat
  size     : Nat
  life     : Nat
  backing  : Nat
  fill     : Bool
  state    : TarnState
  run      : Nat
  dirty    : List Nat := []
  readers  : Nat := 0
  writer   : Bool := false
  waiting  : List (Agent × Bool) := []
  holds    : List Nat := []
  detachAt : Nat := 0
  skipped  : Bool := false
  ending   : Bool := false
  launch   : Option Nat := none
  graph    : Option Nat := none
  askedBy  : Option Asker := none
  mover    : Option (Agent × Bool) := none
  born     : Nat := 0
  moveFrom : Option (Nat × Nat) := none
  refillFault : Option Trap := none
  fresh    : Bool := false
  writtenIn : Nat := 0
  filledIn : Nat := 0
  cleaning : Sparse Nat := []
  evicts   : List Asker := []
  drops    : List Asker := []
  maker    : Option Agent := none
deriving DecidableEq, Repr

/-! ## Launches and the task queue (chapters 08, 09) -/

/-- What asked for a launch: a packet of a queue, or a node of a resident graph. -/
inductive Origin where
  | packet (q idx : Nat)
  | node   (graph node : Nat)
deriving DecidableEq, Repr

/-- R294, R387: a tarn that a launch's jobs attach, with what a code object's request requires of it (R389). -/
structure TarnReq where
  name     : Nat
  writer   : Bool
  lazy     : Bool
  affinity : Bool
  frameOff : Nat
  shape    : Option (Nat × Nat × Nat) := none
deriving DecidableEq, Repr

/-- R292: a level of a launch's hierarchy. -/
structure Level where
  domain : Nat
  scope  : Nat
  fanout : Nat
deriving DecidableEq, Repr

/-- How far a launch has come in admission (R314): its record to be checked, its tarns and ramp slots, its co-residency;
or running. -/
inductive LaunchPhase where
  | waiting | tarns | reserve | running
deriving DecidableEq, Repr

/-- R151: how many LBARs of a level a stream of a job has reached that is in no slot any more, and how many have completed there, by
the job's path. -/
structure Arrived where
  path  : List Word
  st    : StreamId
  level : Nat
  count : Nat
  done  : Nat
deriving DecidableEq, Repr

/-- R291 to R295, R304, R305, R315, R398: a launch. `bad` says that the record fails a check of R293 that its own bytes
show; `heldN` counts the tarns that admission has dealt with, `refilling` says that it waits for a refill it asked for;
`attached` the jobs that have attached a tarn, by name; `counters` are the job counters of its level nodes, by path, where they have moved; `nextLeaf` is the next leaf to expand;
`added` the JOB records that its jobs added and that have not ended; `rampList` the ramp slot and the cycle of each of the
first jobs; `openedAt` the TICK at which its reservation opened; `arrived` the barriers of jobs that left their slots (R151); `written` the
entries of its fault area that have been written; `circ` its circuit table and `cluster` where it is
installed. -/
structure Launch where
  id        : Nat
  ctx       : Nat := 0
  origin    : Origin
  graphOf   : Option Nat := none
  phase     : LaunchPhase := .waiting
  bad       : Bool := false
  launchid  : BitVec 32 := 0
  code      : Word := 0
  frame     : Word := 0
  fstride   : Nat := 0
  prio      : Nat := 0
  coresident : Bool := false
  migrate   : Bool := false
  ramppin   : Bool := false
  rampclass : Nat := 0
  rampmax   : Nat := 0
  maxDepth  : Nat := 4096
  levels    : List Level := []
  completion : Word := 0
  faultArea : Word := 0
  faultCap  : Nat := 0
  tarns     : List TarnReq := []
  heldN     : Nat := 0
  refilling : Bool := false
  attached  : Sparse Nat := []
  counters  : List (List Nat × Nat) := []
  nextLeaf  : Nat := 0
  added     : Nat := 0
  faults    : Nat := 0
  faultCode : Nat := 0
  failed    : Bool := false
  rampFirst : Nat := 0
  rampSlots : Nat := 0
  rampList  : List (Nat × Nat) := []
  openedAt  : Nat := 0
  circ      : Option (Nat × List (Nat × Nat × Nat)) := none
  cluster   : Option Nat := none
  arrived   : List Arrived := []
  written   : Nat := 0
deriving DecidableEq, Repr

/-- R317: the task queue's settings and its records, by number in the order in which they came; `stopReqs` gives, by
victim slot, what asked for its stop (2 × record, or 2 × launch + 1). -/
structure TaskQ where
  cowait    : BitVec 32 := 1000
  prewait   : BitVec 8 := 2
  affwait   : BitVec 8 := 20
  spillbase : Word := 0
  records   : Sparse TaskRec := []
  nextRec   : Nat := 0
  stopReqs  : Sparse Nat := []
deriving DecidableEq, Repr

/-- The ring and port values that the loader keeps for a code object (R174, R213, R318), by the context and address of
its header (log 46): (ring, BASE, GEOM, ROLE), and (port, BASE, TYPE, counts, strides). -/
structure LoadedObj where
  ctx   : Nat
  code  : Word
  rings : List (Nat × Word × Word × Word) := []
  ports : List (Nat × Word × Word × List Word × List Word) := []
deriving DecidableEq, Repr

/-! ## The governor (chapter 13) -/

/-- R393, R397, R404: GOV.LIMITS, the reserved budget of each ramp slot in mW, and the ballast entries, oldest first, as
(core, amount in units of 1/1024 mW). -/
structure Gov where
  rise     : Nat := 500
  fall     : Nat := 500
  reject   : Bool := false
  reserved : Sparse Nat := []
  ballast  : List (Nat × Nat) := []
deriving DecidableEq, Repr

/-! ## Graphs (chapter 08) -/

/-- R278: the state of a node. -/
inductive NodeState where
  | waiting | running | done | failed | iterating
deriving DecidableEq, Repr

/-- R278, R279: a node of the resident table: its type and body as software wrote them (its 64 bytes), the fields that the
engine keeps, the sub-code of its failure (R296), whether it is on the fault path (R290), and whether a LOOP is evaluating (R286). -/
structure GNode where
  bytes  : List Byte
  cnt    : Nat := 0
  state  : NodeState := .waiting
  iter   : Nat := 0
  result : Nat := 0
  code   : Nat := 0
  sub    : Nat := 0
  tick   : Word := 0
  onPath : Bool := false
  evaluating : Bool := false
deriving DecidableEq, Repr

/-- R277, R281, R282, R290: a graph: its context, the packet that carried it, its table's address, whether its nodes are
resident yet, its nodes, the header's fields, and whether its fault path has started. -/
structure Graph where
  ctx      : Nat
  q        : Nat
  idx      : Nat
  table    : Word
  entry    : Nat
  loaded   : Bool := false
  nodes    : List GNode := []
  fault    : Nat := 0xFFFF
  failed   : Bool := false
  faultCode : Nat := 0
  failNode : Nat := 0
  start    : Word := 0
  pathRun  : Bool := false
  pathDead : Bool := false
deriving DecidableEq, Repr

/-- R284: a completion that the graph engine has yet to process: graph, node, the RESULT of the node, and the fault that it
met, or the fault code of a KERNEL's launch. A fault of code 0 marks an action that a channel holds (R518). -/
structure Completion where
  graph  : Nat
  node   : Nat
  status : Nat := 0
  code   : Nat := 0
  fault  : Option Trap := none
deriving DecidableEq, Repr

/-- R482 to R494, R505: the checkpoint and spare registers; the latest committed interval; the open interval, the length that it
was given and the TICK at which it opened; the uncommitted intervals, oldest first; the undo log, newest entry first, the number
of entries that each stack has appended, and whether the stacks log. `rot` is the number of the next scan of each cluster's rotation, `failed` the cores whose failure has yet to be
acted on. `lasers` are the spare lasers used, by bank; `sliceErrs` the corrected errors of each L2 slice in the open interval, and
`sliceBad` the slices that have reported an uncorrectable one (R503). -/
structure Ckpt where
  rollvec   : BitVec 11 := 0
  rollen    : Bool := false
  defer     : BitVec 15 := 2000
  len       : BitVec 8 := 20
  lenNow    : Nat := 20
  committed : Option Nat := none
  current   : Nat := 0
  openedAt  : Nat := 0
  rollbacks : BitVec 16 := 0
  fails     : BitVec 16 := 0
  intervals : List Interval := [{ n := 0 }]
  undo      : List UndoEntry := []
  logNext   : Sparse Nat := []
  logging   : Bool := true
  lasers    : Sparse Nat := []
  slices    : Nat := 8
  sliceErrs : Sparse Nat := []
  sliceBad  : List Nat := []
  spares    : Sparse Nat := []
  down      : List Nat := []
  rot       : Sparse Nat := []
  failed    : List Nat := []
deriving DecidableEq, Repr

/-- R539, R540: a CXL port. -/
structure CxlPort where
  drops  : BitVec 32 := 0
  size   : Nat := 0
  width  : Nat := 0
  linkup : Bool := false
deriving DecidableEq, Repr

/-! ## HBM channels, controller images, boot (chapter 18) -/

/-- R514 to R518: a channel's registers. `pass` has bit k for lane k; delays are listed where they differ from 32;
`test` is the CHCTL value of the test in progress and the TICK at which it began; `holding` stands from a write that
clears ONLINE until ONLINE reads 0. -/
structure Chan where
  busy    : Bool := false
  reject  : Bool := false
  errs    : BitVec 32 := 0
  pass    : BitVec 64 := 0
  passx   : BitVec 2 := 0
  repair  : BitVec 16 := 0
  online  : Bool := false
  trained : Bool := false
  holding : Bool := false
  offlineAt : Nat := 0
  rdly    : Sparse (BitVec 6) := []
  wdly    : Sparse (BitVec 6) := []
  test    : Option (Word × Nat) := none
deriving DecidableEq, Repr

/-- R519: a verified image: its envelope's fields and its UZO bytes. -/
structure Image where
  cls     : Nat
  savefmt : Nat := 0
  readfmt : BitVec 32 := 0
  svn     : Nat := 0
  digest  : List Byte := []
  bytes   : List Byte := []
  keyid   : List Byte := []
  sig     : List Byte := []
deriving DecidableEq, Repr

/-- R524: UPDSIG. -/
structure UpdSig where
  record  : BitVec 32 := 0
  req     : Bool := false
  handed  : Bool := false
  healthy : Bool := false
  ready   : Bool := false
deriving DecidableEq, Repr

/-- R511, R523: a controller's two image slots (A is false, B is true), which is active, which of its two contexts runs
the active image, and UPDSIG. -/
structure Ctl where
  slotA    : Option Image := none
  slotB    : Option Image := none
  activeB  : Bool := false
  secondRuns : Bool := false
  sig      : UpdSig := {}
deriving DecidableEq, Repr

/-- R522 to R530: the update registers, the operation in progress, and the fused minima of SVN by class. `switched` are
the cores that a class 5 update has switched, with the TICK at which each did; `allIn` says that every core runs the staged image
(R521). -/
structure Upd where
  image    : Word := 0
  cmd      : Word := 0
  seq      : BitVec 32 := 0
  result   : Nat := 0
  phase    : Nat := 0
  busy     : Bool := false
  startedAt : Nat := 0
  pausedAt : Option Nat := none
  paused   : List Nat := []
  switched : Sparse Nat := []
  back     : Bool := false
  allIn    : Bool := false
  minima   : Sparse Nat := []
  pending  : List Nat := []
deriving DecidableEq, Repr

/-- R531 to R533: BOOT.STATUS, whose ATTEMPTS is kept in carrier-board storage, the stage that boot has reached, and the
digest of the management controller image that the boot measured (R521). -/
structure Boot where
  attempts : Nat := 0
  reason   : Nat := 0
  stack    : Nat := 15
  lastStage : Nat := 0
  minimal  : Bool := false
  ready    : Bool := false
  stage    : Nat := 0
  measured : List Byte := []
deriving DecidableEq, Repr

/-- Who makes an access: the unit class and context of its master id (R506), the core whose scratchpads it reaches,
the job slot whose part and attachments it is checked against, and, for a controller, its number. -/
structure Req where
  cls  : Nat
  ctx  : Nat
  core : Option Nat := none
  slot : Option Nat := none
  ctl  : Option Nat := none
  me   : Option Agent := none
deriving DecidableEq, Repr

/-! ## User queues (chapter 01) -/

/-- R23 to R25: a fetched packet: its count, its 128 bytes, how far it has come, the TICK of its start, and what it waits
for: a launch, a graph, or a tarn operation of the directory, whose outcome (fault code, sub-code) is `admin` and whose
RESULT is `adminVal`. -/
structure Packet where
  idx     : Nat
  bytes   : List Byte
  started : Bool := false
  done    : Bool := false
  failed  : Bool := false
  since   : Nat := 0
  checked : Nat := 0
  launch  : Option Nat := none
  graph   : Option Nat := none
  admin   : Option (Nat × Nat) := none
  adminVal : Word := 0
deriving DecidableEq, Repr

/-- The error that stops a queue (R29): code, packet count, tag, and whether it is the fault of reading the entry. -/
structure QueueError where
  code  : Nat
  idx   : Nat
  tag   : Nat
  entry : Bool
deriving DecidableEq, Repr

/-- R17, R33 to R35: what the command processors hold of a queue that is enabled, or whose started packets have not all
completed: the record's fields, NEXT and RETIRED, the packets from RETIRED on that have been fetched, and the hardware
slot that it is mapped on, or was mapped on last. `errSet` says that `error` has been written to the record. `invalid` is the TICK at which the fetcher last found an invalid entry; `idleFrom` and
`mappedAt` the TICKs at which it became idle and was mapped. `from_` is its NEXT and RETIRED when it was enabled. -/
structure Queue where
  enabled  : Bool := false
  ring     : Word := 0
  log2     : Nat := 4
  prio     : Nat := 0
  ctx      : Nat := 0
  errvec   : Option Nat := none
  pending  : Bool := false
  next     : Nat := 0
  retired  : Nat := 0
  packets  : List Packet := []
  slot     : Option Nat := none
  lastSlot : Nat := 0
  awake    : Bool := false
  invalid  : Option Nat := none
  idleFrom : Nat := 0
  mappedAt : Nat := 0
  lastMap  : Nat := 0
  error    : Option QueueError := none
  errSet   : Bool := false
  from_    : Nat × Nat := (0, 0)
deriving DecidableEq, Repr

/-- R37: QTBASE, QCMDSTAT with the DISABLE in progress or the ENABLE whose record a channel holds (R518), RINGWIN. -/
structure QueueRegs where
  qtbase  : Word := 0
  reject  : Bool := false
  busy    : Option Nat := none
  enabling : Option Nat := none
  ringwin : Word := 0
deriving DecidableEq, Repr

/-- R411, R412: an exported window: its MAP and BIND registers and the pending counters of a stopped bound job. -/
structure Window where
  map     : Word := 0
  bind    : Word := 0
  pending : Sparse Nat := []
deriving DecidableEq, Repr

/-! ## The fabric (chapters 14, 15) -/

/-- R417: a packet: the fields of its header, and its data. Not on the wire are `poison`, the runs of the data whose check failed
(R497), and `via`, the port that it came in by (128: this module's own). -/
structure FPkt where
  dest   : Nat
  src    : Nat
  cls    : Nat := 0
  prio   : Nat := 0
  nonmin : Bool := false
  esc    : Bool := false
  escb   : Bool := false
  hops   : Nat := 0
  op     : Nat
  status : Nat := 0
  sub    : Nat := 0
  arrive : Nat := 0xFFFF
  tag    : Nat := 0
  addr   : Nat := 0
  data   : List Byte := []
  poison : List (Nat × Nat) := []
  via    : Nat := 128
deriving DecidableEq, Repr

/-- A packet in an input VC of the router (R426, R434): how many of its flits have come and how many it has, its LEN, the TICK
of its HEAD, its age, the output (0 to 127 a port, 128 this module) that its route chose, and the TICK `since` which it has stood
at the head of its VC. `bad` is one that the router drops (R417, R422); `stomp` gives the sequence number of a HEAD that was stomped
(R435). `seqIn` is the sequence number of its HEAD; `sent` counts the flits that have left (R426), on VC `vcOut`, the HEAD under
sequence number `seqOut`. -/
structure InPkt where
  pkt    : FPkt
  flits  : Nat
  need   : Nat
  at_    : Nat
  age    : Nat := 0
  out    : Option Nat := none
  since  : Nat := 0
  len    : Nat := 0
  bad    : Bool := false
  stomp  : Option Nat := none
  seqIn  : Nat := 0
  sent   : Nat := 0
  vcOut  : Nat := 0
  seqOut : Nat := 0
deriving DecidableEq, Repr

/-- R414 to R426: a fabric port: its configuration, the lanes of both directions (active, removed but still trained, trained),
the NACKs received (in all, in this window, in the last), the corrected symbols of each receive lane in this window, the lanes
that SHEDREQ has asked for, the next sequence number, the unacknowledged flits, the next one expected, whether a NACK for it has
been sent, by VC, the credits taken and not yet returned, the input VC whose packet holds the output (R434), and the units sent
and received since the last restripe (R418). -/
structure FPort where
  cfg      : Word
  active   : BitVec 16 := 0
  standby  : BitVec 16 := 0
  rxActive : BitVec 16 := 0
  rxStandby : BitVec 16 := 0
  trained  : BitVec 16 := 0
  rxTrained : BitVec 16 := 0
  nacks    : Nat := 0
  winNacks : Nat := 0
  lastNacks : Nat := 0
  winStart : Nat := 0
  errs     : Sparse Nat := []
  seq      : Nat := 0
  replay   : List (Nat × List Byte) := []
  rxNext   : Nat := 0
  nacked   : Bool := false
  credits  : Sparse Nat := []
  asked    : BitVec 16 := 0
  sending  : Option Nat := none
  txUnits  : Nat := 0
  rxUnits  : Nat := 0
deriving DecidableEq, Repr

/-- What an outstanding fabric transaction does when its answer comes (R180 to R186). -/
inductive XKind where
  | put (bytes : Nat)
  | get (dst : Word) (bytes : Nat) (full : Bool)
  | sig
  | fll
  | fsc
deriving DecidableEq, Repr

/-- An outstanding transaction, by its tag: the slot and, for a command, its number; and the TICK of its injection. -/
structure Xact where
  slot : Nat
  st   : StreamId
  cmd  : Option Nat
  kind : XKind
  at_  : Nat
deriving DecidableEq, Repr

/-- R439 to R443: a started, incomplete collective of this module: what the descriptor says, the buckets to send as RED
data (FP32, EXR or one-bit layout), how many have been sent, which results have come, and when its last RED was
injected. `cmd` is the command. -/
structure Inst where
  inst    : Nat
  slot    : Nat
  cmd     : Nat
  mode    : Nat
  scale   : Int
  elems   : Nat
  dst     : Word
  statusw : Word
  prio    : Nat
  buckets : List (List Byte)
  sent    : Nat := 0
  got     : List Nat := []
  lastAt  : Nat := 0
deriving DecidableEq, Repr

/-- R445, R451: a bucket at a combiner node of this module: the children's packets and the TICK of the first. -/
structure NodeBucket where
  level  : Nat
  index  : Nat
  inst   : Nat
  bucket : Nat
  got    : List (Nat × FPkt) := []
  firstAt : Nat := 0
deriving DecidableEq, Repr

/-- R444: a RED of a combiner node of a level that waits for a credit; `due` says that a child on this module waits for the credit of
its bucket. -/
structure RedOut where
  level : Nat
  pkt   : FPkt
  due   : Bool
deriving DecidableEq, Repr

/-- R437 to R453: an installed group: its record, the next instance, the collectives that have started, the recorded
closings (instance, kind, code, sub-code), the buckets at this module's nodes, the absent children of those nodes (level, index,
instance, child), the buckets that an error has ended there (level, index, instance, bucket), the closed instances, newest first,
on the root's module the staged buckets (instance, bucket), the credits that this module's nodes of each level hold of their
parents and have not had back (R444), and the REDs that wait for one. -/
structure Group where
  fanin    : Nat
  n        : Nat
  leaves   : List Nat
  stage    : Nat
  maxElems : Nat
  timeout  : Nat
  report   : Nat
  nextInst : Nat := 0
  insts    : List Inst := []
  closings : List (Nat × Nat × Nat × Nat) := []
  buckets  : List NodeBucket := []
  absent   : List (Nat × Nat × Nat × Nat) := []
  dead     : List (Nat × Nat × Nat × Nat) := []
  ended    : List Nat := []
  staged   : List (Nat × Nat) := []
  used     : Sparse Nat := []
  outq     : List RedOut := []
deriving DecidableEq, Repr

/-- The fabric as this module holds it. `inq` are the input VCs by 12 × port + VC, port 128 being the module's own
injection; `inbox` the packets delivered here; `routeWrites` counts the writes of the routing tables (R529). -/
structure Fab where
  ports    : Sparse FPort := []
  inq      : Sparse (List InPkt) := []
  inbox    : List FPkt := []
  grt      : Sparse Word := []
  lrt      : Sparse Word := []
  escActive : Bool := false
  routeWrites : Nat := 0
  xacts    : Sparse Xact := []
  nextTag  : Nat := 0
  groups   : Sparse Group := []
  rgBusy   : Option Nat := none
  rgErr    : Nat := 0
deriving DecidableEq, Repr

/-! ## Edges (chapter 19) -/

/-- R538: an MSI-X vector: its table entry and its pending bit. -/
structure MsixVec where
  addr    : Word := 0
  data    : BitVec 32 := 0
  masked  : Bool := true
  pending : Bool := false
deriving DecidableEq, Repr

/-- R542: THERM, with the dies' temperatures, 8 being the hub. -/
structure Therm where
  throttle : Nat := 100
  temps    : Sparse Nat := []
  held     : Bool := false
  inputv   : Nat := 0
  inputw   : Nat := 0
deriving DecidableEq, Repr

/-- R545: the telemetry counters. -/
structure Tel where
  resteer  : Sparse Word := []
  badhdr   : Sparse Nat := []
  reddrop  : Sparse Nat := []
  corr     : Sparse Nat := []
  uncorr   : Sparse Nat := []
  rederr   : Sparse (List Byte) := []
  rederrs  : Nat := 0
deriving DecidableEq, Repr

/-- R521: an answer of the management controller: the protocol version, what the module supports (no key exchange, no secured
sessions), the algorithms, the digest of a certificate chain, a part of a chain, a signature with its responder's nonce,
measurements with one, or an error. -/
inductive SpdmAns where
  | version (major minor : Nat)
  | capabilities (certificates challenge measurements keyExchange sessions : Bool)
  | algorithms (signature hash : String)
  | digests (slot : Nat) (digest : List Byte)
  | certificate (slot : Nat) (part : List Byte) (remaining : Nat)
  | challengeAuth (slot : Nat) (nonce : Word) (signature : List Byte)
  | measurements (count : Nat) (list : List (Nat × List Byte)) (nonce : Word) (signature : List Byte)
  | error
deriving DecidableEq, Repr

/-- What the module sends out: a flit of a port, with the lane that each of its sixteen units of 16 bytes travels on (R415, R418), an MSI-X message (R538), the data of a host read (and whether it
is poisoned), an answer of the management controller (R521). -/
inductive Output where
  | flit (port : Nat) (lanes : List Nat) (bytes : List Byte)
  | msix (vec : Nat)
  | hostRead (bytes : List Byte) (poison : Bool)
  | spdm (ans : SpdmAns)
deriving DecidableEq, Repr

/-! ## Circuits (chapter 10) -/

/-- R346 to R348: a cluster's installed circuit table: its launch, the TICK of cycle 0 of its first revolution, REV, the
entries (CYCLE, source byte, destination byte), and the TICK at which it last sent. -/
structure Circuit where
  launch : Nat
  since  : Nat
  rev    : Nat
  table  : List (Nat × Nat × Nat)
  sentAt : Option Nat := none
deriving DecidableEq, Repr


/-! ## Snapshots (chapter 17) -/

/-- R493: what a rollback to the close of interval `n` restores, as it stood at that close (at TICK `at_`): the queues, the
resident graphs with the completions still to be processed, and the launches. -/
structure Snap where
  n        : Nat
  at_      : Nat
  queues   : Sparse Queue
  graphs   : Sparse Graph
  completions : List Completion
  launches : Sparse Launch
deriving DecidableEq, Repr

/-- R494: a job that ran on a core: its launch, the interval of its end, and where its launch reports. -/
structure Ran where
  core     : Nat
  launch   : Nat
  last     : Nat
  ctx      : Nat
  launchid : BitVec 32
  completion : Word
  origin   : Origin
deriving DecidableEq, Repr
/-- R356: a bundle of which the words before an FLL or FSC have performed, its request being out: what its words read. -/
structure Begun where
  agent : Agent
  view  : View
deriving DecidableEq, Repr

/-- The whole module. `begun` are the bundles that an FLL or FSC has parted. `poison` lists the units of 8 bytes whose check fails (R497), `badLines` the lines of the L2 that a poison mark
stands on; `l2` gives, by dirty sector, what memory holds under it; `backs` are the sectors whose write-back waits for its channel
(R518), `lost` what a CXL device holds of those whose write-back its link has dropped (R540). `started` are the launches submitted in uncommitted intervals (interval, context, LAUNCHID); `rolled` those
that a rollback withdrew and that have yet to be submitted again (context, LAUNCHID, the interval rolled back to); `dying` are the contexts
whose destruction waits for their jobs (R376); `freeCount` counts the free values drawn, and `stalls` the accesses that the turn at hand has found waiting (log 124). -/
structure State where
  tarns     : List Tarn := []
  launches  : Sparse Launch := []
  nextLaunch : Nat := 0
  tq        : TaskQ := {}
  ckpt      : Ckpt := {}
  cxl       : Sparse CxlPort := []
  chans     : Sparse Chan := []
  ctls      : Sparse Ctl := []
  upd       : Upd := {}
  boot      : Boot := {}
  stalls    : Nat := 0
  queues    : Sparse Queue := []
  qregs     : QueueRegs := {}
  mapCount  : Nat := 0
  windows   : Sparse Window := []
  fab       : Fab := {}
  deviceId  : Nat := 0
  cmdCount  : Nat := 0
  msix      : Sparse MsixVec := []
  bar4map   : Word := 0
  bar4log2  : Nat := 36
  therm     : Therm := {}
  tel       : Tel := {}
  outbox    : List Output := []
  circuits  : Sparse Circuit := []
  snaps     : List Snap := []
  ran       : List Ran := []
  started   : List (Nat × Nat × Nat) := []
  rolled    : List (Nat × Nat × Nat) := []
  tick      : Nat := 0
  powered   : Bool := true
  mem       : Memory := []
  l2        : Sparse (BitVec 256) := []
  backs     : List Nat := []
  lost      : Sparse (BitVec 256) := []
  poison    : List Nat := []
  badLines  : List Nat := []
  damage    : Sparse (List (Nat × Byte)) := []
  comp      : List Nat := []
  slots     : Sparse Slot := []
  cores     : Sparse Core := []
  issue     : Issue := { agent := ⟨0, .a⟩ }
  begun     : List Begun := []
  agenda    : List Turn := []
  focus     : Turn := .event .ballastStep
  freeCount : Nat := 0
  ascTicket : Nat := 0
  resv      : List Reservation := []
  saves     : Sparse Saved := []
  ctxbase   : Word := 0
  tlb       : Tlb := {}
  dying     : List Nat := []
  shares    : Sparse ShareReg := []
  ranges    : Sparse RangeReg := []
  rangeAcc  : Sparse Nat := []
  l2tags    : Sparse (List L2Line) := []
  hedge     : Hedge := {}
  aged      : Sparse Nat := []
  gov       : Gov := {}
  loaded    : List LoadedObj := []
  graphs    : Sparse Graph := []
  nextGraph : Nat := 0
  completions : List Completion := []
deriving DecidableEq, Repr

/-- The module right after reset: every field at the value that the spec states, or that the assumption log names. -/
def State.reset : State := {}

end Sys2Proof.Machine
end

