-- ==== Sys2Proof/Machine/Bytes.lean ====
section
/-!
DEFINITION. Values by number, bytes and words, the bytes of memory, and check codes.
-/

namespace Sys2Proof.Machine

/-! ## Values by number -/

def sfind {α : Type} : Sparse α → Nat → Option α
  | [], _ => none
  | (k, v) :: t, n => if n = k then some v else if n < k then none else sfind t n

/-- The value at a number, `d` where none is listed. -/
def sget {α : Type} (m : Sparse α) (d : α) (n : Nat) : α := (sfind m n).getD d

/-- Puts a value at a number, the numbers staying in rising order. -/
def sput {α : Type} : Sparse α → Nat → α → Sparse α
  | [], n, v => [(n, v)]
  | (k, w) :: t, n, v => if n = k then (n, v) :: t else if n < k then (n, v) :: (k, w) :: t else (k, w) :: sput t n v

/-- Removes the value at a number. -/
def sdel {α : Type} : Sparse α → Nat → Sparse α
  | [], _ => []
  | (k, w) :: t, n => if n = k then t else if n < k then (k, w) :: t else (k, w) :: sdel t n

/-- Puts a number into a rising list. -/
def insertNat : List Nat → Nat → List Nat
  | [], n => [n]
  | m :: t, n => if n = m then m :: t else if n < m then n :: m :: t else m :: insertNat t n

/-! ## Bytes -/

/-- R9: the number that little-endian bytes denote. -/
def bytesNat : List Byte → Nat
  | [] => 0
  | b :: bs => b.toNat + 256 * bytesNat bs

/-- R9: the `n` low bytes of a number, least significant first. -/
def natBytes : Nat → Nat → List Byte
  | 0, _ => []
  | n + 1, v => BitVec.ofNat 8 v :: natBytes n (v / 256)

def leWord (bs : List Byte) : Word := BitVec.ofNat 64 (bytesNat bs)

/-- Bits `lo + n - 1 : lo` of a word, as a number. -/
def bits {w : Nat} (v : BitVec w) (lo n : Nat) : Nat := (v.toNat / 2 ^ lo) % 2 ^ n

/-- Whether bit `i` of a word is 1. -/
def bit {w : Nat} (v : BitVec w) (i : Nat) : Bool := v.getLsbD i

/-- A word whose field at `lo` holds `v`. -/
def field (v lo : Nat) : Nat := v * 2 ^ lo

def b2n (b : Bool) : Nat := if b then 1 else 0

/-- The numbers from `a` on, `n` of them. -/
def upTo : Nat → Nat → List Nat
  | _, 0 => []
  | a, n + 1 => a :: upTo (a + 1) n

/-- The units of size `u` that a run of bytes touches. -/
def unitsOf (u key len : Nat) : List Nat := if len = 0 then [] else upTo (key / u) ((key + len - 1) / u - key / u + 1)

/-! ## Memory bytes -/

/-- The byte at a key: what is listed, else 0 (log 1). -/
def memRead (m : Memory) (k : Nat) : Byte := sget m 0 k

/-- Writes a byte, keeping the canonical form: a byte of 0 is not listed. -/
def memWrite (m : Memory) (k : Nat) (b : Byte) : Memory := if b = 0 then sdel m k else sput m k b

def readBytes (m : Memory) : Nat → Nat → List Byte
  | _, 0 => []
  | k, n + 1 => memRead m k :: readBytes m (k + 1) n

def writeBytes (m : Memory) : Nat → List Byte → Memory
  | _, [] => m
  | k, b :: bs => writeBytes (memWrite m k b) (k + 1) bs

/-- The keys rise strictly from above `lo`, and no byte listed is 0. -/
def Memory.wfFrom : Option Nat → Memory → Bool
  | _, [] => true
  | lo, (k, b) :: t => (match lo with | none => true | some l => decide (l < k)) && b != 0 && Memory.wfFrom (some k) t

/-- The canonical form of a memory. -/
def Memory.wf (m : Memory) : Bool := Memory.wfFrom none m

/-! ## Check codes (R415, R420) -/

/-- One bit of the CRC-32 of IEEE 802.3, least significant bit first. -/
def crc32Bit (c : Nat) : Nat := if c % 2 = 1 then c / 2 ^^^ 0xEDB88320 else c / 2

def crc32Byte (c : Nat) (b : Byte) : Nat :=
  crc32Bit (crc32Bit (crc32Bit (crc32Bit (crc32Bit (crc32Bit (crc32Bit (crc32Bit (c ^^^ b.toNat))))))))

def crc32 (bs : List Byte) : Nat := bs.foldl crc32Byte 0xFFFFFFFF ^^^ 0xFFFFFFFF

/-- One bit of the CRC-16 with polynomial x^16 + x^12 + x^5 + 1, most significant bit first (log 47). -/
def crc16Bit (c : Nat) : Nat := if 2 ^ 15 ≤ c then c * 2 % 2 ^ 16 ^^^ 0x1021 else c * 2

def crc16Byte (c : Nat) (b : Byte) : Nat :=
  crc16Bit (crc16Bit (crc16Bit (crc16Bit (crc16Bit (crc16Bit (crc16Bit (crc16Bit (c ^^^ (b.toNat * 256)))))))))

def crc16 (bs : List Byte) : Nat := bs.foldl crc16Byte 0xFFFF

end Sys2Proof.Machine
end

