-- ==== Sys2Proof/Machine/Sectors.lean ====
section
/-!
DEFINITION. HBM sectors as the stacks store them: the modes of compression (R500) and the codes (R501).
-/

namespace Sys2Proof.Machine

/-! ## The modes (R500) -/

def nonZero (bs : List Byte) : List Byte := bs.filter (· != 0)

/-- The doubleword d_i of a sector. -/
def sectorWord (bs : List Byte) (i : Nat) : Word := leWord ((bs.drop (8 * i)).take 8)

/-- R500: d_i − d0 is a signed 48-bit value. -/
def smallDelta (bs : List Byte) (i : Nat) : Bool :=
  let d := sectorWord bs i - sectorWord bs 0
  (d.setWidth 48).signExtend 64 == d

/-- R500: the tag of a sector of a page with COMP = 1: the first mode that fits. -/
def sectorTag (bs : List Byte) : Nat :=
  if (nonZero bs).length ≤ 24 then 1
  else if (upTo 1 7).all fun k => bs.getD (4 * k + 3) 0 == bs.getD 3 0 then 2
  else if (upTo 1 3).all (smallDelta bs) then 3
  else 0

def bitNat (f : Nat → Bool) : Nat → Nat
  | 0 => 0
  | n + 1 => bitNat f n + b2n (f n) * 2 ^ n

/-- R500: the stored payload: 28 bytes, or the 32 bytes of a raw sector. -/
def sectorPayload (tag : Nat) (bs : List Byte) : List Byte :=
  let p := match tag with
    | 1 => natBytes 4 (bitNat (fun i => bs.getD i 0 != 0) 32) ++ nonZero bs
    | 2 => bs.getD 3 0 :: ((upTo 0 8).map fun k => (bs.drop (4 * k)).take 3).foldr (· ++ ·) []
    | 3 => bs.take 8 ++ ((upTo 1 3).map fun i => natBytes 6 ((sectorWord bs i - sectorWord bs 0).toNat % 2 ^ 48)).foldr (· ++ ·) []
    | _ => bs
  if tag = 0 then p else p ++ List.replicate (28 - p.length) 0

/-- Puts the non-zero bytes back under their mask. -/
def unmask (mask : Nat) : Nat → List Byte → List Byte
  | i, bs =>
    ((upTo 0 i).foldl (fun (acc : List Byte × List Byte) k =>
      if mask.testBit k then (acc.1 ++ [acc.2.headD 0], acc.2.drop 1) else (acc.1 ++ [0], acc.2)) ([], bs)).1

/-- R500: the 32 bytes of a payload. -/
def sectorBytes (tag : Nat) (p : List Byte) : List Byte :=
  match tag with
  | 1 => unmask (bytesNat (p.take 4)) 32 (p.drop 4)
  | 2 => ((upTo 0 8).map fun k => (p.drop (1 + 3 * k)).take 3 ++ [p.getD 0 0]).foldr (· ++ ·) []
  | 3 =>
    let d0 := leWord (p.take 8)
    p.take 8 ++ ((upTo 0 3).map fun i =>
      natBytes 8 (d0 + ((leWord ((p.drop (8 + 6 * i)).take 6)).setWidth 48).signExtend 64).toNat).foldr (· ++ ·) []
  | _ => p.take 32

/-! ## The codes (R501) -/

/-- Doubling in GF(2^8) with x^8 + x^4 + x^3 + x^2 + 1. -/
def gfDouble (a : Nat) : Nat := if 128 ≤ a then (2 * a) ^^^ 0x11D else 2 * a

/-- The product in GF(2^8), of the low `n` bits of `b`. -/
def gfMulFrom (a : Nat) (b : Nat) : Nat → Nat
  | 0 => 0
  | n + 1 => gfDouble (gfMulFrom a b n) ^^^ (if b.testBit (7 - n) then a else 0)

def gfMul (a b : Nat) : Nat := gfMulFrom a b 8

/-- The power α^n, α = 2. -/
def gfAlpha : Nat → Nat
  | 0 => 1
  | n + 1 => gfDouble (gfAlpha n)

/-- a^254, the inverse of a ≠ 0. -/
def gfInv (a : Nat) : Nat :=
  let a2 := gfMul a a; let a4 := gfMul a2 a2; let a8 := gfMul a4 a4; let a16 := gfMul a8 a8
  let a32 := gfMul a16 a16; let a64 := gfMul a32 a32; let a128 := gfMul a64 a64
  gfMul a2 (gfMul a4 (gfMul a8 (gfMul a16 (gfMul a32 (gfMul a64 a128)))))

/-- A polynomial (highest power first) times x − r. -/
def polyTimes (p : List Nat) (r : Nat) : List Nat :=
  List.zipWith (· ^^^ ·) (p ++ [0]) (0 :: p.map (gfMul r))

/-- R501: the generator with roots α^0 to α^3, without its leading 1. -/
def rsGenerator : List Nat := ((upTo 0 4).foldl (fun p i => polyTimes p (gfAlpha i)) [1]).drop 1

/-- R501: the four check bytes of a payload, its first byte being the highest power. -/
def rsCheck (p : List Byte) : List Byte :=
  (p.foldl (fun r b =>
    let f := b.toNat ^^^ r.headD 0
    List.zipWith (· ^^^ ·) (r.drop 1 ++ [0]) (rsGenerator.map (gfMul f))) [0, 0, 0, 0]).map (BitVec.ofNat 8)

/-- R501: the stored codeword of a sector. -/
def codeword (tag : Nat) (bs : List Byte) : List Byte :=
  let p := sectorPayload tag bs
  p ++ rsCheck p

/-- The value of a codeword at a point. -/
def rsAt (c : List Byte) (x : Nat) : Nat := c.foldl (fun a b => gfMul a x ^^^ b.toNat) 0

def flipAt (c : List Byte) (i : Nat) (e : Nat) : List Byte := c.set i (c.getD i 0 ^^^ BitVec.ofNat 8 e)

/-- The error at one place, or at two places i < j of a codeword of length n, that explains the syndromes. -/
def rsPair (n : Nat) (sy : List Nat) (i j : Nat) : Option (Nat × Nat) :=
  let x := gfAlpha (n - 1 - i); let y := gfAlpha (n - 1 - j)
  let s0 := sy.getD 0 0; let s1 := sy.getD 1 0
  let e2 := if i = j then 0 else gfMul (s1 ^^^ gfMul x s0) (gfInv (x ^^^ y))
  let e1 := s0 ^^^ e2
  let fits (k : Nat) (v : Nat) : Bool :=
    (gfMul e1 ((upTo 0 k).foldl (fun a _ => gfMul a x) 1) ^^^ gfMul e2 ((upTo 0 k).foldl (fun a _ => gfMul a y) 1)) == v
  if fits 1 s1 && fits 2 (sy.getD 2 0) && fits 3 (sy.getD 3 0) then some (e1, e2) else none

/-- R501: what the decoder makes of a stored codeword: the codeword and whether it was corrected; none where no codeword differs from it
in at most two symbols. -/
def rsDecode (c : List Byte) : Option (List Byte × Bool) :=
  let n := c.length
  let sy := (upTo 0 4).map fun i => rsAt c (gfAlpha i)
  if sy.all (· == 0) then some (c, false)
  else ((upTo 0 n).findSome? fun i => (upTo i (n - i)).findSome? fun j =>
    (rsPair n sy i j).map fun e => flipAt (if i = j then c else flipAt c j e.2) i e.1).map (·, true)

end Sys2Proof.Machine
end

