-- ==== Sys2Proof/Machine/Ops.lean ====
section
/-!
DEFINITION. The named operations over the state: address spaces, translation and access checks, the L2, loads and stores,
registers, and taking a fault.
-/

namespace Sys2Proof.Machine

/-! ## Keys of the address spaces -/

def padKey (core off : Nat) : Nat := 2 ^ 52 + core * 2 ^ 21 + off
def chipKey (off : Nat) : Nat := 2 ^ 53 + off
def laneKey (core lane off : Nat) : Nat := 2 ^ 54 + core * 2 ^ 17 + lane * 1024 + off
def operandKey (core off : Nat) : Nat := 2 ^ 55 + core * 2 ^ 19 + off
def ramKey (ctl off : Nat) : Nat := 2 ^ 56 + ctl * 2 ^ 18 + off

/-- A device register of a controller's local map has a key of its own, for the line that it lies in (R152). -/
def regKey (ctl off : Nat) : Nat := 2 ^ 57 + ctl * 2 ^ 21 + off

def isPadKey (k : Nat) : Bool := decide (2 ^ 52 ≤ k) && decide (k < 2 ^ 52 + 1536 * 2 ^ 21)
def padCore (k : Nat) : Nat := (k - 2 ^ 52) / 2 ^ 21
def padOff (k : Nat) : Nat := (k - 2 ^ 52) % 2 ^ 21
def isChipKey (k : Nat) : Bool := decide (2 ^ 53 ≤ k) && decide (k < 2 ^ 53 + 2 ^ 28)

/-! ## Slots, cores, streams -/

def jobSlots : Nat := 3072

/-- The slot number of a core's firmware context. -/
def fwSlot (core : Nat) : Nat := 3072 + core

/-- The slot number of an embedded controller (R511): 0 to 3 class 0, 4 class 1, 5 to 20 class 2, 21 class 3,
22 class 4. -/
def ctlSlot (n : Nat) : Nat := 4608 + n

def isJob (slot : Nat) : Bool := decide (slot < 3072)
def isFw (slot : Nat) : Bool := decide (3072 ≤ slot) && decide (slot < 4608)
def isCtl (slot : Nat) : Bool := decide (4608 ≤ slot)

/-- The core that a slot belongs to; 1536 for a controller's, which belongs to none. -/
def slotCore (slot : Nat) : Nat := if slot < 3072 then slot / 2 else if slot < 4608 then slot - 3072 else 1536

/-- A core right after reset: FW.SEL names the core itself (R459). -/
def coreReset (c : Nat) : Core := { fw := { sel := BitVec.ofNat 64 (c % 96) } }

def State.slot (s : State) (n : Nat) : Slot := sget s.slots {} n
def State.setSlot (s : State) (n : Nat) (v : Slot) : State := { s with slots := sput s.slots n v }
def State.core (s : State) (c : Nat) : Core := sget s.cores (coreReset c) c
def State.setCore (s : State) (c : Nat) (v : Core) : State := { s with cores := sput s.cores c v }
def State.modSlot (s : State) (n : Nat) (f : Slot → Slot) : State := s.setSlot n (f (s.slot n))
def State.modCore (s : State) (c : Nat) (f : Core → Core) : State := s.setCore c (f (s.core c))

def Slot.stream (t : Slot) : StreamId → Stream
  | .a => t.a | .m => t.m | .v => t.v

def Slot.setStream (t : Slot) (k : StreamId) (v : Stream) : Slot :=
  match k with
  | .a => { t with a := v } | .m => { t with m := v } | .v => { t with v := v }

def State.stream (s : State) (g : Agent) : Stream := (s.slot g.slot).stream g.st
def State.setStream (s : State) (g : Agent) (v : Stream) : State := s.modSlot g.slot (·.setStream g.st v)
def State.modStream (s : State) (g : Agent) (f : Stream → Stream) : State := s.setStream g (f (s.stream g))

/-- The agent whose bundle is at hand. -/
def State.me (s : State) : Agent := s.issue.agent
def State.mySlot (s : State) : Slot := s.slot s.issue.agent.slot
def State.myCore (s : State) : Nat := slotCore s.issue.agent.slot
def State.modMySlot (s : State) (f : Slot → Slot) : State := s.modSlot s.issue.agent.slot f
def State.myStream (s : State) : Stream := s.stream s.issue.agent
def State.modMyStream (s : State) (f : Stream → Stream) : State := s.modStream s.issue.agent f

/-- R60: the slot as the words of the bundle read it. -/
def State.readSlot (s : State) : Slot :=
  match s.issue.view with
  | some v => v.slot
  | none => s.mySlot

def State.readStream (s : State) : Stream := s.readSlot.stream s.issue.agent.st

/-! ## Fault codes (R471) -/

namespace Code
def illegalOp : Nat := 0x01
def illegalStream : Nat := 0x02
def illegalBundle : Nat := 0x03
def privilege : Nat := 0x04
def brk : Nat := 0x05
def software : Nat := 0x06
def misalign : Nat := 0x08
def misalignAttr : Nat := 0x09
def space : Nat := 0x0A
def page : Nat := 0x0B
def accessDenied : Nat := 0x0C
def permission : Nat := 0x0D
def ringProtocol : Nat := 0x10
def slotProtocol : Nat := 0x11
def semOverflow : Nat := 0x13
def formatInvalid : Nat := 0x14
def nestInvalid : Nat := 0x15
def tileType : Nat := 0x16
def attachMiss : Nat := 0x18
def segConflict : Nat := 0x19
def segQuota : Nat := 0x1A
def fabricTimeout : Nat := 0x20
def fabricUnreachable : Nat := 0x21
def reduceTimeout : Nat := 0x22
def residueMismatch : Nat := 0x23
def remoteDenied : Nat := 0x24
def uncorrectable : Nat := 0x28
def uncontained : Nat := 0x29
def rollback : Nat := 0x2A
def rampViolation : Nat := 0x30
def watchdog : Nat := 0x31
def coschedule : Nat := 0x33
end Code

def trapOf (code sub : Nat) (fa : Word := 0) : Trap := { code := code, sub := BitVec.ofNat 64 sub, faddr := fa }

/-! ## Requesters, Hedge tables, physical memory -/

/-- What an access needs (R507): R, W, both, or, for a fetch, R and the page's X. -/
inductive Acc where
  | r | w | rw | x
deriving DecidableEq, Repr

def Acc.reads : Acc → Bool | .w => false | _ => true
def Acc.writes : Acc → Bool | .w => true | .rw => true | _ => false

def Req.master (r : Req) : Nat := r.ctx * 16 + r.cls

/-- R507: the block size of a target. -/
def blockSize (target : Nat) : Nat := if target = 22 ∨ target = 23 then 4096 else 65536

/-- R507, R509: the lowest-numbered window that holds a block; bounds that have not been written are 0 to 0. -/
def windowOf (ws : Sparse (Nat × Nat)) (block : Nat) : Option Nat :=
  (upTo 0 16).find? fun w => let b := sget ws (0, 0) w; decide (b.1 ≤ block) && decide (block ≤ b.2)

/-- R508: an entry that no write has touched: that of unit class 15 allows everything, and any other denies everything. -/
def HedgeTable.untouched (t : HedgeTable) (master : Nat) : Bool := master % 16 == 15 && (sfind t.perms master).isNone

/-- R507: the permission bits of a master's entry. -/
def HedgeTable.entry (t : HedgeTable) (master : Nat) : BitVec 32 :=
  if t.untouched master then BitVec.allOnes 32 else sget t.perms 0 master

/-- R506 to R508: whether a target's table lets a master make an access at an address of the target. -/
def hedgeOk (s : State) (target master : Nat) (acc : Acc) (addr : Nat) : Bool :=
  let t := sget s.hedge.tables {} target
  t.untouched master ||
    match windowOf t.windows (addr / blockSize target) with
    | none => false
    | some w => (!acc.reads || bit (t.entry master) (2 * w)) && (!acc.writes || bit (t.entry master) (2 * w + 1))

/-- R508: the management plane, to which alone the registers of R509 answer. -/
def hedgeMaster (m : Master) : Bool := m.toNat % 16 == 15

/-- Whether a master may write the BAR0 register space (R507, R508). -/
def barWritable (s : State) (m : Master) (off : Nat) : Bool := hedgeOk s 22 m.toNat .w off

/-- R537: the target of a physical address, its address there, and whether only class 15 may reach it; none where no
row of the map holds it. A CXL address beyond the device's capacity is denied (R539). -/
def physTarget (s : State) (a : Nat) : Option (Nat × Nat × Bool) :=
  if a < 2 ^ 40 then
    let st := a / 2 ^ 36
    let o := a % 2 ^ 36
    if o < 0xA40000000 then some (st, a, false) else if o < 0xC00000000 then some (st, a, true) else none
  else if a < 2 ^ 40 + 4 * 2 ^ 39 then
    let p := (a - 2 ^ 40) / 2 ^ 39
    if (a - 2 ^ 40) % 2 ^ 39 < (sget s.cxl {} p).size * 2 ^ 30 then some (16 + p, a, false) else none
  else if 2 ^ 51 ≤ a ∧ a < 2 ^ 52 then some (26, a - 2 ^ 51, false)
  else none

/-- Whether a master may make an access at a physical address (R506, R507, R537). -/
def physOk (s : State) (master : Nat) (acc : Acc) (a : Nat) : Bool :=
  match physTarget s a with
  | none => false
  | some (t, ta, only15) => (!only15 || master % 16 == 15) && hedgeOk s t master acc ta

/-- HBM data, which the undo log and the L2 cover (R488). -/
def isHbm (a : Nat) : Bool := decide (a < 2 ^ 40) && decide (a % 2 ^ 36 < 0xA40000000)
def isCxl (a : Nat) : Bool := decide (2 ^ 40 ≤ a) && decide (a < 2 ^ 40 + 4 * 2 ^ 39)

/-! ## Channels (R518) -/

/-- R518: the channel (32 × stack + c) of an HBM address. -/
def chanOf (a : Nat) : Nat := 32 * (a / 2 ^ 36) + ((a / 256 % 32) ^^^ (a / 8192 % 32))

/-- R518: whether every channel that a run of bytes lies in takes requests. -/
def chanReady (s : State) (a n : Nat) : Bool :=
  if a < 2 ^ 40 then
    (unitsOf 256 a n).all fun u =>
      let c := sget s.chans {} (chanOf (256 * u))
      c.online && !c.holding
  else true

/-- Whether the L2 holds a line. -/
def heldInL2 (s : State) (line : Nat) : Bool := s.l2tags.any fun e => e.2.any (·.line == line)

/-- R502: a run of bytes lies in a sector, out of the L2, whose stored codeword has changed and which the stack has yet to read: the
access waits for the stack's read, a turn of its own (log 166). -/
def marred (s : State) (a n : Nat) : Bool :=
  s.damage != [] && (unitsOf 32 a n).any fun u => (sfind s.damage u).isSome && !heldInL2 s (u / 4)

/-- R518, R502: a run of bytes can be read now. -/
def readReady (s : State) (a n : Nat) : Bool := chanReady s a n && !marred s a n

/-- A run of bytes can be accessed now: a write reads the sectors that it covers in part alone. -/
def accReady (s : State) (acc : Acc) (a n : Nat) : Bool :=
  chanReady s a n &&
    (if acc.reads then !marred s a n
     else !marred s a (min n ((32 - a % 32) % 32)) && !marred s ((a + n) / 32 * 32) (min n ((a + n) % 32)))

/-- R488: where the `k`-th undo-log entry of a stack lies. -/
def undoAt (stack k : Nat) : Nat := stack * 2 ^ 36 + 0xA40000000 + k % (2 ^ 30 / 144) * 144

/-- R488: a write of a line adds an entry to its stack's undo log. -/
def logs (s : State) (line : Nat) : Bool :=
  s.ckpt.logging && isHbm line && !s.ckpt.undo.any fun e => e.line == line && e.interval == s.ckpt.current

/-- R518: the channels of the undo-log entries that a write of a run of bytes adds take requests. -/
def logReady (s : State) (a n : Nat) : Bool :=
  let new := (unitsOf 128 a n).filter fun l => logs s (128 * l)
  (upTo 0 new.length).all fun i => chanReady s (undoAt (a / 2 ^ 36) (sget s.ckpt.logNext 0 (a / 2 ^ 36) + i)) 144

/-- The mark of an access that waits: no fault; the access is made again later (R502, R518). -/
def stall : Trap := trapOf 0 0

/-! ## Translation (R333, R334, R340) -/

/-- What a walk finds: the physical address of the byte, the page's size, attribute, layout and rights. -/
structure Leaf where
  pa     : Nat
  size   : Nat
  attr   : Nat
  layout : Nat
  r      : Bool
  w      : Bool
  x      : Bool
  comp   : Bool := false
deriving DecidableEq, Repr

def memNat (s : State) (k n : Nat) : Nat := bytesNat (readBytes s.mem k n)

/-- R497, R540: a run of bytes holds data whose check fails: a unit of 8 bytes, a line of the L2 under a mark, or a CXL range whose
link is down. -/
def badAt (s : State) (a n : Nat) : Bool :=
  (s.poison != [] && (unitsOf 8 a n).any (s.poison.contains ·)) ||
    (s.badLines != [] && (unitsOf 128 a n).any (s.badLines.contains ·)) ||
    (isCxl a && !(sget s.cxl {} ((a - 2 ^ 40) / 2 ^ 39)).linkup)

/-- A walk or a fetch that reads data whose check fails: the access that it serves consumes it (R497, R499; log 167). -/
def badRead : Trap := trapOf Code.uncontained 1

/-- Sub-codes of PAGE (R351). -/
def pageNotValid : Nat := 1
def pageBadEntry : Nat := 2
def pageNoRoot : Nat := 3

/-- R340: the page's layout entry must be one that the L2 accepts. -/
def layoutOk (s : State) (ctx n : Nat) : Bool :=
  n == 0 ||
    (let e := memNat s (s.ctxbase.toNat + 256 * ctx + 8 * n) 8
     e / 2 ^ 48 % 2 ^ 16 != 0 && decide (e / 2 ^ 42 % 8 ≤ 4))

/-- R334: a leaf entry at a level, for an offset within its page. -/
def leafOf (s : State) (ctx e lvl va : Nat) : Except Trap Leaf :=
  let size := 2 ^ (16 + 13 * (3 - lvl))
  let pa := e / 2 ^ 16 % 2 ^ 36 * 2 ^ 16
  if pa % size ≠ 0 ∨ !layoutOk s ctx (e / 2 ^ 8 % 16) then .error (trapOf Code.page pageBadEntry)
  else .ok { pa := pa + va % size, size := size, attr := e / 32 % 8, layout := e / 256 % 16,
             r := e / 4 % 2 == 1, w := e / 8 % 2 == 1, x := e / 16 % 2 == 1, comp := e / 4096 % 2 == 1 }

/-- R333, R334: one level of the walk and those below it. Each read of an entry is checked at its target. -/
def walkFrom (s : State) (ctx master va : Nat) : Nat → Nat → Except Trap Leaf
  | 0, _ => .error (trapOf Code.page pageBadEntry)
  | n + 1, t =>
    let lvl := 3 - n
    let a := t + 8 * (va / 2 ^ (16 + 13 * n) % 2 ^ 13)
    if !physOk s master .r a then .error (trapOf Code.accessDenied 0)
    else if !readReady s a 8 then .error stall
    else if badAt s a 8 then .error badRead
    else
      let e := memNat s a 8
      if e % 2 = 0 then .error (trapOf Code.page pageNotValid)
      else if e / 2 ^ 52 ≠ 0 ∨ e / 2 ^ 13 % 8 ≠ 0 ∨ 4 ≤ e / 32 % 8 then .error (trapOf Code.page pageBadEntry)
      else if e / 2 % 2 = 1 then leafOf s ctx e lvl va
      else if e / 4 % 2 ^ 11 ≠ 0 then .error (trapOf Code.page pageBadEntry)
      else walkFrom s ctx master va n (e / 2 ^ 16 % 2 ^ 36 * 2 ^ 16)

/-- R333: the walk of a context's tables for a virtual address. -/
def walk (s : State) (ctx master va : Nat) : Except Trap Leaf :=
  let c := s.ctxbase.toNat + 256 * ctx
  if !physOk s master .r c then .error (trapOf Code.accessDenied 0)
  else if !readReady s c 8 then .error stall
  else if badAt s c 8 then .error badRead
  else
    let root := memNat s c 8
    if root % 2 = 0 then .error (trapOf Code.page pageNoRoot)
    else walkFrom s ctx master va 3 (root / 2 ^ 16 % 2 ^ 36 * 2 ^ 16)

/-- R333: the addresses of the entries that a walk reads from a table on. -/
def walkFromReads (s : State) (va : Nat) : Nat → Nat → List Nat
  | 0, _ => []
  | n + 1, t =>
    let a := t + 8 * (va / 2 ^ (16 + 13 * n) % 2 ^ 13)
    let e := memNat s a 8
    a :: (if e % 2 = 0 ∨ e / 2 % 2 = 1 then [] else walkFromReads s va n (e / 2 ^ 16 % 2 ^ 36 * 2 ^ 16))

/-- R333: the addresses that a walk reads. -/
def walkReads (s : State) (ctx va : Nat) : List Nat :=
  let c := s.ctxbase.toNat + 256 * ctx
  let root := memNat s c 8
  c :: (if root % 2 = 0 then [] else walkFromReads s va 3 (root / 2 ^ 16 % 2 ^ 36 * 2 ^ 16))

/-- R336: the translation of a context's address that a TLB holds. -/
def tlbFind (l : Sparse TlbEntry) (ctx va : Nat) : Option Leaf :=
  (l.find? fun e => e.2.ctx == ctx && decide (e.2.base ≤ va) && decide (va < e.2.base + e.2.size)).map fun e =>
    { pa := e.2.pa + (va - e.2.base), size := e.2.size, attr := e.2.attr, layout := e.2.layout, r := e.2.r, w := e.2.w, x := e.2.x, comp := e.2.comp }

/-- R336: what the TLBs of a core and of its cluster hold for an address; the hub's agents have none. -/
def tlbLookup (s : State) (r : Req) (va : Nat) : Option Leaf :=
  match r.core with
  | none => none
  | some c =>
    if 1 < r.cls then none
    else match tlbFind (sget s.tlb.cores [] c) r.ctx va with
      | some l => some l
      | none => tlbFind (sget s.tlb.clusters [] (c / 96)) r.ctx va

/-- R333, R336: the translation of a requester's address: what a TLB holds, else a walk. -/
def translate (s : State) (r : Req) (va : Nat) : Except Trap Leaf :=
  match tlbLookup s r va with
  | some l => .ok l
  | none => walk s r.ctx r.master va

/-- R336: a walk for a core's agent, whose result a TLB keeps at an index, in place of what stood there. -/
def fillTlb (s : State) (cluster : Bool) (unit index cls ctx va : Nat) : State :=
  match walk s ctx (ctx * 16 + cls) va with
  | .error _ => s
  | .ok l =>
    let e : TlbEntry := { ctx := ctx, base := va - va % l.size, size := l.size, pa := l.pa - va % l.size, attr := l.attr
                          layout := l.layout, r := l.r, w := l.w, x := l.x, comp := l.comp }
    if 1 < cls ∨ 4096 ≤ ctx ∨ 2 ^ 55 ≤ va then s
    else if cluster then
      if unit < 16 ∧ index < 4096 then { s with tlb := { s.tlb with clusters := sput s.tlb.clusters unit (sput (sget s.tlb.clusters [] unit) index e) } } else s
    else if unit < 1536 ∧ index < 128 then { s with tlb := { s.tlb with cores := sput s.tlb.cores unit (sput (sget s.tlb.cores [] unit) index e) } } else s

/-- Whether an entry translates a page of the range that TLBINV names. -/
def TlbEntry.inRange (e : TlbEntry) (t : Tlb) : Bool :=
  e.ctx == t.ctx && decide (e.base < (t.va + t.pages) * 2 ^ 16) && decide (t.va * 2 ^ 16 < e.base + e.size)

/-- R337: no TLB holds a translation of the range any more, and BUSY clears. -/
def Tlb.invalidated (t : Tlb) : Tlb :=
  let keep (l : Sparse TlbEntry) : Sparse TlbEntry := l.filter fun e => !e.2.inRange t
  { t with busy := false, cores := t.cores.map fun e => (e.1, keep e.2), clusters := t.clusters.map fun e => (e.1, keep e.2) }

/-! ## Addresses to bytes (R327 to R332, R349) -/

/-- A run of bytes of one block: where it lies, and, of virtual memory, the attribute and layout of its page, the context and the
address in it. -/
structure Piece where
  key    : Nat
  len    : Nat
  attr   : Nat := 0
  layout : Nat := 0
  comp   : Bool := false
  ctx    : Nat := 0
  va     : Nat := 0
deriving DecidableEq, Repr

/-- The bytes of a cluster's share of each member core (R330). -/
def shareBytes (s : State) (cluster : Nat) : Nat := (sget s.shares {} cluster).share * 2 ^ 19

/-- Whether an offset of a level's space lies in the run of a RESIDENT tarn. -/
def inTarn (t : Tarn) (level home off : Nat) : Bool :=
  t.level == level && t.home == home && t.state == .resident && decide (t.run ≤ off) &&
    decide (off < t.run + t.size * 65536)

/-- R374, R377: whether an offset of a level's space lies in storage that a tarn holds: its run, or the one that it moves from. -/
def Tarn.holdsAt (t : Tarn) (level home off : Nat) : Bool :=
  let at_ (h r : Nat) : Bool := h == home && decide (r ≤ off) && decide (off < r + t.size * 65536)
  t.level == level && ((t.state != .evicted && at_ t.home t.run) || (match t.moveFrom with | some (h, r) => at_ h r | none => false))

/-- The tarn whose storage holds an offset of a level's space. -/
def tarnAt (s : State) (level home off : Nat) : Option Tarn := s.tarns.find? (·.holdsAt level home off)

/-- R189: what a job's attachments let it do in a tarn's storage, at an offset of its level's space: the fault, or none. A write to a
unit that a close has yet to copy waits (R384). -/
def tarnCheck (s : State) (slot : Nat) (t : Tarn) (acc : Acc) (fa : Word) (off n : Nat) : Option Trap :=
  let sl := s.slot slot
  let held := if sl.ctx = t.ctx then sl.attach.filter (·.name == t.name) else []
  if held = [] then some (trapOf Code.space 0 fa)
  else if acc.writes && !held.any (·.writer) then some (trapOf Code.permission 0 fa)
  else if acc.writes && t.cleaning != [] && (unitsOf 65536 (off - t.run) n).any (fun u => (sfind t.cleaning u).isSome) then some stall
  else none

/-- The number of bytes from an address to the end of the block that is resolved as one. -/
def chunkLeft (s : State) (r : Req) (addr : Nat) : Nat :=
  match addr / 2 ^ 60 with
  | 8 => match r.slot with
    | some n => 65536 - ((s.slot n).partStart + addr) % 65536
    | none => 65536 - addr % 65536
  | 9 => 4096 - addr % 4096
  | _ => 65536 - addr % 65536

/-- R328: own core scratchpad; a job reaches its part and the tarns it holds attached. -/
def resolvePad (s : State) (r : Req) (acc : Acc) (fa : Word) (o n : Nat) : Except Trap Piece :=
  match r.core, r.slot with
  | some c, some sl =>
    let t := s.slot sl
    let off := (t.partStart + o) % 2 ^ 21
    if t.partStart ≤ off ∧ off + n ≤ t.partStart + t.partLen then .ok { key := padKey c off, len := n }
    else if 2 ^ 21 - shareBytes s (c / 96) < off + n then .error (trapOf Code.space 0 fa)
    else match tarnAt s 0 c off with
      | some tn => match tarnCheck s sl tn acc fa off n with
        | some f => .error f
        | none => .ok { key := padKey c off, len := n }
      | none => .error (trapOf Code.space 0 fa)
  | _, _ => .error (trapOf Code.space 0 fa)

/-- R331: cluster-shared memory, with the attachment check of R189. -/
def resolveShared (s : State) (r : Req) (acc : Acc) (fa : Word) (o n : Nat) : Except Trap Piece :=
  match r.core with
  | none => .error (trapOf Code.space 0 fa)
  | some c =>
    let cl := c / 96
    let g := o / 4096
    let off := 2 ^ 21 - shareBytes s cl + 4096 * (g / 96) + o % 4096
    if 96 * shareBytes s cl ≤ o then .error (trapOf Code.space 0 fa)
    else match tarnAt s 1 cl o, r.slot with
      | some tn, some sl => match tarnCheck s sl tn acc fa o n with
        | some f => .error f
        | none => .ok { key := padKey (96 * cl + g % 96) off, len := n }
      | some _, none => .error (trapOf Code.space 0 fa)
      | none, _ => .ok { key := padKey (96 * cl + g % 96) off, len := n }

/-- R332: the chip scratchpad, under the Hedge table of target 20 (log 12) and the attachment check of R189. -/
def resolveChip (s : State) (r : Req) (acc : Acc) (fa : Word) (o n : Nat) : Except Trap Piece :=
  if !hedgeOk s 20 r.master acc o then .error (trapOf Code.accessDenied 0 fa)
  else match tarnAt s 2 0 o, r.slot with
    | some tn, some sl => match tarnCheck s sl tn acc fa o n with
      | some f => .error f
      | none => .ok { key := chipKey o, len := n }
    | some _, none => .error (trapOf Code.space 0 fa)
    | none, _ => .ok { key := chipKey o, len := n }

/-- R128, R333 to R336: a virtual address of the requester's context. -/
def resolveVirtual (s : State) (r : Req) (acc : Acc) (fa : Word) (va n : Nat) : Except Trap Piece :=
  match translate s r va with
  | .error t => .error { t with faddr := fa }
  | .ok l =>
    if (acc.reads && acc != .x && !l.r) || (acc.writes && !l.w) || (acc == .x && !l.x) then
      .error (trapOf Code.permission 0 fa)
    else if !physOk s r.master acc l.pa then .error (trapOf Code.accessDenied 0 fa)
    else if !accReady s acc l.pa n ∨ (acc.writes ∧ !logReady s l.pa n) then .error stall
    else .ok { key := l.pa, len := n, attr := l.attr, layout := l.layout, comp := l.comp, ctx := r.ctx, va := va }

/-- The two contexts of controller `n` are numbered n and n + 32. -/
def State.ctl (s : State) (n : Nat) : Ctl := sget s.ctls {} n
def State.setCtl (s : State) (n : Nat) (c : Ctl) : State := { s with ctls := sput s.ctls n c }
def Ctl.activeCtx (c : Ctl) (n : Nat) : Nat := if c.secondRuns then n + 32 else n

/-- A device register of a controller's local map. -/
inductive LocalReg where
  | updsig
  | chan (c off : Nat)
deriving DecidableEq, Repr

/-- R513: whose map an address belongs to, and the address there: the management controller reaches the map of sequencer s at
0x1000_0000 × (s + 1) of its own (log 41). -/
def mapOwner (s : State) (cn addr : Nat) : Nat × Nat :=
  let k := addr / 2 ^ 28
  if cn % 32 = 22 ∧ 1 ≤ k ∧ k ≤ 16 then ((s.ctl (4 + k)).activeCtx (4 + k), addr % 2 ^ 28) else (cn, addr)

/-- R513: the register that holds an address of a context's own map; the map of the other classes is a sequencer's without
channels (log 41). -/
def localReg (cn addr : Nat) : Option LocalReg :=
  let n := cn % 32
  if addr / 8 = 0x80000 / 8 then some .updsig
  else if 5 ≤ n ∧ n ≤ 20 ∧ 0x100000 ≤ addr ∧ addr < 0x120000 then
    some (.chan (32 * (n - 5) + (addr - 0x100000) / 4096) (addr % 4096 / 8 * 8))
  else none

/-- R513: the register that a controller's access reaches; the management controller reaches a sequencer's channels, not its
UPDSIG. -/
def reachedReg (s : State) (cn addr : Nat) : Option LocalReg :=
  let (n, a) := mapOwner s cn addr
  match localReg n a with
  | some .updsig => if n = cn then some .updsig else none
  | r => r

/-- R513: what a controller's address reaches: local RAM, or a device register, within its 8 bytes; all else is SPACE. -/
def resolveLocal (s : State) (cn : Nat) (fa : Word) (addr len : Nat) : Except Trap Piece :=
  let (n, a) := mapOwner s cn addr
  if a + len ≤ 2 ^ 18 then .ok { key := ramKey n a, len := len }
  else if (reachedReg s cn addr).isSome ∧ a % 8 + len ≤ 8 then .ok { key := regKey (n % 32) a, len := len, attr := 3 }
  else .error (trapOf Code.space 0 fa)

/-- R327: the bytes of one block, by the space that bits 63:60 select. -/
def resolveChunk (s : State) (r : Req) (acc : Acc) (fa : Word) (addr n : Nat) : Except Trap Piece :=
  match r.ctl with
  | some c => resolveLocal s c fa addr n
  | none =>
    let o := addr % 2 ^ 60
    match addr / 2 ^ 60 with
    | 0 => if 2 ^ 55 ≤ o then .error (trapOf Code.space 0 fa) else resolveVirtual s r acc fa o n
    | 8 => if 2 ^ 21 ≤ o then .error (trapOf Code.space 0 fa) else resolvePad s r acc fa o n
    | 9 => if 2 ^ 27 ≤ o then .error (trapOf Code.space 0 fa) else resolveShared s r acc fa o n
    | 10 => if 2 ^ 28 ≤ o then .error (trapOf Code.space 0 fa) else resolveChip s r acc fa o n
    | _ => .error (trapOf Code.space 0 fa)

/-- The pieces of `n` bytes from an address (modulo 2^64), at most `fuel` of them; the first fault in address order. -/
def resolveFuel (s : State) (r : Req) (acc : Acc) (fa : Word) : Nat → Nat → Nat → Except Trap (List Piece)
  | 0, _, _ => .ok []
  | fuel + 1, addr, n =>
    if n = 0 then .ok []
    else
      let a := addr % 2 ^ 64
      let k := min n (chunkLeft s r a)
      match resolveChunk s r acc fa a k with
      | .error t => .error t
      | .ok p => (resolveFuel s r acc fa fuel (a + k) (n - k)).map (p :: ·)

/-- The pieces of `n` bytes from an address. -/
def resolve (s : State) (r : Req) (acc : Acc) (fa : Word) (addr : Word) (n : Nat) : Except Trap (List Piece) :=
  resolveFuel s r acc fa (n / 4096 + 2) addr.toNat n

/-- R349: an access of one stream or engine: as `resolve`, and pages of different attribute or layout are
MISALIGN_ATTR. -/
def resolveAccess (s : State) (r : Req) (acc : Acc) (fa : Word) (addr : Word) (n : Nat) : Except Trap (List Piece) :=
  match resolve s r acc fa addr n with
  | .error t => .error t
  | .ok (p :: ps) =>
    if ps.all (fun q => q.attr == p.attr && q.layout == p.layout) then .ok (p :: ps)
    else .error (trapOf Code.misalignAttr 0 fa)
  | .ok [] => .ok []

/-! ## Reading -/

def pieceBytes (s : State) (p : Piece) : List Byte := readBytes s.mem p.key p.len
def piecesBytes (s : State) : List Piece → List Byte
  | [] => []
  | p :: ps => pieceBytes s p ++ piecesBytes s ps

/-- R129, R349: whether a run of bytes touches an empty line of a core scratchpad. -/
def touchesEmpty (s : State) (p : Piece) : Bool :=
  isPadKey p.key &&
    (let e := (s.core (padCore p.key)).empty
     e != [] && (unitsOf 128 (padOff p.key) p.len).any (e.contains ·))

/-- R497: whether the bytes of a piece hold data whose check fails. -/
def touchesPoison (s : State) (p : Piece) : Bool := badAt s p.key p.len

/-- R497: the runs, by offset and length, of the bytes of these pieces that lie in data whose check fails; the pieces begin at
offset `o`. -/
def badRuns (s : State) : Nat → List Piece → List (Nat × Nat)
  | _, [] => []
  | o, p :: ps =>
    let here := if !touchesPoison s p then [] else
      (unitsOf 8 p.key p.len).filterMap fun u =>
        let lo := max (8 * u) p.key
        let hi := min (8 * u + 8) (p.key + p.len)
        if touchesPoison s { key := lo, len := hi - lo } then some (o + (lo - p.key), hi - lo) else none
    here ++ badRuns s (o + p.len) ps

/-! ## Slices (R339, R340) -/

/-- R339: the slice of a physical address, by LAYOUT 0. -/
def sliceOf (a : Nat) : Nat :=
  (a / 2 ^ 7 ^^^ a / 2 ^ 14 ^^^ a / 2 ^ 21 ^^^ a / 2 ^ 28 ^^^ a / 2 ^ 35 ^^^ a / 2 ^ 42 ^^^ a / 2 ^ 49 % 8) % 128

/-- R340: the slice of a virtual address, by a layout entry. -/
def tileSlice (e va : Nat) : Nat :=
  let pitch := e / 2 ^ 48 % 2 ^ 16
  let t := (va % 2 ^ 55 + (2 ^ 55 - e % 2 ^ 39 * 2 ^ 16)) % 2 ^ 55 / 2 ^ (12 + e / 2 ^ 42 % 8)
  (t % pitch + 11 * (t / pitch)) % 128

/-- R339, R340: the slice of an access, by the layout of its page. -/
def sliceFor (s : State) (ctx layout va pa : Nat) : Nat :=
  if layout = 0 then sliceOf pa else tileSlice (memNat s (s.ctxbase.toNat + 256 * ctx + 8 * layout) 8) va

/-! ## The L2 (R335, R343, R344) -/

/-- The units of 8 bytes of a sector. -/
def sectorUnits (u : Nat) : List Nat := upTo (4 * u) 4

/-- R540: the CXL port of a sector whose link is down. -/
def downPort (s : State) (u : Nat) : Option Nat :=
  let p := (32 * u - 2 ^ 40) / 2 ^ 39
  if isCxl (32 * u) ∧ !(sget s.cxl {} p).linkup then some p else none

/-- R540: a write to a CXL port whose link is down is dropped, and counted. -/
def dropCxl (cxl : Sparse CxlPort) (p : Nat) : Sparse CxlPort :=
  let c := sget cxl {} p
  sput cxl p { c with drops := if c.drops = BitVec.allOnes 32 then c.drops else c.drops + 1 }

/-- R193, R343: dirty sectors are written back: memory holds what they hold. One whose channel takes no requests waits (R518), one of
a CXL port whose link is down is dropped (R540), and one of a line under a mark is written as a codeword that fails its check
(R497). -/
def cleanSectors (s : State) (p : Nat → Bool) : State :=
  let out := s.l2.filter fun e => p e.1
  let stays (e : Nat × BitVec 256) : Bool := (downPort s e.1).isNone
  { s with
    l2 := s.l2.filter fun e => !p e.1
    backs := (out.filter fun e => !chanReady s (32 * e.1) 32).map (·.1) ++ s.backs
    lost := (out.filter (!stays ·)).foldl (fun l e => if (sfind l e.1).isSome then l else sput l e.1 e.2) s.lost
    cxl := (out.filterMap fun e => downPort s e.1).foldl dropCxl s.cxl
    damage := s.damage.filter fun e => !out.any (·.1 == e.1)
    poison := (out.filter fun e => stays e && s.badLines.contains (e.1 / 4)).foldl
      (fun l e => (sectorUnits e.1).filter (!l.contains ·) ++ l) s.poison }

/-- Lines leave the L2, their dirty sectors written back. -/
def evictLines (s : State) (ls : List Nat) : State :=
  let s1 := cleanSectors s fun u => ls.contains (u / 4)
  { s1 with badLines := s1.badLines.filter fun l => !ls.contains l }

/-- R518: the write-backs that their channels take now are performed. -/
def performBacks (s : State) : State := { s with backs := s.backs.filter fun u => !chanReady s (32 * u) 32 }

/-- R343: the lowest enabled range that holds a line. -/
def rangeOf (s : State) (line : Nat) : Option Nat :=
  (upTo 0 16).find? fun n =>
    let r := sget s.ranges {} n
    bit r.ctl 0 && decide (bits r.base 16 36 ≤ line / 512) && decide (line / 512 ≤ bits r.limit 16 36)

/-- R343: an access that a range decides: whether it is retained, and the accumulators after it. -/
def rangeAccess (s : State) (by_ : Option Nat) : Option Nat × Sparse Nat :=
  match by_ with
  | none => (none, s.rangeAcc)
  | some n =>
    let a := sget s.rangeAcc 0 n + min 256 (bits (sget s.ranges {} n).ctl 7 9)
    (if 256 ≤ a then some n else none, sput s.rangeAcc n (a % 256))

/-- Whether an enabled range reserves a way. -/
def wayReserved (s : State) (w : Nat) : Bool :=
  (upTo 0 16).any fun n => bit (sget s.ranges {} n).ctl 0 && bit (sget s.ranges {} n).ctl (16 + w)

/-- R343: whether a fill, retained by a range or unretained, may use a way of a set. -/
def wayUsable (s : State) (set : List L2Line) (by_ : Option Nat) (w : Nat) : Bool :=
  match by_ with
  | some n => bit (sget s.ranges {} n).ctl (16 + w)
  | none => !wayReserved s w || !set.any fun l => l.way == w && l.range.isSome

/-- R343: the way that a fill takes: an invalid one, else that of the least recently used unretained line, else that of the
least recently used line. The set lists its lines with the most recently used first. -/
def chooseWay (s : State) (set : List L2Line) (by_ : Option Nat) : Option Nat :=
  let ws := (upTo 0 16).filter (wayUsable s set by_)
  match ws.find? fun w => !set.any (·.way == w) with
  | some w => some w
  | none =>
    match set.reverse.find? fun l => ws.contains l.way && l.range.isNone with
    | some l => some l.way
    | none => (set.reverse.find? fun l => ws.contains l.way).map (·.way)

/-- A set after a fill of a way; a streaming line is the next to go (R335). -/
def fillWay (set : List L2Line) (l : L2Line) (streaming : Bool) : List L2Line :=
  let rest := set.filter (·.way != l.way)
  if streaming then rest ++ [l] else l :: rest

/-- R343, R344: an access of a cached or streaming page that reaches a set of its slice: it decides about the line's range, and the
line becomes the most recently used of the set; a miss allocates the line, in the place of another, or, with no usable way, bypasses
the L2, so that what it wrote is at memory. -/
def l2Lookup (s : State) (key line : Nat) (streaming : Bool) : State :=
  let (kept, acc) := rangeAccess s (rangeOf s line)
  let set := sget s.l2tags [] key
  let hit := set.any (·.line == line)
  let way := chooseWay s set kept
  let gone := if hit then [] else match way with
    | none => [line]
    | some w => (set.filter (·.way == w)).map (·.line)
  let tags := if hit then sput s.l2tags key (set.filter (·.line == line) ++ set.filter (·.line != line))
    else match way with
      | none => s.l2tags
      | some w => sput s.l2tags key (fillWay set { way := w, line := line, range := kept } streaming)
  evictLines { s with l2tags := tags, rangeAcc := acc } gone

/-- R339: the number of a line's set among all, 1024 × slice + set; which set of its slice a line goes to is the implementation's
(log 123). -/
def lineSet (slice line : Nat) : Nat := 1024 * slice + Config.l2Set line % 1024

/-- R335: the lines of an access to memory reach their slices, as its page's attribute has it. -/
def l2Use (s : State) (p : Piece) : State :=
  if (isHbm p.key ∨ isCxl p.key) ∧ p.attr ≤ 1 then
    (unitsOf 128 p.key p.len).foldl (fun s l =>
      let va := p.va - p.va % 128 + 128 * (l - p.key / 128)
      l2Lookup s (lineSet (sliceFor s p.ctx p.layout va (128 * l)) l) l (p.attr == 1)) s
  else s

def l2Uses (s : State) (ps : List Piece) : State := ps.foldl l2Use s

/-- R333, R336: the reads of the walks of an access reach the L2, one walk for each block that no TLB translates. -/
def walked (s : State) (r : Req) (addr n : Nat) : State :=
  if r.ctl.isSome ∨ addr / 2 ^ 60 ≠ 0 then s
  else (unitsOf 65536 addr n).foldl (fun s u =>
    let va := max addr (65536 * u)
    if (tlbLookup s r va).isSome then s
    else (walkReads s r.ctx va).foldl (fun s a => l2Use s { key := a, len := 8 }) s) s

/-- R335, R343: what a read of these pieces does to the L2, with its walks. -/
def readUses (s : State) (r : Req) (addr n : Nat) (ps : List Piece) : State := l2Uses (walked s r addr n) ps

/-- R335, R343: a read of an engine, or of the hub, reaches the L2. -/
def readied (s : State) (r : Req) (addr : Word) (n : Nat) : State :=
  match resolve s r .r addr addr n with
  | .error _ => s
  | .ok ps => readUses s r addr.toNat n ps

/-! ## Hints (R341) -/

/-- R341: a hint that names another slice is counted. -/
def countHint (s : State) (cluster slice : Nat) (hint : Option Nat) : State :=
  match hint with
  | some h =>
    if h ≠ slice ∧ cluster < 16 then { s with tel := { s.tel with resteer := sput s.tel.resteer cluster (sget s.tel.resteer 0 cluster + 1) } }
    else s
  | none => s

/-- R341: the request of a copy or a port for a line of a tiled page carries a hint; which slice it names is free (log 3). -/
def hintLines (s : State) (cluster : Nat) (p : Piece) : State :=
  if p.layout = 0 ∨ 1 < p.attr then s
  else (unitsOf 128 p.key p.len).foldl (fun s l =>
    let va := p.va - p.va % 128 + 128 * (l - p.key / 128)
    countHint s cluster (sliceFor s p.ctx p.layout va (128 * l)) (some (Config.hintSlice p.ctx p.layout va % 128))) s

/-- R341: the requests of a copy or a port for these pieces. -/
def hinted (s : State) (cluster : Nat) (ps : List Piece) : State := ps.foldl (fun s p => hintLines s cluster p) s

/-! ## Writing -/

/-- R491: the share of a stack's log region that its uncommitted entries hold, in percent. -/
def stackFill (s : State) (stack : Nat) : Nat :=
  (s.ckpt.undo.filter (fun e => e.line / 2 ^ 36 == stack)).length * 14400 / 2 ^ 30

/-- R488, R491: the log entries of a write's lines that this interval has not written yet; a full log marks the open
interval unprotected and stops the logging. -/
def logLine (s : State) (line : Nat) : State :=
  if !logs s line then s
  else
    let e : UndoEntry := ⟨line, s.ckpt.current, BitVec.ofNat 1024 (memNat s line 128)⟩
    let k := line / 2 ^ 36
    let s1 := { s with ckpt := { s.ckpt with undo := e :: s.ckpt.undo, logNext := sput s.ckpt.logNext k (sget s.ckpt.logNext 0 k + 1) } }
    if stackFill s1 k < 100 then s1
    else { s1 with ckpt := { s1.ckpt with
      logging := false
      intervals := s1.ckpt.intervals.map (fun i => if i.n = s1.ckpt.current then { i with unprot := true } else i) } }

def logLines (s : State) : List Nat → State
  | [] => s
  | l :: ls => logLines (logLine s (l * 128)) ls

/-- R335, R339: a cached write leaves its sectors dirty in the L2: what memory holds under them is kept. -/
def dirtySectors (s : State) (us : List Nat) : State :=
  { s with l2 := us.foldl (fun l u => if (sfind l u).isSome then l else sput l u (BitVec.ofNat 256 (memNat s (u * 32) 32))) s.l2 }

/-- R152, R183: a write to lines ends their reservations and marks the monitors that other agents hold on them. -/
def breakLines (s : State) (me : Option Agent) (lines : List Nat) : State :=
  let hit (g : Agent) (st : Stream) : Stream :=
    match st.monitor with
    | some mo => if me != some g && lines.contains mo.line then { st with monitor := some { mo with written := true } } else st
    | none => st
  let touch (n : Nat) (t : Slot) : Slot := { t with a := hit ⟨n, .a⟩ t.a, m := hit ⟨n, .m⟩ t.m, v := hit ⟨n, .v⟩ t.v }
  { s with
    resv := s.resv.filter (fun q => !lines.contains q.line)
    slots := s.slots.map (fun e => (e.1, touch e.1 e.2)) }

/-- R378: a write in a tarn's storage marks its units dirty. -/
def dirtyTarns (s : State) (p : Piece) : State :=
  let mark (t : Tarn) (off : Nat) : Tarn :=
    { t with dirty := (unitsOf 65536 (off - t.run) p.len).foldl (fun d u => if d.contains u then d else u :: d) t.dirty
             writtenIn := s.ckpt.current }
  let up (t : Tarn) : Tarn :=
    if isPadKey p.key then
      let c := padCore p.key
      let off := padOff p.key
      if t.level = 0 ∧ inTarn t 0 c off then mark t off
      else if t.level = 1 ∧ t.home = c / 96 ∧ 2 ^ 21 - shareBytes s (c / 96) ≤ off then
        let o := off - (2 ^ 21 - shareBytes s (c / 96))
        let v := ((o / 4096) * 96 + c % 96) * 4096 + o % 4096
        if inTarn t 1 (c / 96) v then mark t v else t
      else t
    else if isChipKey p.key ∧ t.level = 2 ∧ inTarn t 2 0 (p.key - 2 ^ 53) then mark t (p.key - 2 ^ 53)
    else t
  if s.tarns = [] then s else { s with tarns := s.tarns.map up }

/-- R484, R489: a core that writes is a writer of the open interval. -/
def noteWriter (s : State) (core : Option Nat) : State :=
  match core with
  | none => s
  | some c =>
    { s with ckpt := { s.ckpt with
        intervals := s.ckpt.intervals.map fun i =>
          if i.n = s.ckpt.current ∧ !i.writers.contains c then { i with writers := c :: i.writers } else i } }

/-- R497, R500: what a write covers whole holds good data again: a sector, a word of a scratchpad, a line of the L2 (log 88). -/
def healPoison (s : State) (p : Piece) : State :=
  let covers (u n : Nat) : Bool := decide (p.key ≤ u * n) && decide (u * n + n ≤ p.key + p.len)
  { s with
    poison := s.poison.filter fun u => !(if u * 8 < 2 ^ 52 then covers (u / 4) 32 else covers u 8)
    badLines := s.badLines.filter fun l => !covers l 128 }

/-- R500: the HBM sectors of a write are stored anew, under the COMP of the page that it went through; one that it covers whole is
stored without error. -/
def recode (s : State) (p : Piece) : State :=
  if (s.damage = [] ∧ s.comp = [] ∧ !p.comp) ∨ !isHbm p.key then s
  else
    let us := unitsOf 32 p.key p.len
    { s with
      damage := s.damage.filter fun e => !(decide (p.key ≤ e.1 * 32) && decide (e.1 * 32 + 32 ≤ p.key + p.len))
      comp := if p.comp then us.foldl (fun l u => if l.contains u then l else u :: l) s.comp else s.comp.filter fun u => !us.contains u }

/-- R497: a command that writes data whose check failed writes the poison on: a line of a scratchpad or of the L2 takes a mark, and a
sector that goes to memory a codeword that fails its check. A write that a link that is down drops marks nothing (R540). -/
def spreadPoison (s : State) (p : Piece) : State :=
  let mark (l : List Nat) (u : Nat) : List Nat := if l.contains u then l else u :: l
  if (downPort s (p.key / 32)).isSome then s
  else if 2 ^ 52 ≤ p.key then { s with poison := (unitsOf 128 p.key p.len).foldl (fun l u => (upTo (16 * u) 16).foldl mark l) s.poison }
  else
    let cached (l : Nat) : Bool := decide (p.attr ≤ 1) && heldInL2 s l
    { s with
      badLines := ((unitsOf 128 p.key p.len).filter cached).foldl mark s.badLines
      poison := ((unitsOf 32 p.key p.len).filter fun u => !cached (u / 4)).foldl (fun l u => (sectorUnits u).foldl mark l) s.poison }

/-- R497: marks what these runs, by offset and length, reach of these pieces, which begin at offset `o`. -/
def spreadRuns (s : State) (bad : List (Nat × Nat)) : Nat → List Piece → State
  | _, [] => s
  | o, p :: ps =>
    let mark (s : State) (b : Nat × Nat) : State :=
      let lo := max b.1 o
      let hi := min (b.1 + b.2) (o + p.len)
      if hi ≤ lo then s else spreadPoison s { p with key := p.key + (lo - o), len := hi - lo }
    spreadRuns (bad.foldl mark s) bad (o + p.len) ps

/-- R355: a write performs at its home: the bytes of one piece, with everything that a write does to the state around
them. A write to a CXL range whose link is down is dropped and counted (R540). -/
def writePiece (s : State) (r : Req) (p : Piece) (bs : List Byte) : State :=
  if p.len = 0 then s
  else if isCxl p.key ∧ !(sget s.cxl {} ((p.key - 2 ^ 40) / 2 ^ 39)).linkup then
    { s with cxl := dropCxl s.cxl ((p.key - 2 ^ 40) / 2 ^ 39) }
  else
    let s1 := if isHbm p.key then logLines s (unitsOf 128 p.key p.len) else s
    let s2 := if (isHbm p.key ∨ isCxl p.key) ∧ p.attr ≤ 1 then l2Use (dirtySectors s1 (unitsOf 32 p.key p.len)) p else s1
    let s3 := noteWriter (dirtyTarns (recode (healPoison s2 p) p) p) (if p.key < 2 ^ 54 then r.core else none)
    let s4 := breakLines s3 r.me (unitsOf 128 p.key p.len)
    { s4 with mem := writeBytes s4.mem p.key (bs.take p.len) }

/-- The bytes of an access go to its pieces in order. -/
def writePieces (s : State) (r : Req) : List Piece → List Byte → State
  | [], _ => s
  | p :: ps, bs => writePieces (writePiece s r p bs) r ps (bs.drop p.len)

/-- A whole write of an engine or of firmware: all of it, or its first fault. -/
def storeAll (s : State) (r : Req) (addr : Word) (bs : List Byte) : Except Trap State :=
  match resolve s r .w addr addr bs.length with
  | .error t => .error t
  | .ok ps => .ok (writePieces (walked s r addr.toNat bs.length) r ps bs)

/-- R518: an access that a turn makes waits for its channel. The turn as a whole has then not happened: `takeTurn` leaves it for a
later step (log 124). -/
def State.stall (s : State) : State := { s with stalls := s.stalls + 1 }

/-- A write that is not answered: one that faults is dropped, and one that a channel holds makes its turn wait. -/
def storeLater (s : State) (r : Req) (addr : Word) (bs : List Byte) : State :=
  match storeAll s r addr bs with
  | .ok s' => s'
  | .error t => if t.code = 0 then s.stall else s

/-- A whole read of an engine or of firmware, with the runs of it that lie in data whose check fails. -/
def loadAll (s : State) (r : Req) (addr : Word) (n : Nat) : Except Trap (List Byte × List (Nat × Nat)) :=
  match resolve s r .r addr addr n with
  | .error t => .error t
  | .ok ps => .ok (piecesBytes s ps, badRuns s 0 ps)

/-- As `loadAll`, with what the read does to the L2 (R335, R343). -/
def fetchAll (s : State) (r : Req) (addr : Word) (n : Nat) : Except Trap (State × List Byte × List (Nat × Nat)) :=
  (loadAll s r addr n).map fun x => (readied s r addr n, x)

/-- The master of a command processor's accesses for a queue's context (R506, class 2), of the graph engine (3), the
task queue (4). -/
def engineReq (cls ctx : Nat) : Req := { cls := cls, ctx := ctx }

/-- R506: the master of a slot's own accesses: a job's streams and engines are class 0 of the job's context; a
firmware context is class 1 of context 0xFFF (R458); a controller reaches its local map alone. -/
def slotReq (s : State) (n : Nat) : Req :=
  if n < 3072 then { cls := 0, ctx := (s.slot n).ctx, core := some (n / 2), slot := some n }
  else if n < 4608 then { cls := 1, ctx := 0xFFF, core := some (n - 3072) }
  else { cls := if n = 4608 + 22 then 15 else 5, ctx := 0, ctl := some (n - 4608) }

def agentReq (s : State) (g : Agent) : Req := { slotReq s g.slot with me := some g }
def myReq (s : State) : Req := agentReq s s.issue.agent

/-- The parted bundles of a slot's streams are over (R356). -/
def dropBegun (s : State) (n : Nat) : State := { s with begun := s.begun.filter (·.agent.slot != n) }

/-! ## Stored sectors (R502, R497) -/

/-- R500: the tag of an HBM sector. -/
def State.tagOf (s : State) (sector : Nat) : Nat :=
  if s.comp.contains sector then sectorTag (readBytes s.mem (32 * sector) 32) else 0

def countStack (s : State) (sector : Nat) (corrected : Bool) : State :=
  let k := 32 * sector / 2 ^ 36
  let inc (t : Sparse Nat) : Sparse Nat := sput t k (Nat.min (2 ^ 32 - 1) (sget t 0 k + 1))
  { s with tel := if corrected then { s.tel with corr := inc s.tel.corr } else { s.tel with uncorr := inc s.tel.uncorr } }

/-- R502: a stack reads a stored sector: it corrects it, writes it back and counts; or its data's check has failed (R497). -/
def sectorRead (s : State) (sector : Nat) : State :=
  if !isHbm (32 * sector) ∨ !chanReady s (32 * sector) 32 then s
  else if s.poison.contains (4 * sector) then countStack s sector false
  else match sfind s.damage sector with
    | none => s
    | some errs =>
      let tag := s.tagOf sector
      let s1 := { s with damage := sdel s.damage sector }
      match rsDecode (errs.foldl (fun c e => flipAt c e.1 e.2.toNat) (codeword tag (readBytes s.mem (32 * sector) 32))) with
      | none => countStack { s1 with poison := sectorUnits sector ++ s1.poison } sector false
      | some (c, fixed) =>
        let s2 := { s1 with mem := writeBytes s1.mem (32 * sector) (sectorBytes tag c) }
        if fixed then countStack s2 sector true else s2

/-- A cell error: in HBM a symbol of the stored sector changes by `e`; elsewhere a word of 8 bytes of an SRAM is bad past its SECDED (R497), or a CXL device returns a sector poisoned (R539). -/
def cellError (s : State) (unit pos : Nat) (e : Byte) : State :=
  let fresh (us : List Nat) : List Nat := us.filter (!s.poison.contains ·)
  if isHbm (32 * unit) then
    let n := (codeword (s.tagOf unit) (readBytes s.mem (32 * unit) 32)).length
    if n ≤ pos ∨ s.poison.contains (4 * unit) ∨ e = 0 then s
    else { s with damage := sput s.damage unit ((pos, e) :: sget s.damage [] unit) }
  else if isCxl (32 * unit) then { s with poison := fresh (sectorUnits unit) ++ s.poison }
  else if 32 * unit < 2 ^ 52 then s
  else { s with poison := fresh [4 * unit + pos % 4] ++ s.poison }

/-! ## Registers and predicates (R108, R110, R121, R60) -/

def State.readX (s : State) (i : BitVec 5) : Word := if i = 0 then 0 else s.readStream.x[i.toFin]

/-- R121: the physical predicate that a name means under the stream's RRB. -/
def physP (rrb : BitVec 8) (i : Nat) : Nat := if i < 8 then i else 8 + (i - 8 + 256 - rrb.toNat) % 8

def Stream.readP (t : Stream) (i : Nat) : BitVec 256 :=
  if i = 0 then BitVec.allOnes 256 else if i = 1 then 0 else t.p.getD (physP t.rrb i) 0

def State.readP (s : State) (i : BitVec 4) : BitVec 256 := s.readStream.readP i.toNat

/-- R69 of R55: lands a value in its register. -/
def Stream.land (t : Stream) : PendVal → Stream
  | .x n v => { t with x := t.x.setIfInBounds n v }
  | .p n v en => { t with p := t.p.setIfInBounds n ((t.p.getD n 0 &&& ~~~en) ||| (v &&& en)) }
  | .row _ _ _ => t

/-- A result of latency `lat`: written at once in an interlocked block (R53); in an exposed block it lands when its
stream has issued `lat` bundles, this one counted (R54). -/
def Stream.result (t : Stream) (lat : Nat) (v : PendVal) (flags : BitVec 5 := 0) : Stream :=
  if t.exposed then { t with pend := t.pend ++ [{ val := v, flags := flags, remain := lat }] } else t.land v

/-- R108: a write to X0 is discarded. -/
def State.writeX (s : State) (i : BitVec 5) (v : Word) (lat : Nat := 1) : State :=
  if i = 0 then s else s.modMyStream (·.result lat (.x i.toNat v))

/-- R121: writes to P0 and P1 are discarded. The name is taken under the RRB that the bundle's words read (R60). -/
def State.writeP (s : State) (i : Nat) (v en : BitVec 256) (lat : Nat := 1) : State :=
  if i ≤ 1 then s else s.modMyStream (·.result lat (.p (physP s.readStream.rrb i) v en))

/-- R62: a value of one bit, as the 256 equal bits of a predicate. -/
def spread (b : Bool) : BitVec 256 := if b then BitVec.allOnes 256 else 0

/-! ## Time -/

def us : Nat := 850

/-- R146: microseconds since a TICK. -/
def ageUs (s : State) (since : Nat) : Nat := (s.tick - since) / us

/-- R395: notes that a unit of a core did its work in this cycle: 0 an A stream or the firmware, 1 an M stream, 2 a V stream,
3 a k-step, 4 a tile operation or a retirement, 5 the copy engine, 6 the fabric engine. -/
def noteAct (s : State) (core kind : Nat) : State := s.modCore core fun c => { c with acts := sput c.acts kind s.tick }

/-- R395: a command of an engine runs in this cycle. -/
def noteEngine (s : State) (slot : Nat) (fq : Bool) : State := noteAct s (slotCore slot) (if fq then 6 else 5)

/-- An age tick of kind `k` (0 streams, 1 nest-queue entries, 2 records, 3 packets): at TICK multiples of 850, once each. -/
def ageTick (s : State) (k : Nat) (f : State → State) : State :=
  if s.tick % us = 0 ∧ sfind s.aged k ≠ some s.tick then f { s with aged := sput s.aged k s.tick } else s

/-! ## Trap records (R470) -/

def placeOf (slot : Nat) : BitVec 16 :=
  BitVec.ofNat 16 (slotCore slot % 96 + (if slot < 3072 then 128 * (slot % 2) else 0) + 256 * (slotCore slot / 96))

/-- R470: the LEAF field of a job's records. -/
def leafOfJob (t : TaskRec) : Word := if t.leafv then t.leaf.setWidth 64 else BitVec.allOnes 64

def TrapRec.bytes (r : TrapRec) : List Byte :=
  natBytes 1 r.code ++ natBytes 1 r.source ++ natBytes 1 (b2n r.async + 2 * b2n r.ended + 4 * b2n r.statusOnly) ++
  natBytes 1 0 ++ natBytes 4 r.launchid.toNat ++ natBytes 6 r.cmdidx.toNat ++ natBytes 2 r.place.toNat ++
  natBytes 8 r.pc.toNat ++ natBytes 4 r.repidx.toNat ++ natBytes 4 0 ++ natBytes 8 r.status.toNat ++
  natBytes 8 r.faddr.toNat ++ natBytes 8 r.leaf.toNat ++ natBytes 8 r.tick.toNat

def sourceOf : StreamId → Nat
  | .a => 0 | .m => 1 | .v => 2

/-- R470: the record of a fault that a stream's bundle raised. -/
def streamRecord (s : State) (g : Agent) (t : Trap) : TrapRec :=
  let sl := s.slot g.slot
  let st := sl.stream g.st
  { code := t.code, source := if isFw g.slot then 8 else sourceOf g.st
    launchid := sl.job.launchid, cmdidx := st.cmdidx, place := placeOf g.slot
    pc := t.pc.getD st.pc
    repidx := match st.blk with | some b => if t.pc = none then BitVec.ofNat 32 b.k else 0 | none => 0
    status := t.sub, faddr := t.faddr
    leaf := if isJob g.slot then leafOfJob sl.job else 0
    tick := BitVec.ofNat 64 s.tick }

/-! ## Launch fault areas (R295) -/

def State.launch (s : State) (n : Nat) : Option Launch := sfind s.launches n
def State.modLaunch (s : State) (n : Nat) (f : Launch → Launch) : State :=
  match sfind s.launches n with
  | some l => { s with launches := sput s.launches n (f l) }
  | none => s

/-- R295: counts a fault that is reported through a launch. -/
def countFault (s : State) (launch : Nat) (code : Nat) (statusOnly : Bool) : State :=
  s.modLaunch launch fun l =>
    { l with faults := l.faults + 1
             faultCode := if l.faults = 0 then code else l.faultCode
             failed := l.failed || !statusOnly }

/-- R295: writes a record to the next entry of the launch's fault area, and counts it. -/
def reportFault (s : State) (launch : Nat) (r : TrapRec) : State :=
  match s.launch launch with
  | none => s
  | some l =>
    let s1 := if l.written < l.faultCap then
        (storeLater s (engineReq 3 l.ctx) (l.faultArea + BitVec.ofNat 64 (64 * l.written)) r.bytes).modLaunch launch
          fun l => { l with written := l.written + 1 }
      else s
    countFault s1 launch r.code r.statusOnly

/-! ## Taking a fault (R69, R468, R472, R458, R512) -/

/-- R237: a stop or a trap that strikes a stream in a software-pipelined block forces its early epilogue, or lets the
block end when no iteration is left to begin. -/
def Stream.epilogue (t : Stream) : Stream :=
  match t.blk with
  | some b => if b.stg ∧ b.drain = none then
      { t with blk := some { b with drain := some (if b.k + 1 < b.n then b.k + 1 else b.n) } } else t
  | none => t

/-- The firmware's record of a trap (R472, R458): written at FW.TBASE + `off` in firmware space 0x0; a write that faults
leaves no record (log 21). -/
def writeTrapRecord (s : State) (core off : Nat) (r : TrapRec) : State :=
  let fw := (s.core core).fw
  storeLater s (slotReq s (fwSlot core)) (fw.tbase + BitVec.ofNat 64 off) r.bytes

/-- R463, R480: the STOP or KILL under way that acts on a slot, by whichever core's firmware, has a result. -/
def fwResult (s : State) (n code : Nat) : State :=
  { s with cores := s.cores.map fun e =>
      if e.2.fw.busy ∧ e.2.fw.target = n ∧ (e.2.fw.op = 1 ∨ e.2.fw.op = 3) then (e.1, { e.2 with fw := { e.2.fw with result := BitVec.ofNat 8 code } }) else e }

/-- R468: the stream that a fault came from stops before its faulting bundle: an early epilogue does not go on, and an answer of FLL or
FSC that was the fault is gone. -/
def Slot.haltFaulting (t : Slot) (r : TrapRec) : Slot :=
  if r.async ∨ 2 < r.source then t
  else
    { t with
      v := if r.source = 2 then { t.v with blk := t.v.blk.map ({ · with halted := true }) } else t.v
      replies := t.replies.filter fun e => e.1 / 4 != 2 + r.source }

/-- R472: a job traps: TRAPPED, its streams on the way to their stop points; the record and TRAP.slot follow (`trapReport`). A fault
that finds the job trapped already is counted in the launch's FAULTS alone; one that finds it stopping turns the stop into a trap
(R480). -/
def jobTrap (s : State) (n : Nat) (r : TrapRec) : State :=
  let sl := (s.slot n).haltFaulting r
  if sl.state = .trapped ∨ (sl.state = .killing ∧ sl.trapRec.isSome) then countFault (s.setSlot n sl) sl.launch r.code r.statusOnly
  else
    fwResult (s.setSlot n { sl with
      state := .trapped, trapRec := some r, trapDue := true
      v := if r.async ∨ r.source ≠ 2 then sl.v.epilogue else sl.v }) n r.code

/-- R472: the record of a trapped job is written, and TRAP.slot set. -/
def trapReport (s : State) (n : Nat) (r : TrapRec) : State :=
  let c := n / 2
  let s1 := writeTrapRecord (s.modSlot n ({ · with trapDue := false })) c (64 * (n % 2)) r
  s1.modCore c fun k => { k with fw := { k.fw with event := k.fw.event ||| (if n % 2 = 0 then 1#5 else 2#5) } }

/-- R458: a fault of a firmware bundle stops the context and writes its record at FW.TBASE + 128. -/
def fwTrap (s : State) (n : Nat) (r : TrapRec) : State :=
  let c := n - 3072
  let s1 := (writeTrapRecord s c 128 r).modSlot n fun t => { t with state := .trapped, trapRec := some r }
  s1.modCore c fun k => { k with fw := { k.fw with faulted := some s.tick } }

/-- R512: a fault stops an embedded controller; RESULT 0x0B is reported. -/
def ctlTrap (s : State) (n : Nat) (r : TrapRec) : State :=
  let s1 := s.modSlot n fun t => { t with state := .trapped, trapRec := some r }
  { s1 with upd := { s1.upd with result := 11 } }

/-- R146, R518: the bundle at hand stays unissued without a wait of R157: no KIND stands for it (log 23). -/
def stallBundle (s : State) : State :=
  let s1 := s.modMyStream ({ · with wait := none })
  { s1 with issue := { s1.issue with outcome := .waiting } }

/-- R69: taking the fault of a bundle: the agent traps, and the bundle is marked faulted. The words before it in a
bundle of several are undone by `step`, which takes the fault again from the state before the bundle. An access that a
channel holds (R518) leaves the bundle unissued. -/
def takeFault (s : State) (t : Trap) : State :=
  let g := s.issue.agent
  let r := streamRecord s g t
  if t.code = 0 then stallBundle s
  else
  let s1 := if isJob g.slot then jobTrap s g.slot r else if isFw g.slot then fwTrap s g.slot r else ctlTrap s g.slot r
  { s1 with issue := { s1.issue with outcome := .faulted t } }

/-! ## How a word's effect ends -/

/-- The effect of a word: done, held by a wait (R146, R157), held while something that it has begun goes on (`goOn`: under a
KIND of its own), ended by a fault, or ended by data whose check fails (R497). -/
inductive Eff where
  | ok   (s : State)
  | hold (s : State)
  | wait (kind obj : Nat) (arg : BitVec 32)
  | goOn (s : State) (kind obj : Nat) (arg : BitVec 32)
  | trap (t : Trap)
  | poison

/-- R146: the stream's next bundle waits; the wait that already stands keeps its age. -/
def holdBundle (s : State) (kind obj : Nat) (arg : BitVec 32) : State :=
  let s1 := s.modMyStream fun t =>
    { t with wait := match t.wait with
      | some w => if w.kind = kind ∧ w.obj = obj ∧ w.arg = arg then some w else some ⟨kind, obj, arg, s.tick⟩
      | none => some ⟨kind, obj, arg, s.tick⟩ }
  { s1 with issue := { s1.issue with outcome := .waiting } }

/-- R498: pending writes and the output slot are discarded, the snapshot restored, the input slot's source record queued to run
again, and the stream restarts at PHASEPC; the launch learns of it by a record alone. -/
def cancelPhase (s : State) (ph : Phase) (cmd : Cmd) : State :=
  let g := s.issue.agent
  let sl := s.slot g.slot
  let st := sl.stream g.st
  let ring := sget sl.rings {} ph.ring
  let outR := bits ring.role 12 4
  let o := sget sl.rings {} outR
  let rings1 := if bit ring.role 16 ∧ ph.outHeld < o.heldP.length then
      let n := Nat.max 1 (bits o.geom 0 7)
      sput sl.rings outR { o with prod := (o.prod + n - 1) % n, heldP := o.heldP.dropLast, free := o.free + 1 }
    else sl.rings
  let st1 : Stream := { st with
    x := ph.x, p := ph.p, lc := ph.lc, rrb := ph.rrb, pend := [], pc := ring.phasePc, arrival := .transfer,
    blk := none, phase := some { ph with cancels := ph.cancels + 1, redo := true }
    reenter := some (ring.phaseIter.toNat, ph.n) }
  let redo : Cmd := { cmd with id := s.cmdCount, started := false, units := [], bytes := 0, failed := false, again := true }
  let sl1 := { sl with rings := rings1, replies := sl.replies.filter fun e => e.1 / 4 != 2 + sourceOf g.st }
  let sl2 := if 0x29 ≤ cmd.op ∧ cmd.op ≤ 0x2B then { sl1 with fq := redo :: sl1.fq } else { sl1 with cq := redo :: sl1.cq }
  let s1 := { s with cmdCount := s.cmdCount + 1 }.setSlot g.slot (sl2.setStream g.st st1)
  reportFault s1 sl.launch { streamRecord s g (trapOf Code.uncorrectable 1) with statusOnly := true }

/-- R498: the source record of the input slot of the phase that a stream is in, and the phase; the sub-code of UNCONTAINED where
there is none, or where the phase has been cancelled twice. -/
def phaseSource (s : State) : Except Nat (Phase × Cmd) :=
  let sl := s.slot s.issue.agent.slot
  match (sl.stream s.issue.agent.st).phase with
  | none => .error 1
  | some ph =>
    match (sget sl.rings {} ph.ring).heldC.getLast? with
    | none => .error 1
    | some (slotNo, _) =>
      match sget (sget sl.rings {} ph.ring).src none slotNo with
      | none => .error 4
      | some cmd => if 2 ≤ ph.cancels then .error 3 else .ok (ph, cmd)

/-- R498, R499: a stream consumes data whose check fails. Between a RACQ.C and its RREL.C, with the snapshot standing,
the phase is cancelled; the third cancellation, a slot without a source record, and any other consumption are
uncontained. -/
def consumePoison (s : State) : State :=
  match phaseSource s with
  | .error sub => takeFault s (trapOf Code.uncontained sub)
  | .ok (ph, cmd) =>
    let s1 := cancelPhase s ph cmd
    { s1 with issue := { s1.issue with outcome := .poisoned } }

/-- A fault of the bundle at hand: bad data that a walk or a fetch has met is consumed (R497, log 167), all else is taken. -/
def takeTrap (s : State) (t : Trap) : State := if t.code = Code.uncontained then consumePoison s else takeFault s t

/-- The outcome of a word's effect: always a next state. -/
def conclude (s : State) : Eff → Host.Outcome State Fault Refusal
  | .ok s' => .next s'
  | .hold s' => .next (stallBundle s')
  | .wait k o a => .next (holdBundle s k o a)
  | .goOn s' k o a => .next (holdBundle s' k o a)
  | .trap t => .next (takeTrap s t)
  | .poison => .next (consumePoison s)

/-- A free value (log 3): the next of the values that the spec leaves open. -/
def State.drawFree (s : State) : Word × State := (Config.freeWord s.freeCount, { s with freeCount := s.freeCount + 1 })

end Sys2Proof.Machine
end

