-- ==== Sys2Proof/Machine/Caches.lean ====
section
/-!
DEFINITION. The L2 besides the accesses of streams and engines: hints (R341), requests of other agents, cache maintenance (R193),
ranges that are disabled (R343), and the lines of a slice.
-/

namespace Sys2Proof.Machine

/-! ## Dirty sectors (R193) -/

/-- CINV: what memory held under a dirty sector stands again. -/
def dropSector (s : State) (u : Nat) : State :=
  match sfind s.l2 u with
  | none => s
  | some old => { s with l2 := sdel s.l2 u, mem := writeBytes s.mem (32 * u) (natBytes 32 old.toNat) }

/-- The lines that a condition picks are held no more. -/
def forgetLines (s : State) (p : L2Line → Bool) : State :=
  { s with
    l2tags := (s.l2tags.map fun e => (e.1, e.2.filter (!p ·))).filter (!·.2.isEmpty)
    badLines := s.badLines.filter fun n => !s.l2tags.any fun e => e.2.any fun l => l.line == n && p l }

/-! ## Requests (R341, R343) -/

/-- A request that reaches the L2 besides those of the accesses themselves, a read ahead (R335): of a context's virtual address, or
of a physical address (log 123). -/
def l2Access (s : State) (cluster : Nat) (ctx : Option Nat) (addr : Nat) (hint : Option Nat) : State :=
  match ctx with
  | none => l2Lookup s (lineSet (sliceOf addr) (addr / 128)) (addr / 128) false
  | some c =>
    match walk s c (c * 16) addr with
    | .error _ => s
    | .ok l =>
      let slice := sliceFor s c l.layout addr l.pa
      let s1 := countHint s cluster slice hint
      if 1 < l.attr then s1 else l2Lookup s1 (lineSet slice (l.pa / 128)) (l.pa / 128) (l.attr == 1)

/-- R343: disabling a range makes its lines unretained. -/
def unretain (s : State) (n : Nat) : State :=
  { s with l2tags := s.l2tags.map fun e => (e.1, e.2.map fun l => if l.range = some n then { l with range := none } else l) }

/-- Whether a sector lies in a slice: where its line is held, else where LAYOUT 0 puts it (log 53). -/
def inSlice (s : State) (slice u : Nat) : Bool :=
  match s.l2tags.find? fun e => e.2.any (·.line == u / 4) with
  | some e => e.1 / 1024 == slice
  | none => sliceOf (32 * u) == slice

end Sys2Proof.Machine
end

