-- ==== Sys2Proof/Machine/Flags.lean ====
section
/-!
DEFINITION. The flag computations: the conditions of the compares (R119, R225), how a compare combines with a
predicate (R120), and the sticky flags of VSTAT (R97 to R101, R207).
-/

namespace Sys2Proof.Machine

/-- R119: the condition of a scalar compare; for BSET and BCLR, `n` is the bit number. -/
def scalarCond (cc : Nat) (a b : Word) (n : Nat) : Bool :=
  match cc with
  | 0 => a == b
  | 1 => a != b
  | 2 => a.slt b
  | 3 => !(a.slt b)
  | 4 => a.ult b
  | 5 => !(a.ult b)
  | 6 => !(b.slt a)
  | 7 => b.slt a
  | 8 => !(b.ult a)
  | 9 => b.ult a
  | 10 => bit a n
  | 11 => !(bit a n)
  | _ => false

/-- R120: the new value of the even predicate, bit by bit. -/
def combineKind (kind : Nat) (old c : BitVec 256) : BitVec 256 :=
  match kind with
  | 0 => c
  | 1 => old &&& c
  | 2 => old ||| c
  | _ => old ^^^ c

/-- The sticky flags as the five bits 12:8 of VSTAT (R207). -/
abbrev VFlags := BitVec 5

def fNone : VFlags := 0
def fInx : VFlags := 1
def fOvf : VFlags := 2
def fInv : VFlags := 4
def fRange : VFlags := 8
def fSat : VFlags := 16

/-- R207: VSTAT as a CSR reads it. -/
def Slot.vstat (t : Slot) : Word := BitVec.ofNat 64 (t.vflags.toNat * 256 + t.vrm.toNat)

/-- R207, R236: a write to VSTAT; the flags that the same bundle raised are ORed in. -/
def Slot.setVstat (t : Slot) (v : Word) (raised : VFlags) : Slot :=
  { t with vflags := BitVec.ofNat 5 (bits v 8 5) ||| raised, vrm := BitVec.ofNat 2 (bits v 0 2) }

end Sys2Proof.Machine
end

