-- ==== Sys2Proof/Machine/Float.lean ====
section
/-!
DEFINITION. Number formats and exact arithmetic (chapter 03): the codes of R80 to R82, exact values as sign, integer
and power of two, the one rounding of R97 with the special results of R98, conversions to integers (R100), and EXR
(R104 to R107).
-/

namespace Sys2Proof.Machine

/-- R80, R81: a floating-point format: exponent and mantissa widths, bias, and special-value mode (0 IEEE, 1 FINITE,
2 NONE). -/
structure Fmt where
  e    : Nat
  m    : Nat
  bias : Int
  mode : Nat
deriving DecidableEq, Repr

def fp32 : Fmt := ⟨8, 23, 127, 0⟩
def fp64 : Fmt := ⟨11, 52, 1023, 0⟩
def fp16 : Fmt := ⟨5, 10, 15, 0⟩
def bf16 : Fmt := ⟨8, 7, 127, 0⟩

/-- The value of a code: NaN, an infinity, or (−1)^neg × m × 2^e; m = 0 is a zero with its sign. -/
inductive FVal where
  | nan
  | inf (neg : Bool)
  | fin (neg : Bool) (m : Nat) (e : Int)
deriving DecidableEq, Repr

/-- R96: the rounding modes; SR takes the stochastic word of R102. -/
inductive RMode where
  | rne | rtz | rup | rdn
  | sr (u : Nat)
deriving DecidableEq, Repr

def rmOf : Nat → RMode
  | 0 => .rne | 1 => .rtz | 2 => .rup | _ => .rdn

/-- R80, R81: the value of a code of a format. -/
def Fmt.decode (f : Fmt) (c : Nat) : FVal :=
  let neg := c / 2 ^ (f.e + f.m) % 2 == 1
  let ex := c / 2 ^ f.m % 2 ^ f.e
  let ma := c % 2 ^ f.m
  let top := 2 ^ f.e - 1
  if f.mode = 0 ∧ ex = top then (if ma = 0 then .inf neg else .nan)
  else if f.mode = 1 ∧ ex = top ∧ ma = 2 ^ f.m - 1 then .nan
  else if ex = 0 then .fin neg ma (1 - f.bias - f.m)
  else .fin neg (ma + 2 ^ f.m) (ex - f.bias - f.m)

def Fmt.signBit (f : Fmt) (neg : Bool) : Nat := b2n neg * 2 ^ (f.e + f.m)

/-- R81: the canonical NaN; +0 for a format without one (R98). -/
def Fmt.nanCode (f : Fmt) : Nat :=
  match f.mode with
  | 0 => (2 ^ f.e - 1) * 2 ^ f.m + 2 ^ (f.m - 1)
  | 1 => 2 ^ (f.e + f.m) - 1
  | _ => 0

/-- R82: the code of the largest finite magnitude. -/
def Fmt.maxCode (f : Fmt) : Nat :=
  match f.mode with
  | 0 => (2 ^ f.e - 1) * 2 ^ f.m - 1
  | 1 => 2 ^ (f.e + f.m) - 2
  | _ => 2 ^ (f.e + f.m) - 1

/-- The code of an infinity of an IEEE format. -/
def Fmt.infCode (f : Fmt) : Nat := (2 ^ f.e - 1) * 2 ^ f.m

/-- R98: a NaN converted to a format. -/
def Fmt.nanResult (f : Fmt) : Nat × VFlags := (f.nanCode, if f.mode = 2 then fInv else fNone)

/-- R98: an infinity converted to a format. -/
def Fmt.infResult (f : Fmt) (neg sat : Bool) : Nat × VFlags :=
  if f.mode = 0 ∧ !sat then (f.signBit neg + f.infCode, fNone) else (f.signBit neg + f.maxCode, fOvf)

/-- R98: a magnitude above the largest finite one. -/
def Fmt.overflowResult (f : Fmt) (neg : Bool) (mode : RMode) (sat : Bool) : Nat × VFlags :=
  let inf := (f.signBit neg + f.infCode, fOvf)
  let big := (f.signBit neg + f.maxCode, fOvf)
  if f.mode ≠ 0 ∨ sat then big
  else match mode with
    | .rne => inf
    | .sr _ => inf
    | .rtz => big
    | .rup => if neg then big else inf
    | .rdn => if neg then inf else big

/-- R97: the integer that n = m / 2^d rounds to. -/
def roundNat (neg : Bool) (mode : RMode) (m d : Nat) : Nat :=
  let i := m / 2 ^ d
  let r := m % 2 ^ d
  match mode with
  | .rne => if 2 * r > 2 ^ d ∨ (2 * r = 2 ^ d ∧ i % 2 = 1) then i + 1 else i
  | .rtz => i
  | .rup => if !neg ∧ r ≠ 0 then i + 1 else i
  | .rdn => if neg ∧ r ≠ 0 then i + 1 else i
  | .sr u => (m * 2 ^ 16 + u * 2 ^ d) / 2 ^ (d + 16)

/-- The code of i × 2^q, where q is the unit's exponent, i ≤ 2^(M+1), and the value is not above the largest. -/
def Fmt.encodeUnits (f : Fmt) (i : Nat) (q : Int) : Nat :=
  if i < 2 ^ f.m then i
  else if i < 2 ^ (f.m + 1) then (q + f.m + f.bias).toNat * 2 ^ f.m + (i - 2 ^ f.m)
  else (q + 1 + f.m + f.bias).toNat * 2 ^ f.m

/-- R97: rounds an exact value into a format; SAT is the saturating option. The value is brought within reach first: one
whose integer part cannot change the result is replaced by a smaller one that rounds alike. -/
def Fmt.round (f : Fmt) (mode : RMode) (sat : Bool) (x : FVal) : Nat × VFlags :=
  match x with
  | .nan => f.nanResult
  | .inf neg => f.infResult neg sat
  | .fin neg m e =>
    if m = 0 then (f.signBit neg, fNone)
    else
      let lg : Int := e + Nat.log2 m
      let q := max lg (1 - f.bias) - f.m
      if lg + f.bias > 2 ^ f.e then f.overflowResult neg mode sat
      else
        let (m', d) : Nat × Nat :=
          if q ≤ e then (m * 2 ^ (e - q).toNat, 0)
          else if q - e > Nat.log2 m + 20 then (1, 20)
          else (m, (q - e).toNat)
        let i := roundNat neg mode m' d
        let code := f.encodeUnits i q
        if code > f.maxCode then f.overflowResult neg mode sat
        else (f.signBit neg + code, if i * 2 ^ d ≠ m' then fInx else fNone)

/-! ## Exact operations -/

def FVal.isNan : FVal → Bool | .nan => true | _ => false
def FVal.neg : FVal → FVal
  | .nan => .nan | .inf s => .inf (!s) | .fin s m e => .fin (!s) m e
def FVal.isZero : FVal → Bool | .fin _ 0 _ => true | _ => false
def FVal.sign : FVal → Bool | .nan => false | .inf s => s | .fin s _ _ => s

/-- The signed integer of a finite value at exponent `q ≤ e`. -/
def intAt (neg : Bool) (m : Nat) (e q : Int) : Int :=
  let v : Int := m * 2 ^ (e - q).toNat
  if neg then -v else v

def ofInt (v : Int) (e : Int) : FVal := .fin (decide (v < 0)) v.natAbs e

/-- The exact sum; a zero sum of operands of opposite sign is −0 under RDN alone (log 31). The flag is INV for opposite
infinities. -/
def FVal.add (rdn : Bool) : FVal → FVal → FVal × VFlags
  | .nan, _ => (.nan, fNone)
  | _, .nan => (.nan, fNone)
  | .inf a, .inf b => if a = b then (.inf a, fNone) else (.nan, fInv)
  | .inf a, _ => (.inf a, fNone)
  | _, .inf b => (.inf b, fNone)
  | .fin sa ma ea, .fin sb mb eb =>
    if ma = 0 ∧ mb = 0 then (.fin (if sa = sb then sa else rdn) 0 0, fNone)
    else
      let q := if ma = 0 then eb else if mb = 0 then ea else min ea eb
      let v := (if ma = 0 then 0 else intAt sa ma ea q) + (if mb = 0 then 0 else intAt sb mb eb q)
      if v = 0 then (.fin rdn 0 0, fNone) else (ofInt v q, fNone)

/-- The exact product; INV for 0 × ∞. -/
def FVal.mul : FVal → FVal → FVal × VFlags
  | .nan, _ => (.nan, fNone)
  | _, .nan => (.nan, fNone)
  | .inf a, .inf b => (.inf (a != b), fNone)
  | .inf a, .fin b m _ => if m = 0 then (.nan, fInv) else (.inf (a != b), fNone)
  | .fin a m _, .inf b => if m = 0 then (.nan, fInv) else (.inf (a != b), fNone)
  | .fin a m e, .fin b n g => (.fin (a != b) (m * n) (e + g), fNone)

/-- Compares two values that are not NaN: whether the first is smaller. −0 equals +0. -/
def FVal.lt : FVal → FVal → Bool
  | .nan, _ => false
  | _, .nan => false
  | .inf a, .inf b => a && !b
  | .inf a, _ => a
  | _, .inf b => !b
  | .fin sa ma ea, .fin sb mb eb =>
    let q := min ea eb
    decide (intAt sa ma ea q < intAt sb mb eb q)

def FVal.eq (a b : FVal) : Bool := !a.isNan && !b.isNan && !a.lt b && !b.lt a

/-- R100: the value rounded to an integer and clamped to `lo`..`hi`, with its flags. -/
def toInteger (mode : RMode) (lo hi : Int) : FVal → Int × VFlags
  | .nan => (0, fInv)
  | .inf neg => (if neg then lo else hi, fInv)
  | .fin neg m e =>
    if m = 0 then (0, fNone)
    else if e + Nat.log2 m > 70 then (if neg then lo else hi, fInv)
    else
      let (m', d) : Nat × Nat :=
        if 0 ≤ e then (m * 2 ^ e.toNat, 0)
        else if -e > Nat.log2 m + 20 then (1, 20)
        else (m, (-e).toNat)
      let i := roundNat neg mode m' d
      let v : Int := if neg then -(i : Int) else i
      if v < lo then (lo, fInv) else if hi < v then (hi, fInv)
      else (v, if i * 2 ^ d ≠ m' then fInx else fNone)

/-- The value rounded to an integral value of the same type, keeping the sign of zero (R220). -/
def toIntegral (mode : RMode) : FVal → FVal
  | .fin neg m e =>
    if 0 ≤ e ∨ m = 0 then .fin neg m e
    else if -e > Nat.log2 m + 20 then .fin neg (roundNat neg mode 1 20) 0
    else .fin neg (roundNat neg mode m (-e).toNat) 0
  | x => x

/-! ## 32-bit lane generators (R102, R103) -/

def lfsrStep (s : BitVec 32) : BitVec 32 :=
  let t := s >>> 1
  if s.getLsbD 0 then t ^^^ 0x80200003#32 else t

def lfsrSteps : Nat → BitVec 32 → BitVec 32
  | 0, s => s
  | n + 1, s => lfsrSteps n (lfsrStep s)

/-- R103: generator `i` of a seed. -/
def genOf (seed : BitVec 32) (i : Nat) : BitVec 32 :=
  let g := seed ^^^ BitVec.ofNat 32 (i * 0x9E3779B9)
  if g = 0 then 1 else g

def gensOf (seed : BitVec 32) : Sparse (BitVec 32) := (upTo 0 128).map fun i => (i, genOf seed i)

/-! ## EXR (R104 to R107) -/

/-- R104: the entry, its poison bit, and whether it was clamped. -/
def toExr (c : Nat) (scale : Int) : Int × Bool × Bool :=
  match fp32.decode c with
  | .nan => (0, true, false)
  | .inf neg => (if neg then -(2 ^ 44) else 2 ^ 44, false, true)
  | .fin neg m e =>
    if m = 0 then (0, false, false)
    else
      let x := e + scale
      let i := if 0 ≤ x then m * 2 ^ x.toNat else roundNat neg .rne m (-x).toNat
      let v := min i (2 ^ 44)
      (if neg then -(v : Int) else v, false, decide (i > 2 ^ 44))

/-- R106: the residue of an entry. -/
def exrRes (v : Int) : Nat := (v % 255).toNat

/-- R107. -/
def fromExr (v : Int) (poison : Bool) (scale : Int) : Nat :=
  if poison then 0x7FC00000 else (fp32.round .rne false (ofInt v (-scale))).1

end Sys2Proof.Machine
end

