-- ==== Sys2Proof/Machine/Buckets.lean ====
section
/-!
DEFINITION. The buckets of reductions (R185, R265, R440 to R443): the descriptor of a collective, and the data of RED packets
as a participant builds it.
-/

namespace Sys2Proof.Machine

/-! ## The descriptor (R185) -/

structure Desc where
  src     : Nat
  dst     : Nat
  elems   : Nat
  mode    : Nat
  scale   : Int
  errmem  : Nat
  statusw : Nat
  reserved : Bool
deriving DecidableEq, Repr

/-- Bytes `o` to `o + n - 1` of a record, as a number. -/
def recNat (bs : List Byte) (o n : Nat) : Nat := bytesNat ((bs.drop o).take n)

def descOf (bs : List Byte) : Desc :=
  { src := recNat bs 0 8, dst := recNat bs 8 8, elems := recNat bs 16 4, mode := recNat bs 20 1,
    scale := (BitVec.ofNat 8 (recNat bs 21 1)).toInt, errmem := recNat bs 24 8, statusw := recNat bs 32 8,
    reserved := recNat bs 22 2 != 0 || recNat bs 40 24 != 0 }

/-! ## RED data (R442) -/

/-- Bits, eight to a byte, bit j in byte ⌊j / 8⌋. -/
def packBits : List Bool → Nat
  | [] => 0
  | b :: t => b2n b + 2 * packBits t

def bitmapBytes (l : List Bool) : List Byte := natBytes ((l.length + 7) / 8) (packBits l)

/-- The flags of a trailer: MISSING, ERROR. -/
def trailer (poisoned clamps contrib flags buckets : Nat) : List Byte :=
  natBytes 4 poisoned ++ natBytes 4 clamps ++ natBytes 3 contrib ++ natBytes 1 flags ++ natBytes 2 (buckets - 1) ++ natBytes 2 0

def countTrue (l : List Bool) : Nat := (l.filter id).length

/-- The bytes of a list of numbers, `n` bytes each. -/
def numsBytes (n : Nat) (l : List Nat) : List Byte := (l.map (natBytes n)).foldr (· ++ ·) []

/-- R443: the FP32 layout. -/
def fp32Data (vals : List Nat) (poison : List Bool) (tr : List Byte) : List Byte :=
  numsBytes 4 vals ++ bitmapBytes poison ++ tr

def fp32Bucket (vals : List Nat) (buckets : Nat) : List Byte :=
  let poison := vals.map fun c => (fp32.decode c).isNan
  fp32Data (vals.map fun c => if (fp32.decode c).isNan then 0 else c) poison
    (trailer (countTrue poison) 0 1 0 buckets)

/-- The EXR layout. -/
def exrData (vals : List Int) (poison : List Bool) (tr : List Byte) : List Byte :=
  numsBytes 8 (vals.map fun v => (v % 2 ^ 64).toNat) ++ numsBytes 1 (vals.map exrRes) ++ bitmapBytes poison ++ tr

/-- R443: each element through ToEXR. -/
def exrBucket (vals : List Nat) (scale : Int) (buckets : Nat) : List Byte :=
  let es := vals.map (toExr · scale)
  let poison := es.map (·.2.1)
  exrData (es.map (·.1)) poison (trailer (countTrue poison) (countTrue (es.map (·.2.2))) 1 0 buckets)

/-! ## One-bit mode (R265) -/

/-- One rounding to FP32. -/
def toFp32 (x : FVal) : Nat := (fp32.round .rne false x).1

def FVal.abs : FVal → FVal
  | .nan => .nan | .inf _ => .inf false | .fin _ m e => .fin false m e

def FVal.isFinite : FVal → Bool | .fin _ _ _ => true | _ => false

/-- A power of two times a value. -/
def FVal.scale (x : FVal) (k : Int) : FVal := match x with | .fin s m e => .fin s m (e + k) | y => y

/-- R265: a row of values and its error values: the packet and the new error values. -/
def oneBit (vals errs : List Nat) (buckets : Nat) : List Byte × List Nat :=
  let v := List.zipWith (fun a e => fp32.decode (toFp32 ((fp32.decode a).add false (fp32.decode e)).1)) vals errs
  let poison := v.map fun x => !x.isFinite
  let sum : FVal := v.foldl (fun (a x : FVal) => if x.isFinite then (a.add false x.abs).1 else a) (FVal.fin false 0 0)
  let m := toFp32 (sum.scale (-7))
  let sign := v.map fun x => x.isFinite && x.sign
  let mv := fp32.decode m
  let errs' := v.map fun x =>
    if x.isFinite then toFp32 (x.add false (if x.sign then mv else mv.neg)).1 else 0
  (natBytes 4 m ++ bitmapBytes sign ++ bitmapBytes poison ++ trailer (countTrue poison) 0 1 0 buckets, errs')

end Sys2Proof.Machine
end

