-- ==== Sys2Proof/Machine/Operands.lean ====
section
/-!
DEFINITION. What a word names and where it may run: opcodes, guards, stream legality and privilege (R65, R67, R70),
the groups and slots of bundles (R58, R59), destinations (R60), the V registers a word names (R202, R206), and how a
word's effect runs under its guard (R61, R62).
-/

namespace Sys2Proof

/-- R65, R44: the opcode of a word, a compact instruction having that of the 32-bit form it names; 64 for a header or an
event. -/
def Instr.op : Instr → Nat
  | .compactAddX0 .. | .compactAdd .. | .compactSub .. | .compactAnd .. | .compactOr .. | .compactXor .. | .add .. | .sub .. | .and .. | .or .. | .xor .. | .shl .. | .shr .. | .sar .. | .min .. | .max .. | .umin .. | .umax .. | .mul .. | .mulh .. | .umulh .. => 0x00
  | .compactAddi .. | .addi .. => 0x02
  | .compactMovi .. | .movi .. => 0x07
  | .compactShli .. | .compactShri .. | .compactSari .. | .shli .. | .shri .. | .sari .. => 0x06
  | .compactLdd .. | .ldd .. => 0x13
  | .compactStd .. | .std .. => 0x17
  | .compactSaddi .. | .sadd .. | .saddi .. | .swait .. | .sread .. | .sset .. => 0x1E
  | .compactQput .. | .compactQget .. | .qput .. | .qget .. | .qcount .. | .qflush .. => 0x1F
  | .compactNop .. | .compactEnd .. | .nop .. | .rdv .. | .sysEnd .. | .trap .. | .bkpt .. | .lbar .. | .mwait .. | .eret .. | .wfe .. | .stopack .. => 0x23
  | .div .. | .udiv .. | .rem .. | .urem .. | .clz .. | .popc .. | .brev .. | .sextb .. | .sexth .. | .sextw .. | .zextw .. | .slt .. | .uslt .. => 0x01
  | .andi .. => 0x03
  | .ori .. => 0x04
  | .xori .. => 0x05
  | .ldlit .. => 0x08
  | .setlc .. => 0x09
  | .cmp .. => 0x0A
  | .cmpi .. => 0x0B
  | .br .. => 0x0C
  | .call .. => 0x0D
  | .jmp .. | .callr .. | .ret .. => 0x0E
  | .pand .. | .por .. | .pxor .. | .pandn .. | .pnot .. | .pmov .. | .pbcast .. | .pcnt .. => 0x0F
  | .ldb .. => 0x10
  | .ldh .. => 0x11
  | .ldw .. => 0x12
  | .stb .. => 0x14
  | .sth .. => 0x15
  | .stw .. => 0x16
  | .amo .. => 0x18
  | .amow .. => 0x19
  | .amon .. => 0x1A
  | .cas .. | .casw .. => 0x1B
  | .asc .. | .ascCas .. => 0x1C
  | .fence .. => 0x1D
  | .brq .. => 0x20
  | .csrr .. => 0x21
  | .csrw .. | .csrwSet .. | .csrwClr .. => 0x22
  | .taskadd .. | .taskjoin .. | .taskget .. => 0x24
  | .cpyLin .. | .cpyShp .. | .cpySlot .. | .cpyFill .. | .cpyCirc .. => 0x25
  | .gath .. | .scat .. => 0x26
  | .racq .. | .rrel .. | .rcan .. | .rstat .. => 0x27
  | .fempty .. | .ftest .. => 0x28
  | .fput .. | .fget .. => 0x29
  | .fred .. => 0x2A
  | .fll .. | .fsc .. | .fsig .. | .fcoll .. => 0x2B
  | .segnew .. | .segatt .. | .segdet .. | .segevict .. | .segdrop .. | .segqry .. => 0x2C
  | .cflush .. | .cinv .. | .cclean .. | .cpref .. => 0x2D
  | .vadd .. | .vsub .. | .vmul .. | .vfma .. | .vfms .. | .vfnma .. | .vmax .. | .vmin .. => 0x2E
  | .vabs .. | .vneg .. | .vrcpe .. | .vrsqe .. | .vfloor .. | .vrnd .. | .vscale .. => 0x2F
  | .viadd .. | .visub .. | .vimul .. | .vand .. | .vor .. | .vxor .. | .vshl .. | .vsar .. => 0x30
  | .vmov .. | .vsel .. | .vclamp .. | .vshr .. => 0x31
  | .vcvt .. => 0x32
  | .vcmp .. => 0x33
  | .vradd .. | .vrmax .. | .vrmin .. | .vraddx .. => 0x34
  | .vperm .. | .vrot .. | .vshft .. | .vdup .. => 0x35
  | .vbc .. | .vext .. => 0x36
  | .vld .. => 0x37
  | .vst .. => 0x38
  | .vldl .. | .vstl .. => 0x39
  | .vcord .. => 0x3A
  | .vwin .. | .pgo .. | .pstop .. | .vstp .. | .vstat .. => 0x3B
  | .mcfg .. => 0x3C
  | .mma .. | .mmac .. | .trn .. | .prm .. | .rred .. | .zero .. => 0x3D
  | .mclaim .. | .mrel .. | .mwaitn .. | .mpri .. | .mfmt .. | .mret .. | .mstat .. => 0x3E
  | _ => 64

/-- R43, R44: the S and G fields of a word; a compact instruction has S = 1 and G = 0. -/
def Instr.hd : Instr → Hd
  | .add h _ _ _ => h
  | .sub h _ _ _ => h
  | .and h _ _ _ => h
  | .or h _ _ _ => h
  | .xor h _ _ _ => h
  | .shl h _ _ _ => h
  | .shr h _ _ _ => h
  | .sar h _ _ _ => h
  | .min h _ _ _ => h
  | .max h _ _ _ => h
  | .umin h _ _ _ => h
  | .umax h _ _ _ => h
  | .mul h _ _ _ => h
  | .mulh h _ _ _ => h
  | .umulh h _ _ _ => h
  | .div h _ _ _ => h
  | .udiv h _ _ _ => h
  | .rem h _ _ _ => h
  | .urem h _ _ _ => h
  | .clz h _ _ => h
  | .popc h _ _ => h
  | .brev h _ _ => h
  | .sextb h _ _ => h
  | .sexth h _ _ => h
  | .sextw h _ _ => h
  | .zextw h _ _ => h
  | .slt h _ _ _ => h
  | .uslt h _ _ _ => h
  | .addi h _ _ _ => h
  | .andi h _ _ _ => h
  | .ori h _ _ _ => h
  | .xori h _ _ _ => h
  | .shli h _ _ _ => h
  | .shri h _ _ _ => h
  | .sari h _ _ _ => h
  | .movi h _ _ => h
  | .ldlit h _ _ => h
  | .setlc h _ _ => h
  | .cmp h _ _ _ _ _ => h
  | .cmpi h _ _ _ _ _ => h
  | .br h _ => h
  | .call h _ => h
  | .jmp h _ => h
  | .callr h _ => h
  | .ret h => h
  | .pand h _ _ _ => h
  | .por h _ _ _ => h
  | .pxor h _ _ _ => h
  | .pandn h _ _ _ => h
  | .pnot h _ _ => h
  | .pmov h _ _ => h
  | .pbcast h _ _ => h
  | .pcnt h _ _ => h
  | .ldb h _ _ _ _ => h
  | .ldh h _ _ _ _ => h
  | .ldw h _ _ _ _ => h
  | .ldd h _ _ _ _ => h
  | .stb h _ _ _ _ => h
  | .sth h _ _ _ _ => h
  | .stw h _ _ _ _ => h
  | .std h _ _ _ _ => h
  | .amo h _ _ _ _ => h
  | .amow h _ _ _ _ => h
  | .amon h _ _ _ => h
  | .cas h _ _ _ => h
  | .casw h _ _ _ => h
  | .asc h _ _ _ _ => h
  | .ascCas h _ _ _ => h
  | .fence h _ _ => h
  | .sadd h _ _ => h
  | .saddi h _ _ => h
  | .swait h _ _ => h
  | .sread h _ _ => h
  | .sset h _ _ => h
  | .qput h _ _ => h
  | .qget h _ _ => h
  | .qcount h _ _ => h
  | .qflush h _ => h
  | .brq h _ _ => h
  | .csrr h _ _ => h
  | .csrw h _ _ => h
  | .csrwSet h _ _ => h
  | .csrwClr h _ _ => h
  | .nop h => h
  | .rdv h _ => h
  | .sysEnd h => h
  | .trap h _ => h
  | .bkpt h => h
  | .lbar h _ => h
  | .mwait h _ => h
  | .eret h => h
  | .wfe h => h
  | .stopack h => h
  | .taskadd h _ _ _ => h
  | .taskjoin h _ _ _ => h
  | .taskget h _ _ _ => h
  | .cpyLin h _ _ _ => h
  | .cpyShp h _ _ _ => h
  | .cpySlot h _ _ _ => h
  | .cpyFill h _ _ _ => h
  | .cpyCirc h _ _ _ => h
  | .gath h _ _ _ => h
  | .scat h _ _ _ => h
  | .racq h _ _ _ => h
  | .rrel h _ _ => h
  | .rcan h _ _ => h
  | .rstat h _ _ => h
  | .fempty h _ _ => h
  | .ftest h _ _ => h
  | .fput h _ _ _ => h
  | .fget h _ _ _ => h
  | .fred h _ _ _ _ => h
  | .fll h _ _ => h
  | .fsc h _ _ _ => h
  | .fsig h _ _ _ => h
  | .fcoll h _ _ _ => h
  | .segnew h _ _ _ => h
  | .segatt h _ _ _ _ => h
  | .segdet h _ _ => h
  | .segevict h _ _ => h
  | .segdrop h _ _ => h
  | .segqry h _ _ => h
  | .cflush h _ _ _ => h
  | .cinv h _ _ _ => h
  | .cclean h _ _ _ => h
  | .cpref h _ _ _ => h
  | .vadd h _ _ _ _ => h
  | .vsub h _ _ _ _ => h
  | .vmul h _ _ _ _ => h
  | .vfma h _ _ _ _ => h
  | .vfms h _ _ _ _ => h
  | .vfnma h _ _ _ _ => h
  | .vmax h _ _ _ _ => h
  | .vmin h _ _ _ _ => h
  | .vabs h _ _ => h
  | .vneg h _ _ => h
  | .vrcpe h _ _ => h
  | .vrsqe h _ _ => h
  | .vfloor h _ _ => h
  | .vrnd h _ _ => h
  | .vscale h _ _ _ _ => h
  | .viadd h _ _ _ _ => h
  | .visub h _ _ _ _ => h
  | .vimul h _ _ _ _ => h
  | .vand h _ _ _ _ => h
  | .vor h _ _ _ _ => h
  | .vxor h _ _ _ _ => h
  | .vshl h _ _ _ _ => h
  | .vsar h _ _ _ _ => h
  | .vmov h _ _ _ => h
  | .vsel h _ _ _ _ => h
  | .vclamp h _ _ _ _ => h
  | .vshr h _ _ _ _ => h
  | .vcvt h _ _ _ _ _ => h
  | .vcmp h _ _ _ _ _ => h
  | .vradd h _ _ => h
  | .vrmax h _ _ => h
  | .vrmin h _ _ => h
  | .vraddx h _ _ => h
  | .vperm h _ _ _ _ => h
  | .vrot h _ _ _ _ => h
  | .vshft h _ _ _ _ => h
  | .vdup h _ _ _ _ => h
  | .vbc h _ _ => h
  | .vext h _ _ _ => h
  | .vld h _ _ _ _ => h
  | .vst h _ _ _ _ => h
  | .vldl h _ _ _ => h
  | .vstl h _ _ _ => h
  | .vcord h _ _ _ _ => h
  | .vwin h _ _ _ => h
  | .pgo h _ => h
  | .pstop h _ => h
  | .vstp h _ _ => h
  | .vstat h _ _ => h
  | .mcfg h _ _ => h
  | .mma h => h
  | .mmac h => h
  | .trn h _ _ => h
  | .prm h _ _ => h
  | .rred h _ _ => h
  | .zero h _ => h
  | .mclaim h _ => h
  | .mrel h _ => h
  | .mwaitn h _ => h
  | .mpri h _ => h
  | .mfmt h _ _ => h
  | .mret h _ => h
  | .mstat h _ _ => h
  | _ => ⟨true, 0⟩

/-- A compact instruction (R44). -/
def Instr.isCompact : Instr → Bool
  | .compactAddX0 .. | .compactAdd .. | .compactSub .. | .compactAnd .. | .compactOr .. | .compactXor .. | .compactAddi .. | .compactMovi .. | .compactShli .. | .compactShri .. | .compactSari .. | .compactLdd .. | .compactStd .. | .compactSaddi .. | .compactQput .. | .compactQget .. | .compactNop .. | .compactEnd .. => true
  | _ => false

namespace Machine

/-! ## Control and status register numbers (R144, R145) -/

/-- R145: the CSR numbers below 0x800 that exist. -/
def csrExists (n : Nat) : Bool :=
  decide (n ≤ 6) || (decide (0x100 ≤ n) && decide (n ≤ 0x10F) && n != 0x107) ||
  (decide (0x200 ≤ n) && decide (n < 0x300) &&
    (let f := n % 0x20; decide (f ≤ 1) || (decide (8 ≤ f) && decide (f ≤ 13)) || (decide (16 ≤ f) && decide (f ≤ 21)))) ||
  (decide (0x300 ≤ n) && decide (n < 0x400) && decide (n % 16 ≤ 6)) ||
  (decide (0x400 ≤ n) && decide (n ≤ 0x405))

/-- R459 to R467, R530: the firmware's CSR numbers. -/
def fwCsrExists (n : Nat) : Bool := decide (0x800 ≤ n) && decide (n ≤ 0x80A)

/-- R145: the CSRs that a CSRW may name; FWSHARE is written by firmware alone (R322, R458), FW.JST by none (R461). -/
def csrWritable (fw : Bool) (n : Nat) : Bool :=
  decide (n ≤ 2) || (decide (0x103 ≤ n) && decide (n ≤ 0x106)) || (decide (0x200 ≤ n) && decide (n < 0x300)) ||
  (decide (0x300 ≤ n) && decide (n < 0x400) && decide (n % 16 ≤ 2)) || (fw && n == 0x404) ||
  (decide (0x800 ≤ n) && n != 0x802)

/-! ## Legality (R65, R70, R139) -/

/-- The slots of a V-stream bundle (R59, R65). -/
inductive VSlot where
  | scalar | vector | compare
deriving DecidableEq, Repr

/-- R65: the V-stream slot of an opcode, or none where it is not legal there. -/
def vslot (op : Nat) : Option VSlot :=
  if op = 0x0A ∨ op = 0x0B ∨ op = 0x0F ∨ op = 0x33 then some .compare
  else if 0x2E ≤ op ∧ op ≤ 0x3A then some .vector
  else if op ≤ 0x23 ∨ op = 0x27 ∨ op = 0x28 ∨ op = 0x3B then some .scalar
  else none

/-- R65: whether an opcode is legal in a stream of a job. -/
def opLegal (k : StreamId) (op : Nat) : Bool :=
  match k with
  | .a => decide (op ≤ 0x2D)
  | .m => decide (op ≤ 0x0F) || (decide (0x1D ≤ op) && decide (op ≤ 0x23)) || op == 0x27 ||
      (decide (0x3C ≤ op) && decide (op ≤ 0x3E))
  | .v => (vslot op).isSome

/-- R139: the writer and the reader of a queue. -/
def queueEnds (q : Nat) : StreamId × StreamId :=
  match q with
  | 0 => (.a, .v) | 1 => (.a, .v) | 2 => (.v, .a) | 3 => (.v, .a)
  | 4 => (.a, .m) | 5 => (.m, .a) | 6 => (.v, .m) | _ => (.m, .v)

/-- R139, R65: the narrower legality of queue words and of MWAIT. -/
def formLegal (k : StreamId) : Instr → Bool
  | .qput _ q _ => (queueEnds q.toNat).1 == k
  | .compactQput q _ => (queueEnds q.toNat).1 == k
  | .qget _ _ q => (queueEnds q.toNat).2 == k
  | .compactQget _ q => (queueEnds q.toNat).2 == k
  | .qflush _ q => (queueEnds q.toNat).2 == k
  | .brq _ q _ => (queueEnds q.toNat).2 == k
  | .qcount _ _ q => (queueEnds q.toNat).1 == k || (queueEnds q.toNat).2 == k
  | .mwait _ _ => k != .m
  | _ => true

def streamBit : StreamId → Nat
  | .a => 0 | .m => 1 | .v => 2

/-- R144, R149: the decode checks of a word's fields that depend on the stream. -/
def fieldsOk (g : Agent) : Instr → Bool
  | .csrr _ _ c => decide (0x800 ≤ c.toNat) && (!isFw g.slot || fwCsrExists c.toNat) || csrExists c.toNat
  | .csrw _ _ c | .csrwSet _ _ c | .csrwClr _ _ c =>
    if 0x800 ≤ c.toNat then !isFw g.slot || (fwCsrExists c.toNat && csrWritable true c.toNat)
    else csrExists c.toNat && csrWritable (isFw g.slot) c.toNat
  | .rdv _ m => bit m (streamBit g.st)
  | _ => true

/-- R67, R153: what only the per-core firmware contexts may use. -/
def privileged : Instr → Bool
  | .eret _ | .wfe _ | .stopack _ => true
  | .csrr _ _ c | .csrw _ _ c | .csrwSet _ _ c | .csrwClr _ _ c => decide (0x800 ≤ c.toNat)
  | _ => false

/-- R67: the word checks in order, after the decoder's own: code and sub-code of the first that fails. -/
def wordFault (g : Agent) (i : Instr) : Option (Nat × Nat) :=
  if !fieldsOk g i then some (Code.illegalOp, 4)
  else if (if isJob g.slot then !opLegal g.st i.op else !decide (i.op ≤ 0x24)) || !formLegal g.st i then
    some (Code.illegalStream, 0)
  else if privileged i && !isFw g.slot then some (Code.privilege, 0)
  else none

/-! ## Bundle groups and destinations (R58 to R60) -/

/-- R58: the group of an A-stream opcode: 1 control, 2 memory, 3 command, 4 synchronisation, 0 none. -/
def aGroup (op : Nat) : Nat :=
  if (0x0C ≤ op ∧ op ≤ 0x0E) ∨ op = 0x20 then 1
  else if 0x10 ≤ op ∧ op ≤ 0x1D then 2
  else if 0x25 ≤ op ∧ op ≤ 0x2D then 3
  else if op = 0x1E ∨ op = 0x1F ∨ (0x21 ≤ op ∧ op ≤ 0x24) then 4
  else 0

/-- A destination that a word names (R60). -/
inductive Dest where
  | x (n : Nat) | p (n : Nat) | v (n : Nat) | csr (n : Nat)
deriving DecidableEq, Repr

/-- R60: the destinations that a word names from its encoding, X0, P0 and P1 among none of them. -/
def destsRaw : Instr → List Dest
  | .add _ d .. | .sub _ d .. | .and _ d .. | .or _ d .. | .xor _ d .. | .shl _ d .. | .shr _ d .. | .sar _ d ..
  | .min _ d .. | .max _ d .. | .umin _ d .. | .umax _ d .. | .mul _ d .. | .mulh _ d .. | .umulh _ d ..
  | .div _ d .. | .udiv _ d .. | .rem _ d .. | .urem _ d .. | .clz _ d .. | .popc _ d .. | .brev _ d ..
  | .sextb _ d .. | .sexth _ d .. | .sextw _ d .. | .zextw _ d .. | .slt _ d .. | .uslt _ d ..
  | .addi _ d .. | .andi _ d .. | .ori _ d .. | .xori _ d .. | .shli _ d .. | .shri _ d .. | .sari _ d ..
  | .movi _ d .. | .ldlit _ d .. | .pcnt _ d .. | .ldb _ d .. | .ldh _ d .. | .ldw _ d .. | .ldd _ d ..
  | .amo _ d .. | .amow _ d .. | .cas _ d .. | .casw _ d .. | .asc _ d .. | .ascCas _ d .. | .sread _ d ..
  | .qget _ d .. | .qcount _ d .. | .csrr _ d .. | .taskadd _ d .. | .taskjoin _ d .. | .taskget _ d ..
  | .racq _ d .. | .rstat _ d .. | .ftest _ d .. | .fll _ d .. | .fsc _ d .. | .segnew _ d .. | .segatt _ d ..
  | .segqry _ d .. | .vext _ d .. | .vstp _ d .. | .vstat _ d .. => [.x d.toNat]
  | .compactAddX0 a _ | .compactAdd a _ | .compactSub a _ | .compactAnd a _ | .compactOr a _ | .compactXor a _
  | .compactAddi a _ | .compactMovi a _ | .compactShli a _ | .compactShri a _ | .compactSari a _
  | .compactLdd a _ | .compactQget a _ => [.x a.toNat]
  | .call _ _ | .callr _ _ => [.x 30]
  | .mstat _ _ d => [.x d.toNat]
  | .setlc _ _ _ => [.csr 0]
  | .cmp _ p .. | .cmpi _ p .. | .vcmp _ p .. => [.p (2 * p.toNat), .p (2 * p.toNat + 1)]
  | .pand _ d .. | .por _ d .. | .pxor _ d .. | .pandn _ d .. | .pnot _ d .. | .pmov _ d .. | .pbcast _ d .. => [.p d.toNat]
  | .csrw _ _ c | .csrwSet _ _ c | .csrwClr _ _ c => [.csr c.toNat]
  | .vadd _ d .. | .vsub _ d .. | .vmul _ d .. | .vfma _ d .. | .vfms _ d .. | .vfnma _ d .. | .vmax _ d .. | .vmin _ d ..
  | .vabs _ d .. | .vneg _ d .. | .vrcpe _ d .. | .vrsqe _ d .. | .vfloor _ d .. | .vrnd _ d .. | .vscale _ d ..
  | .viadd _ d .. | .visub _ d .. | .vimul _ d .. | .vand _ d .. | .vor _ d .. | .vxor _ d .. | .vshl _ d .. | .vsar _ d ..
  | .vmov _ d .. | .vsel _ d .. | .vclamp _ d .. | .vshr _ d .. | .vcvt _ d .. | .vradd _ d .. | .vrmax _ d ..
  | .vrmin _ d .. | .vraddx _ d .. | .vperm _ d .. | .vrot _ d .. | .vshft _ d .. | .vdup _ d .. | .vbc _ d ..
  | .vld _ d .. | .vldl _ d .. | .vcord _ d .. => [.v d.toNat]
  | .vwin .. => [.csr 0x103]
  | _ => []

def dests (i : Instr) : List Dest := (destsRaw i).filter fun d => d != .x 0 && d != .p 0 && d != .p 1

/-- R206: the V registers that a word names, as operands or destination; port operands name none. -/
def vregs : Instr → List Nat
  | .vadd _ d a b m | .vsub _ d a b m | .vmul _ d a b m | .vfma _ d a b m | .vfms _ d a b m | .vfnma _ d a b m
  | .vmax _ d a b m | .vmin _ d a b m | .vscale _ d a b m | .viadd _ d a b m | .visub _ d a b m | .vimul _ d a b m
  | .vand _ d a b m | .vor _ d a b m | .vxor _ d a b m | .vshl _ d a b m | .vsar _ d a b m | .vsel _ d a b m
  | .vclamp _ d a b m | .vshr _ d a b m | .vperm _ d a b m | .vrot _ d a b m | .vshft _ d a b m | .vdup _ d a b m =>
    if m = 0 then [d.toNat, a.toNat, b.toNat] else [d.toNat, a.toNat]
  | .vmov _ d b m => if m = 0 then [d.toNat, b.toNat] else [d.toNat]
  | .vabs _ d a | .vneg _ d a | .vrcpe _ d a | .vrsqe _ d a | .vfloor _ d a | .vrnd _ d a
  | .vradd _ d a | .vrmax _ d a | .vrmin _ d a | .vraddx _ d a => [d.toNat, a.toNat]
  | .vcvt _ d a _ _ _ => [d.toNat, a.toNat]
  | .vcord _ d a _ _ => [d.toNat, a.toNat]
  | .vcmp _ _ a b _ _ => [a.toNat, b.toNat]
  | .vbc _ d _ => [d.toNat]
  | .vext _ _ a _ => [a.toNat]
  | .vld _ d .. | .vst _ d .. | .vldl _ d .. | .vstl _ d .. => [d.toNat]
  | _ => []

/-! ## Running a word (R61, R62, R67, R109) -/

/-- The guard mask of a word. -/
def State.guard (s : State) (h : Hd) : BitVec 256 := s.readP h.g

/-- R61, R62: a word outside the vector and lane-mask slots executes when bit 0 of its guard is 1. -/
def State.on (s : State) (h : Hd) : Bool := bit (s.guard h) 0

/-- R67, R68: a word that may not run here raises its decode fault whatever its guard says; otherwise its effect
concludes. -/
def runWord (s : State) (i : Instr) (e : State → Eff) : Host.Outcome State Fault Refusal :=
  match wordFault s.me i with
  | some (c, sub) => .next (takeFault s (trapOf c sub s.myStream.pc))
  | none => conclude s (e s)

/-- R61, R109: a word whose guard is false has no effect. -/
def runGuarded (s : State) (i : Instr) (e : State → Eff) : Host.Outcome State Fault Refusal :=
  runWord s i fun s => if s.on i.hd then e s else .ok s

end Machine

end Sys2Proof
end

