-- ==== Sys2Proof/Machine/Scalar.lean ====
section
/-!
DEFINITION. Integer arithmetic, compares and predicates (R112 to R122), and the compact forms of them (R45).
-/

namespace Sys2Proof.Machine

/-- R112: the low word of a signed number shifted right by 64. -/
def highWord (v : Int) : Word := BitVec.ofInt 64 (v / 2 ^ 64)

/-- R113: signed division, truncating; a divisor of 0 gives all ones, and MINV ÷ −1 gives MINV. -/
def divSigned (a b : Word) : Word := if b = 0 then BitVec.allOnes 64 else BitVec.ofInt 64 (a.toInt.tdiv b.toInt)
def remSigned (a b : Word) : Word := if b = 0 then a else BitVec.ofInt 64 (a.toInt.tmod b.toInt)
def divUnsigned (a b : Word) : Word := if b = 0 then BitVec.allOnes 64 else BitVec.ofNat 64 (a.toNat / b.toNat)
def remUnsigned (a b : Word) : Word := if b = 0 then a else BitVec.ofNat 64 (a.toNat % b.toNat)

/-- How many of bits `n - 1 : 0` of a number are 1. -/
def onesBelow (v : Nat) : Nat → Nat
  | 0 => 0
  | n + 1 => b2n (v.testBit n) + onesBelow v n

/-- R113: the count of leading zero bits. -/
def leadingZeros (a : Word) : Word := if a = 0 then 64 else BitVec.ofNat 64 (63 - Nat.log2 a.toNat)

/-- R113: bit i of the result is bit 63 − i. -/
def reverseBits (v : Nat) : Nat → Nat
  | 0 => 0
  | n + 1 => b2n (v.testBit n) * 2 ^ (63 - n) + reverseBits v n

def signedMin (a b : Word) : Word := if a.slt b then a else b
def signedMax (a b : Word) : Word := if a.slt b then b else a
def unsignedMin (a b : Word) : Word := if a.ult b then a else b
def unsignedMax (a b : Word) : Word := if a.ult b then b else a

/-- A word of the ALU groups: Xd takes f(Xa, Xb) after `lat` bundles (R54, R111). -/
def alu (s : State) (i : Instr) (d a b : BitVec 5) (lat : Nat) (f : Word → Word → Word) :
    Host.Outcome State Fault Refusal :=
  runGuarded s i fun s => .ok (s.writeX d (f (s.readX a) (s.readX b)) lat)

/-- A word that computes Xd from one register. -/
def alu1 (s : State) (i : Instr) (d a : BitVec 5) (f : Word → Word) : Host.Outcome State Fault Refusal :=
  runGuarded s i fun s => .ok (s.writeX d (f (s.readX a)))

/-- R62: the predicate bits that a stream uses: all 256 in the V stream, bit 0 in the others. -/
def State.predMask (s : State) : BitVec 256 := if s.me.st = .v then BitVec.allOnes 256 else 1

/-- R119, R120: a scalar compare writes its pair, the odd predicate the complement of the even one; in the V stream each
as 256 equal bits (R62), the old value being bit 0 (log 32). -/
def compare (s : State) (i : Instr) (p : BitVec 3) (k : BitVec 2) (c : State → Bool) :
    Host.Outcome State Fault Refusal :=
  runGuarded s i fun s =>
    let old := spread (bit (s.readStream.readP (2 * p.toNat)) 0)
    let new := combineKind k.toNat old (spread (c s))
    .ok ((s.writeP (2 * p.toNat) new s.predMask).writeP (2 * p.toNat + 1) (~~~new) s.predMask)

/-- R122: a PLOG word writes Pd where its guard's bits are 1. -/
def plog (s : State) (i : Instr) (d : BitVec 4) (f : State → BitVec 256) : Host.Outcome State Fault Refusal :=
  runWord s i fun s => .ok (s.writeP d.toNat (f s) (s.guard i.hd &&& s.predMask))

/-- R112: ADD. -/
def execAdd (h : Hd) (d a b : BitVec 5) (s : State) : Host.Outcome State Fault Refusal :=
  alu s (.add h d a b) d a b 1 ((· + ·))

/-- R112: SUB. -/
def execSub (h : Hd) (d a b : BitVec 5) (s : State) : Host.Outcome State Fault Refusal :=
  alu s (.sub h d a b) d a b 1 ((· - ·))

/-- R112: AND. -/
def execAnd (h : Hd) (d a b : BitVec 5) (s : State) : Host.Outcome State Fault Refusal :=
  alu s (.and h d a b) d a b 1 ((· &&& ·))

/-- R112: OR. -/
def execOr (h : Hd) (d a b : BitVec 5) (s : State) : Host.Outcome State Fault Refusal :=
  alu s (.or h d a b) d a b 1 ((· ||| ·))

/-- R112: XOR. -/
def execXor (h : Hd) (d a b : BitVec 5) (s : State) : Host.Outcome State Fault Refusal :=
  alu s (.xor h d a b) d a b 1 ((· ^^^ ·))

/-- R112: SHL. -/
def execShl (h : Hd) (d a b : BitVec 5) (s : State) : Host.Outcome State Fault Refusal :=
  alu s (.shl h d a b) d a b 1 (fun x y => x <<< (y.toNat % 64))

/-- R112: SHR. -/
def execShr (h : Hd) (d a b : BitVec 5) (s : State) : Host.Outcome State Fault Refusal :=
  alu s (.shr h d a b) d a b 1 (fun x y => x >>> (y.toNat % 64))

/-- R112: SAR. -/
def execSar (h : Hd) (d a b : BitVec 5) (s : State) : Host.Outcome State Fault Refusal :=
  alu s (.sar h d a b) d a b 1 (fun x y => x.sshiftRight (y.toNat % 64))

/-- R112: MIN. -/
def execMin (h : Hd) (d a b : BitVec 5) (s : State) : Host.Outcome State Fault Refusal :=
  alu s (.min h d a b) d a b 1 (signedMin)

/-- R112: MAX. -/
def execMax (h : Hd) (d a b : BitVec 5) (s : State) : Host.Outcome State Fault Refusal :=
  alu s (.max h d a b) d a b 1 (signedMax)

/-- R112: UMIN. -/
def execUmin (h : Hd) (d a b : BitVec 5) (s : State) : Host.Outcome State Fault Refusal :=
  alu s (.umin h d a b) d a b 1 (unsignedMin)

/-- R112: UMAX. -/
def execUmax (h : Hd) (d a b : BitVec 5) (s : State) : Host.Outcome State Fault Refusal :=
  alu s (.umax h d a b) d a b 1 (unsignedMax)

/-- R112: MUL. -/
def execMul (h : Hd) (d a b : BitVec 5) (s : State) : Host.Outcome State Fault Refusal :=
  alu s (.mul h d a b) d a b 3 ((· * ·))

/-- R112: MULH. -/
def execMulh (h : Hd) (d a b : BitVec 5) (s : State) : Host.Outcome State Fault Refusal :=
  alu s (.mulh h d a b) d a b 3 (fun x y => highWord (x.toInt * y.toInt))

/-- R112: UMULH. -/
def execUmulh (h : Hd) (d a b : BitVec 5) (s : State) : Host.Outcome State Fault Refusal :=
  alu s (.umulh h d a b) d a b 3 (fun x y => BitVec.ofNat 64 (x.toNat * y.toNat / 2 ^ 64))

/-- R113: DIV. -/
def execDiv (h : Hd) (d a b : BitVec 5) (s : State) : Host.Outcome State Fault Refusal :=
  alu s (.div h d a b) d a b 22 (divSigned)

/-- R113: UDIV. -/
def execUdiv (h : Hd) (d a b : BitVec 5) (s : State) : Host.Outcome State Fault Refusal :=
  alu s (.udiv h d a b) d a b 22 (divUnsigned)

/-- R113: REM. -/
def execRem (h : Hd) (d a b : BitVec 5) (s : State) : Host.Outcome State Fault Refusal :=
  alu s (.rem h d a b) d a b 22 (remSigned)

/-- R113: UREM. -/
def execUrem (h : Hd) (d a b : BitVec 5) (s : State) : Host.Outcome State Fault Refusal :=
  alu s (.urem h d a b) d a b 22 (remUnsigned)

/-- R113: SLT. -/
def execSlt (h : Hd) (d a b : BitVec 5) (s : State) : Host.Outcome State Fault Refusal :=
  alu s (.slt h d a b) d a b 1 (fun x y => if x.slt y then 1 else 0)

/-- R113: USLT. -/
def execUslt (h : Hd) (d a b : BitVec 5) (s : State) : Host.Outcome State Fault Refusal :=
  alu s (.uslt h d a b) d a b 1 (fun x y => if x.ult y then 1 else 0)

/-- R113: CLZ. -/
def execClz (h : Hd) (d a : BitVec 5) (s : State) : Host.Outcome State Fault Refusal :=
  alu1 s (.clz h d a) d a (leadingZeros)

/-- R113: POPC. -/
def execPopc (h : Hd) (d a : BitVec 5) (s : State) : Host.Outcome State Fault Refusal :=
  alu1 s (.popc h d a) d a (fun x => BitVec.ofNat 64 (onesBelow x.toNat 64))

/-- R113: BREV. -/
def execBrev (h : Hd) (d a : BitVec 5) (s : State) : Host.Outcome State Fault Refusal :=
  alu1 s (.brev h d a) d a (fun x => BitVec.ofNat 64 (reverseBits x.toNat 64))

/-- R113: SEXTB. -/
def execSextb (h : Hd) (d a : BitVec 5) (s : State) : Host.Outcome State Fault Refusal :=
  alu1 s (.sextb h d a) d a (fun x => (x.setWidth 8).signExtend 64)

/-- R113: SEXTH. -/
def execSexth (h : Hd) (d a : BitVec 5) (s : State) : Host.Outcome State Fault Refusal :=
  alu1 s (.sexth h d a) d a (fun x => (x.setWidth 16).signExtend 64)

/-- R113: SEXTW. -/
def execSextw (h : Hd) (d a : BitVec 5) (s : State) : Host.Outcome State Fault Refusal :=
  alu1 s (.sextw h d a) d a (fun x => (x.setWidth 32).signExtend 64)

/-- R113: ZEXTW. -/
def execZextw (h : Hd) (d a : BitVec 5) (s : State) : Host.Outcome State Fault Refusal :=
  alu1 s (.zextw h d a) d a (fun x => (x.setWidth 32).setWidth 64)

/-- R114: ADDI. -/
def execAddi (h : Hd) (d a : BitVec 5) (i : BitVec 9) (s : State) : Host.Outcome State Fault Refusal :=
  alu1 s (.addi h d a i) d a (· + i.signExtend 64)

/-- R114: ANDI. -/
def execAndi (h : Hd) (d a : BitVec 5) (i : BitVec 9) (s : State) : Host.Outcome State Fault Refusal :=
  alu1 s (.andi h d a i) d a (· &&& i.signExtend 64)

/-- R114: ORI. -/
def execOri (h : Hd) (d a : BitVec 5) (i : BitVec 9) (s : State) : Host.Outcome State Fault Refusal :=
  alu1 s (.ori h d a i) d a (· ||| i.signExtend 64)

/-- R114: XORI. -/
def execXori (h : Hd) (d a : BitVec 5) (i : BitVec 9) (s : State) : Host.Outcome State Fault Refusal :=
  alu1 s (.xori h d a i) d a (· ^^^ i.signExtend 64)

/-- R115: SHLI. -/
def execShli (h : Hd) (d a : BitVec 5) (n : BitVec 6) (s : State) : Host.Outcome State Fault Refusal :=
  alu1 s (.shli h d a n) d a (· <<< n.toNat)

/-- R115: SHRI. -/
def execShri (h : Hd) (d a : BitVec 5) (n : BitVec 6) (s : State) : Host.Outcome State Fault Refusal :=
  alu1 s (.shri h d a n) d a (· >>> n.toNat)

/-- R115: SARI. -/
def execSari (h : Hd) (d a : BitVec 5) (n : BitVec 6) (s : State) : Host.Outcome State Fault Refusal :=
  alu1 s (.sari h d a n) d a (·.sshiftRight n.toNat)

/-- R116: MOVI. -/
def execMovi (h : Hd) (d : BitVec 5) (i : BitVec 14) (s : State) : Host.Outcome State Fault Refusal :=
  runGuarded s (.movi h d i) fun s => .ok (s.writeX d (i.signExtend 64))

/-- R118: SETLC writes LC; the new value governs only blocks entered after it. -/
def execSetlc (h : Hd) (a : BitVec 5) (i : BitVec 9) (s : State) : Host.Outcome State Fault Refusal :=
  runGuarded s (.setlc h a i) fun s =>
    .ok (s.modMyStream ({ · with lc := (s.readX a + i.signExtend 64).setWidth 32 }))

/-- R119: CMP; BSET and BCLR take the bit number from b bits 5:0. -/
def execCmp (h : Hd) (p : BitVec 3) (a b : BitVec 5) (c : BitVec 4) (k : BitVec 2) (s : State) : Host.Outcome State Fault Refusal :=
  compare s (.cmp h p a b c k) p k fun s => scalarCond c.toNat (s.readX a) (s.readX b) ((s.readX b).toNat % 64)

/-- R119: CMPI; BSET and BCLR read imm5 as an unsigned bit number. -/
def execCmpi (h : Hd) (p : BitVec 3) (a i : BitVec 5) (c : BitVec 4) (k : BitVec 2) (s : State) : Host.Outcome State Fault Refusal :=
  compare s (.cmpi h p a i c k) p k fun s => scalarCond c.toNat (s.readX a) (i.signExtend 64) i.toNat

/-- R122: PAND. -/
def execPand (h : Hd) (d a b : BitVec 4) (s : State) : Host.Outcome State Fault Refusal :=
  plog s (.pand h d a b) d fun s => s.readP a &&& s.readP b

/-- R122: POR. -/
def execPor (h : Hd) (d a b : BitVec 4) (s : State) : Host.Outcome State Fault Refusal :=
  plog s (.por h d a b) d fun s => s.readP a ||| s.readP b

/-- R122: PXOR. -/
def execPxor (h : Hd) (d a b : BitVec 4) (s : State) : Host.Outcome State Fault Refusal :=
  plog s (.pxor h d a b) d fun s => s.readP a ^^^ s.readP b

/-- R122: PANDN. -/
def execPandn (h : Hd) (d a b : BitVec 4) (s : State) : Host.Outcome State Fault Refusal :=
  plog s (.pandn h d a b) d fun s => s.readP a &&& ~~~(s.readP b)

/-- R122: PNOT. -/
def execPnot (h : Hd) (d a : BitVec 4) (s : State) : Host.Outcome State Fault Refusal :=
  plog s (.pnot h d a) d fun s => ~~~(s.readP a)

/-- R122: PMOV. -/
def execPmov (h : Hd) (d a : BitVec 4) (s : State) : Host.Outcome State Fault Refusal :=
  plog s (.pmov h d a) d fun s => s.readP a

/-- R122: PBCAST. -/
def execPbcast (h : Hd) (d a : BitVec 4) (s : State) : Host.Outcome State Fault Refusal :=
  plog s (.pbcast h d a) d fun s => spread (bit (s.readP a) 0)

/-- R122: PCNT counts the predicate bits that the stream uses. -/
def execPcnt (h : Hd) (d : BitVec 5) (a : BitVec 4) (s : State) : Host.Outcome State Fault Refusal :=
  runGuarded s (.pcnt h d a) fun s =>
    .ok (s.writeX d (BitVec.ofNat 64 (onesBelow (s.readP a &&& s.predMask).toNat 256)) 2)

/-! ## Compact forms (R44, R45) -/

/-- R45: ADD Xa, Xb, X0. -/
def execCompactAddX0 (a b : BitVec 5) (s : State) : Host.Outcome State Fault Refusal :=
  alu s (.compactAddX0 a b) a b 0 1 (· + ·)

/-- R45: ADD Xa, Xa, Xb. -/
def execCompactAdd (a b : BitVec 5) (s : State) : Host.Outcome State Fault Refusal :=
  alu s (.compactAdd a b) a a b 1 (· + ·)

/-- R45: SUB Xa, Xa, Xb. -/
def execCompactSub (a b : BitVec 5) (s : State) : Host.Outcome State Fault Refusal :=
  alu s (.compactSub a b) a a b 1 (· - ·)

/-- R45: AND Xa, Xa, Xb. -/
def execCompactAnd (a b : BitVec 5) (s : State) : Host.Outcome State Fault Refusal :=
  alu s (.compactAnd a b) a a b 1 (· &&& ·)

/-- R45: OR Xa, Xa, Xb. -/
def execCompactOr (a b : BitVec 5) (s : State) : Host.Outcome State Fault Refusal :=
  alu s (.compactOr a b) a a b 1 (· ||| ·)

/-- R45: XOR Xa, Xa, Xb. -/
def execCompactXor (a b : BitVec 5) (s : State) : Host.Outcome State Fault Refusal :=
  alu s (.compactXor a b) a a b 1 (· ^^^ ·)

/-- R45: ADDI Xa, Xa, b. -/
def execCompactAddi (a i : BitVec 5) (s : State) : Host.Outcome State Fault Refusal :=
  alu1 s (.compactAddi a i) a a (· + i.signExtend 64)

/-- R45: MOVI Xa, b. -/
def execCompactMovi (a i : BitVec 5) (s : State) : Host.Outcome State Fault Refusal :=
  runGuarded s (.compactMovi a i) fun s => .ok (s.writeX a (i.signExtend 64))

/-- R45: SHLI Xa, Xa, b. -/
def execCompactShli (a n : BitVec 5) (s : State) : Host.Outcome State Fault Refusal :=
  alu1 s (.compactShli a n) a a (· <<< n.toNat)

/-- R45: SHRI Xa, Xa, b. -/
def execCompactShri (a n : BitVec 5) (s : State) : Host.Outcome State Fault Refusal :=
  alu1 s (.compactShri a n) a a (· >>> n.toNat)

/-- R45: SARI Xa, Xa, b. -/
def execCompactSari (a n : BitVec 5) (s : State) : Host.Outcome State Fault Refusal :=
  alu1 s (.compactSari a n) a a (·.sshiftRight n.toNat)

end Sys2Proof.Machine
end

