-- ==== Sys2Proof/Machine/Control.lean ====
section
/-!
DEFINITION. Blocks, transfers, semaphores, queues and system operations (chapters 02 and 04).
-/

namespace Sys2Proof.Machine

/-! ## Rows of tiles, and results landing (R54, R55, R205) -/

/-- The 512 bytes of a physical row (64 × tile + row) as held in a core's tile words. -/
def rowOf (tiles : Sparse (BitVec 32)) (r : Nat) : Row :=
  BitVec.ofNat 4096 ((upTo 0 128).foldr (fun i acc => (sget tiles 0 (r * 128 + i)).toNat + acc * 2 ^ 32) 0)

/-- Writes the bits of a row that `en` masks; a tile word of 0 is not listed. -/
def setRow (tiles : Sparse (BitVec 32)) (r : Nat) (v en : Row) : Sparse (BitVec 32) :=
  (upTo 0 128).foldl (fun t i =>
    let m : BitVec 32 := en.extractLsb' (32 * i) 32
    if m = 0 then t
    else
      let w := (sget t 0 (r * 128 + i) &&& ~~~m) ||| (v.extractLsb' (32 * i) 32 &&& m)
      if w = 0 then sdel t (r * 128 + i) else sput t (r * 128 + i) w) tiles

/-- R207, R236: raises sticky flags of the job slot, remembering those of the bundle at hand. -/
def State.raise (s : State) (f : VFlags) : State :=
  let s1 := s.modMySlot fun t => { t with vflags := t.vflags ||| f }
  { s1 with issue := { s1.issue with flags := s1.issue.flags ||| f } }

/-- A pending value lands: in its register, or in its tile row; its flags are raised. -/
def landOne (s : State) (p : Pend) : State :=
  let s1 := match p.val with
    | .row r v en => s.modCore s.myCore fun c => { c with tiles := setRow c.tiles r v en }
    | w => s.modMyStream (·.land w)
  if p.flags = 0 then s1 else s1.modMySlot fun t => { t with vflags := t.vflags ||| p.flags }

def landList (s : State) : List Pend → State
  | [] => s
  | p :: ps => landList (landOne s p) ps

/-- R56, R150: every result in flight to the stream's registers lands, oldest first. -/
def drainPending (s : State) : State :=
  match s.myStream.pend with
  | [] => s
  | ps => (landList s ps).modMyStream ({ · with pend := [] })

/-- R54, R55: a bundle has issued: the counts of the results in flight fall by one, and those that reach 0 land. -/
def countPending (s : State) : State :=
  match s.myStream.pend with
  | [] => s
  | ps =>
    let ps' := ps.map fun p => { p with remain := p.remain - 1 }
    (landList s (ps'.filter (·.remain == 0))).modMyStream ({ · with pend := ps'.filter (·.remain != 0) })

/-! ## Fetching and blocks (R46 to R52) -/

/-- The bytes of a fetch (R52, R126): class 0, X permission; bytes whose check fails are not run (R497). -/
def fetchBytes (s : State) (g : Agent) (addr : Word) (n : Nat) : Except Trap (List Byte) :=
  match resolve s (agentReq s g) .x addr addr n with
  | .error t => .error { t with pc := none }
  | .ok ps => if ps.any (touchesPoison s) then .error badRead else .ok (piecesBytes s ps)

/-- R335, R343: a fetch of `n` bytes reaches the L2. -/
def fetched (s : State) (g : Agent) (addr : Word) (n : Nat) : State :=
  match resolve s (agentReq s g) .x addr addr n with
  | .error _ => s
  | .ok ps => readUses s (agentReq s g) addr.toNat n ps

def fetchParcel (s : State) (g : Agent) (addr : Word) : Except Trap Parcel :=
  (fetchBytes s g addr 2).map fun bs => parcelOf (bs.getD 0 0) (bs.getD 1 0)

/-- R117: the current block's header. -/
def Stream.header (t : Stream) : Word :=
  match t.blk with
  | some b => b.hdr
  | none => t.pc

/-- R124: the header that follows the current block. -/
def Stream.nextHeader (t : Stream) : Word :=
  match t.blk with
  | some b => b.hdr + 4 + BitVec.ofNat 64 (2 * b.len)
  | none => t.pc + 4

/-- R51, R237: the passes that decide the stage predicates: N, or c + 1 in an early epilogue. -/
def Block.iterations (b : Block) : Nat := b.drain.getD b.n

/-- R50: how many passes the block runs. -/
def Block.passes (b : Block) : Nat := if b.stg then b.iterations + b.stages else b.n

/-- R51: the stage predicates of the pass about to begin, written under the RRB in force. -/
def Stream.stagePreds (t : Stream) (b : Block) : Stream :=
  if b.stg then
    (upTo 0 (b.stages + 1)).foldl (fun t j =>
      { t with p := t.p.setIfInBounds (physP t.rrb (8 + j)) (spread (decide (j ≤ b.k) && decide (b.k - j < b.iterations))) }) t
  else t

/-- R50: the block is over: the stream goes on at the next header; an early epilogue that leaves iterations unbegun
records them and leaves the stream at the block's own header (R237). -/
def Stream.leaveBlock (t : Stream) (b : Block) : Stream :=
  match b.drain with
  | some d =>
    if d < b.n then
      { t with blk := none, pc := b.hdr, arrival := .transfer, iterPend := true, iterCnt := BitVec.ofNat 32 (b.n - d) }
    else { t with blk := none, pc := t.nextHeader, arrival := .fall }
  | none => { t with blk := none, pc := t.nextHeader, arrival := .fall }

/-- R50, R51: a pass has ended. -/
def Stream.endPass (t : Stream) (b : Block) : Stream :=
  let t1 := if b.rot then { t with rrb := t.rrb + 1 } else t
  let b1 := { b with k := b.k + 1, pos := 0 }
  if b1.k < b1.passes then { t1 with blk := some b1, pc := b.hdr + 4 }.stagePreds b1
  else t1.leaveBlock b

/-- R239: the stream resumes a software-pipelined block whose iterations a stop has left unbegun. -/
def Stream.resumes (t : Stream) (stg : Bool) : Bool := t.iterPend && stg

/-- R46, R49, R239, R498: the block that a stream enters, its pass count fixed. -/
def Stream.enteredBlock (t : Stream) (h : Word) (rot exp stg : Bool) (stages len n : Nat) : Block :=
  { hdr := h, rot := rot, exp := exp, stg := stg, stages := stages, len := len
    n := if t.resumes stg then t.iterCnt.toNat else match t.reenter with
      | some (_, m) => m
      | none => if n = 0 then t.lc.toNat else n
    k := match t.reenter with | some (j, _) => j | none => 0
    pos := 0, body := [], drain := none }

/-- What a restart has left for the block is used up at its entry. -/
def Stream.atEntry (t : Stream) (b : Block) : Stream :=
  { t with iterPend := false, reenter := none, rrb := if t.resumes b.stg then t.rrb - BitVec.ofNat 8 b.stages else t.rrb }

/-- R46 to R52, R239: entry to a block. The stream changes its mode, with what R56 drains, only for a block that has a bundle to
issue. -/
def execBlockHeader (r e t : BitVec 1) (k : BitVec 3) (l : BitVec 10) (n : BitVec 12) (s : State) :
    Host.Outcome State Fault Refusal :=
  let h := s.myStream.pc
  if l = 0 ∨ (t = 1 ∧ r = 0) ∨ (t = 0 ∧ k ≠ 0) then conclude s (.trap (trapOf Code.illegalOp 6 h))
  else
    let b := s.myStream.enteredBlock h (r == 1) (e == 1) (t == 1) (if t = 1 then k.toNat else 0) l.toNat n.toNat
    if b.passes ≤ b.k then
      .next <| s.modMyStream fun st =>
        { st.atEntry b with blk := none, pc := h + 4 + BitVec.ofNat 64 (2 * l.toNat), arrival := .fall }
    else
      let s1 := if s.myStream.exposed = b.exp then s else drainPending s
      .next <| s1.modMyStream fun st =>
        { st.atEntry b with exposed := b.exp, blk := some b, pc := h + 4, arrival := .fall }.stagePreds b

/-! ## Transfers (R123 to R126) -/

/-- Takes a transfer: the block is left, and RRB does not advance for the abandoned pass (R50). -/
def State.goto (s : State) (target : Word) : State :=
  let s1 := s.modMyStream fun t => { t with blk := none, pc := target, arrival := .transfer }
  { s1 with issue := { s1.issue with outcome := .branched } }

/-- R50, R126: the stream goes to the target; one that is no header, or that cannot be fetched, faults there, with the target as the
record's PC (log 14). -/
def transfer (s : State) (target : Word) : Eff := .ok (s.goto target)

/-- The branch target H + 2 × off (R63). -/
def branchTarget {w : Nat} (s : State) (o : BitVec w) : Word := s.readStream.header + (o.signExtend 64) * 2

def execBr (h : Hd) (o : BitVec 19) (s : State) : Host.Outcome State Fault Refusal :=
  runGuarded s (.br h o) fun s => transfer s (branchTarget s o)

/-- R124: CALL writes X30 with the header that follows the current block. -/
def execCall (h : Hd) (o : BitVec 19) (s : State) : Host.Outcome State Fault Refusal :=
  runGuarded s (.call h o) fun s => transfer (s.writeX 30 s.readStream.nextHeader) (branchTarget s o)

def execJmp (h : Hd) (a : BitVec 5) (s : State) : Host.Outcome State Fault Refusal :=
  runGuarded s (.jmp h a) fun s => transfer s (s.readX a)

/-- R125: the target is read before X30 is written. -/
def execCallr (h : Hd) (a : BitVec 5) (s : State) : Host.Outcome State Fault Refusal :=
  runGuarded s (.callr h a) fun s => transfer (s.writeX 30 s.readStream.nextHeader) (s.readX a)

def execRet (h : Hd) (s : State) : Host.Outcome State Fault Refusal :=
  runGuarded s (.ret h) fun s => transfer s (s.readX 30)

/-! ## Fences (R135) -/

/-- R259, R263: a retirement of the slot at hand is on its core's retire port, or waits for it. -/
def retiring (s : State) : Bool := (s.core s.myCore).port.any fun r => r.slot == s.me.slot

/-- R135: every access of a stream performs when its word executes, in program order (log 8), so that a fence orders nothing that is
not ordered already but the writes of the retirements that the M stream has started: there it holds its bundle until they
have been made. -/
def execFence (h : Hd) (m : BitVec 16) (e : BitVec 3) (s : State) : Host.Outcome State Fault Refusal :=
  runGuarded s (.fence h m e) fun s =>
    if m ≠ 0 ∧ isJob s.me.slot ∧ s.me.st = .m ∧ retiring s then .hold s else .ok s

/-! ## Semaphores (R136 to R138) -/

def Slot.semAt (t : Slot) (n : Nat) : BitVec 32 := sget t.sem 0 n
def Slot.setSem (t : Slot) (n : Nat) (v : BitVec 32) : Slot := { t with sem := sput t.sem n v }

/-- R137: an addition to a semaphore of a slot; none where the result would exceed 32 bits. -/
def Slot.addSem (t : Slot) (n v : Nat) : Option Slot :=
  if 2 ^ 32 ≤ (t.semAt n).toNat + v then none else some (t.setSem n (BitVec.ofNat 32 ((t.semAt n).toNat + v)))

/-- R137: an addition by a stream; an overflow faults the bundle. -/
def semAdd (s : State) (n v : Nat) : Eff :=
  match s.mySlot.addSem n v with
  | some t => .ok (s.setSlot s.me.slot t)
  | none => .trap (trapOf Code.semOverflow 0)

def execSadd (h : Hd) (n : BitVec 6) (a : BitVec 5) (s : State) : Host.Outcome State Fault Refusal :=
  runGuarded s (.sadd h n a) fun s => semAdd s n.toNat ((s.readX a).toNat % 2 ^ 32)

def execSaddi (h : Hd) (n : BitVec 6) (i : BitVec 5) (s : State) : Host.Outcome State Fault Refusal :=
  runGuarded s (.saddi h n i) fun s => semAdd s n.toNat i.toNat

def execCompactSaddi (n i : BitVec 5) (s : State) : Host.Outcome State Fault Refusal :=
  runGuarded s (.compactSaddi n i) fun s => semAdd s n.toNat i.toNat

/-- R136: SWAIT waits until S ≥ Xa; S is unchanged. -/
def execSwait (h : Hd) (n : BitVec 6) (a : BitVec 5) (s : State) : Host.Outcome State Fault Refusal :=
  runGuarded s (.swait h n a) fun s =>
    let want : BitVec 32 := (s.readX a).setWidth 32
    if want.toNat ≤ (s.mySlot.semAt n.toNat).toNat then .ok s else .wait 3 n.toNat want

def execSread (h : Hd) (d : BitVec 5) (n : BitVec 6) (s : State) : Host.Outcome State Fault Refusal :=
  runGuarded s (.sread h d n) fun s => .ok (s.writeX d ((s.mySlot.semAt n.toNat).setWidth 64))

def execSset (h : Hd) (n : BitVec 6) (a : BitVec 5) (s : State) : Host.Outcome State Fault Refusal :=
  runGuarded s (.sset h n a) fun s => .ok (s.modMySlot (·.setSem n.toNat ((s.readX a).setWidth 32)))

/-! ## Architectural queues (R139 to R142) -/

def Slot.queue (t : Slot) (q : Nat) : List Word := sget t.q [] q
def Slot.setQueue (t : Slot) (q : Nat) (l : List Word) : Slot := { t with q := sput t.q q l }

/-- R140: QPUT appends, and waits while the queue holds 16 entries. -/
def queuePut (s : State) (q : Nat) (v : Word) : Eff :=
  let l := s.mySlot.queue q
  if 16 ≤ l.length then .wait 2 q 0 else .ok (s.modMySlot (·.setQueue q (l ++ [v])))

/-- R140: takes the oldest entry, or waits while the queue is empty. -/
def queueGet (s : State) (q : Nat) (k : State → Word → Eff) : Eff :=
  match s.mySlot.queue q with
  | [] => .wait 1 q 0
  | v :: l => k (s.modMySlot (·.setQueue q l)) v

def execQput (h : Hd) (q : BitVec 3) (a : BitVec 5) (s : State) : Host.Outcome State Fault Refusal :=
  runGuarded s (.qput h q a) fun s => queuePut s q.toNat (s.readX a)

def execCompactQput (q : BitVec 3) (b : BitVec 5) (s : State) : Host.Outcome State Fault Refusal :=
  runGuarded s (.compactQput q b) fun s => queuePut s q.toNat (s.readX b)

def execQget (h : Hd) (d : BitVec 5) (q : BitVec 3) (s : State) : Host.Outcome State Fault Refusal :=
  runGuarded s (.qget h d q) fun s => queueGet s q.toNat fun s v => .ok (s.writeX d v)

def execCompactQget (a : BitVec 5) (q : BitVec 3) (s : State) : Host.Outcome State Fault Refusal :=
  runGuarded s (.compactQget a q) fun s => queueGet s q.toNat fun s v => .ok (s.writeX a v)

def execQcount (h : Hd) (d : BitVec 5) (q : BitVec 3) (s : State) : Host.Outcome State Fault Refusal :=
  runGuarded s (.qcount h d q) fun s => .ok (s.writeX d (BitVec.ofNat 64 (s.mySlot.queue q.toNat).length))

def execQflush (h : Hd) (q : BitVec 3) (s : State) : Host.Outcome State Fault Refusal :=
  runGuarded s (.qflush h q) fun s => .ok (s.modMySlot (·.setQueue q.toNat []))

/-- R141: BRQ removes the oldest entry and branches when it is non-zero. -/
def execBrq (h : Hd) (q : BitVec 3) (o : BitVec 16) (s : State) : Host.Outcome State Fault Refusal :=
  runGuarded s (.brq h q o) fun s => queueGet s q.toNat fun s v =>
    if v = 0 then .ok s else transfer s (branchTarget s o)

/-! ## System operations (R148 to R152) -/

def execNop (h : Hd) (s : State) : Host.Outcome State Fault Refusal := runGuarded s (.nop h) fun s => .ok s
def execCompactNop (s : State) : Host.Outcome State Fault Refusal := runGuarded s .compactNop fun s => .ok s

/-- R150: END: the results in flight land, and the stream stops. -/
def endStream (s : State) : Eff :=
  let s1 := (drainPending s).modMyStream ({ · with ended := true, blk := none })
  .ok { s1 with issue := { s1.issue with outcome := .ended } }

def execSysEnd (h : Hd) (s : State) : Host.Outcome State Fault Refusal := runGuarded s (.sysEnd h) endStream
def execCompactEnd (s : State) : Host.Outcome State Fault Refusal := runGuarded s .compactEnd endStream

/-- R148: TRAP raises SOFTWARE; its code stands in bits 13:0 of the status word. -/
def execTrap (h : Hd) (c : BitVec 14) (s : State) : Host.Outcome State Fault Refusal :=
  runGuarded s (.trap h c) fun _ => .trap { code := Code.software, sub := c.setWidth 64 }

def execBkpt (h : Hd) (s : State) : Host.Outcome State Fault Refusal :=
  runGuarded s (.bkpt h) fun _ => .trap { code := Code.brk }

/-- Whether a stream stands in a wait of a kind on an object. -/
def Stream.waitsOn (t : Stream) (kind obj : Nat) : Bool :=
  match t.wait with
  | some w => w.kind == kind && w.obj == obj
  | none => false

/-- R149: how many RDVs of a mask a stream has reached. -/
def Stream.rdvReached (t : Stream) (m : Nat) : Nat := sget t.rdv 0 m + b2n (t.waitsOn 6 m)

/-- R149: RDV completes when every stream of the mask has reached its n-th RDV with that mask. -/
def execRdv (h : Hd) (m : BitVec 3) (s : State) : Host.Outcome State Fault Refusal :=
  runGuarded s (.rdv h m) fun s =>
    let n := sget s.myStream.rdv 0 m.toNat + 1
    let there (k : StreamId) : Bool :=
      !bit m (streamBit k) || k == s.me.st || decide (n ≤ (s.mySlot.stream k).rdvReached m.toNat)
    if there .a && there .m && there .v then
      .ok (s.modMyStream fun t => { t with rdv := sput t.rdv m.toNat n })
    else .wait 6 m.toNat 0

/-- R151: how many LBARs of a level a stream has reached. -/
def Stream.lbarReached (t : Stream) (k : Nat) : Nat := sget t.lbar 0 k + b2n (t.waitsOn 7 k)

/-- R151: how many jobs a level-k group of a launch has. -/
def groupSize (l : Launch) (k : Nat) : Nat := (l.levels.drop k).foldl (fun n e => n * e.fanout) 1

/-- R151: the level-k group of the executing job: the jobs that share its node at level k. -/
def sameGroup (t u : Slot) (k : Nat) : Bool :=
  u.state != .free && u.launch == t.launch && u.levelIdx.take k == t.levelIdx.take k

/-- R151: the members of a group that have reached their n-th LBAR of a level: those in slots, and those that have left theirs since. -/
def lbarMembers (s : State) (l : Launch) (t : Slot) (me : Agent) (k n : Nat) : Nat :=
  (s.slots.filter fun e =>
      sameGroup t e.2 k && (e.1 == me.slot || decide (n ≤ (e.2.stream me.st).lbarReached k))).length +
    (l.arrived.filter fun a => a.path.take k == t.levelIdx.take k && a.st == me.st && a.level == k && decide (n ≤ a.count)).length

/-- R151: what the streams of a job have reached stands with its launch when the job leaves its slot. -/
def keepArrivals (s : State) (slot : Nat) : State :=
  let t := s.slot slot
  let of_ (k : StreamId) : List Arrived :=
    (upTo 0 8).filterMap fun j =>
      let n := (t.stream k).lbarReached j
      if n = 0 then none else some { path := t.levelIdx, st := k, level := j, count := n, done := sget (t.stream k).lbar 0 j }
  if !t.coresident ∨ !t.job.leafv then s
  else match sfind s.launches t.launch with
    | none => s
    | some l => { s with launches := sput s.launches t.launch { l with arrived := l.arrived ++ of_ .a ++ of_ .m ++ of_ .v } }

/-- R151: the barriers that a stream of a job which is back in a slot has completed. -/
def Launch.lbarsOf (l : Launch) (path : List Word) (st : StreamId) : Sparse Nat :=
  (l.arrived.filter fun a => a.path == path && a.st == st).foldl (fun m a => sput m a.level a.done) []

/-- A job that is back in a slot counts there again. -/
def dropArrivals (s : State) (slot : Nat) : State :=
  let t := s.slot slot
  match sfind s.launches t.launch with
  | none => s
  | some l =>
    let back (u : Stream) (k : StreamId) : Stream := { u with lbar := l.lbarsOf t.levelIdx k }
    { s with launches := sput s.launches t.launch { l with arrived := l.arrived.filter (·.path != t.levelIdx) } }.setSlot slot
      { t with a := back t.a .a, m := back t.m .m, v := back t.v .v }

/-- R151: LBAR k joins the stream with the streams of its kind in the jobs of its level-k group. -/
def execLbar (h : Hd) (k : BitVec 3) (s : State) : Host.Outcome State Fault Refusal :=
  runGuarded s (.lbar h k) fun s =>
    let t := s.mySlot
    match s.launch t.launch with
    | none => .trap (trapOf Code.coschedule 3)
    | some l =>
      if !t.coresident ∨ l.levels.length ≤ k.toNat ∨ !t.job.leafv then .trap (trapOf Code.coschedule 3)
      else
        let n := sget s.myStream.lbar 0 k.toNat + 1
        if groupSize l k.toNat ≤ lbarMembers s l t s.me k.toNat n then
          .ok (s.modMyStream fun st => { st with lbar := sput st.lbar k.toNat n })
        else .wait 7 k.toNat 0

/-- R466, R474: a stop of a job slot is requested: the task queue asks for it, or firmware is stopping it. -/
def stopAsked (s : State) (slot : Nat) : Bool :=
  isJob slot && ((s.slot slot).state == .stopping || bit (s.core (slot / 2)).fw.event (3 + slot % 2))

/-- R152: MWAIT waits while the monitor is armed on Xa's line and no other agent has written it; it disarms it. -/
def execMwait (h : Hd) (a : BitVec 5) (s : State) : Host.Outcome State Fault Refusal :=
  runGuarded s (.mwait h a) fun s =>
    let addr := s.readX a
    match resolve s (myReq s) .r addr addr 1 with
    | .error t => .trap t
    | .ok ps =>
      let line := (ps.head?.map fun p => p.key / 128).getD 0
      let held := match s.myStream.monitor with
        | some m => m.line == line && !m.written
        | none => false
      if held && !stopAsked s s.me.slot then .wait 8 0 (addr.setWidth 32)
      else .ok (s.modMyStream ({ · with monitor := none }))

/-- R152: a waiting MWAIT completes after 50 µs: its monitor counts as written, and the bundle issues. -/
def execMwaitTimeout (slot : Nat) (st : StreamId) (s : State) : Host.Outcome State Fault Refusal :=
  let g : Agent := ⟨slot, st⟩
  let t := s.stream g
  match t.wait, t.monitor with
  | some w, some m =>
    if w.kind = 8 ∧ 50 * us ≤ s.tick - w.since then .next (s.setStream g { t with monitor := some { m with written := true } })
    else .next s
  | _, _ => .next s

end Sys2Proof.Machine
end

