-- ==== Sys2Proof/Machine/Controllers.lean ====
section
/-!
DEFINITION. The embedded controllers (chapter 18): placing an image (R512, R78), the local maps (R513), the channel
registers (R514 to R518), and UPDSIG with the course of a switch (R523 to R526).
-/

namespace Sys2Proof.Machine

/-! ## UZO objects (R76 to R79) -/

/-- A little-endian field of some bytes. -/
def bnat (bs : List Byte) (off n : Nat) : Nat := bytesNat ((bs.drop off).take n)

def align (n a : Nat) : Nat := (n + a - 1) / a * a

/-- R76: section `i`: its file offset and its size. -/
def uzoSect (bs : List Byte) (i : Nat) : Nat × Nat := (bnat bs (24 + 16 * i) 8, bnat bs (32 + 16 * i) 8)

/-- R512: the local addresses of a controller image's sections: .text.a, .lit, .data in that order, 128-byte aligned. -/
def uzoBase (bs : List Byte) (i : Nat) : Nat :=
  let lit := align (uzoSect bs 0).2 128
  match i with
  | 0 => 0
  | 3 => lit
  | 4 => align (lit + (uzoSect bs 3).2) 128
  | _ => 0

def uzoBytes (bs : List Byte) (i : Nat) : List Byte :=
  let (o, n) := uzoSect bs i
  (bs.drop o).take n

/-- Replaces bytes of a list from an offset on. -/
def patch (bs : List Byte) (off : Nat) (new : List Byte) : List Byte := bs.take off ++ new ++ bs.drop (off + new.length)

/-- R78: the low `k` bits of the instruction word at an offset (two parcels, the high half first). -/
def patchWord (bs : List Byte) (off k : Nat) (v : Int) : List Byte :=
  let w := bnat bs off 2 * 65536 + bnat bs (off + 2) 2
  let w1 := w / 2 ^ k * 2 ^ k + (v % 2 ^ k).toNat
  patch bs off (natBytes 2 (w1 / 65536) ++ natBytes 2 (w1 % 65536))

def fitsSigned (v : Int) (k : Nat) : Bool := decide (-(2 ^ (k - 1) : Int) ≤ v) && decide (v < 2 ^ (k - 1))

/-- R78: one relocation over the image's local bytes; none where its check fails or its type is reserved. -/
def relocate (type off : Nat) (sa : Int) (h : Nat) (bs : List Byte) : Option (List Byte) :=
  let word (k : Nat) (v : Int) (ok : Bool) : Option (List Byte) := if ok then some (patchWord bs off k v) else none
  match type with
  | 1 => some (patch bs off (natBytes 8 (sa % 2 ^ 64).toNat))
  | 2 => let d := sa - h; word 19 (d / 2) (d % 2 == 0 && fitsSigned (d / 2) 19)
  | 3 => let d := sa - (h / 8 * 8 : Nat); word 14 (d / 8) (sa % 8 == 0 && fitsSigned (d / 8) 14)
  | 4 => word 14 sa (fitsSigned sa 14)
  | 5 => word 9 sa (fitsSigned sa 9)
  | 6 => word 14 sa true
  | 7 => word 14 (sa / 2 ^ 14) true
  | 8 => let d := sa - h; word 16 (d / 2) (d % 2 == 0 && fitsSigned (d / 2) 16)
  | 9 => if 0 ≤ sa ∧ sa < 2 ^ 32 then some (patch bs off (natBytes 4 sa.toNat)) else none
  | 10 => word 14 (sa / 2 ^ 28) true
  | 11 => word 14 (sa / 2 ^ 42) true
  | _ => none

/-- R77, R78: entry `i` of the relocation table, applied: the value of an absolute symbol is signed, and a symbol that no entry names
is not looked at (log 168). A field of .slots is checked, and lies in no byte that a controller places (R512). -/
def relocEntry (bs img : List Byte) (i : Nat) : Option (List Byte) :=
  let e := bs.drop (bnat bs 160 8 + 32 * i)
  let y := bs.drop (bnat bs 176 8 + 24 * bnat e 16 4)
  let sec := bnat e 24 1
  let ysec := bnat y 4 1
  let s : Int := if ysec = 0xFE then (BitVec.ofNat 64 (bnat y 8 8)).toInt else uzoBase bs ysec + bnat y 8 8
  let a : Int := (BitVec.ofNat 64 (bnat e 8 8)).toInt
  if bnat bs 172 4 ≤ bnat e 16 4 ∨ (5 < ysec ∧ ysec ≠ 0xFE) ∨ 5 < sec ∨ (uzoSect bs sec).2 ≤ bnat e 0 8 then none
  else (relocate (bnat e 25 1) (uzoBase bs sec + bnat e 0 8) (s + a) (uzoBase bs sec + bnat e 20 4) img).map fun m =>
    if sec = 5 then img else m

def relocAll (bs : List Byte) : List Nat → List Byte → Option (List Byte)
  | [], img => some img
  | i :: is, img => (relocEntry bs img i).bind (relocAll bs is)

/-- R79: an entry offset is even and within its section; that of an empty section is ignored. -/
def uzoEntryOk (bs : List Byte) (i : Nat) : Bool :=
  let e := bnat bs (8 + 4 * i) 4
  (uzoSect bs i).2 == 0 || (e % 2 == 0 && decide (e < (uzoSect bs i).2))

/-- R79: whether two sections of the file overlap. -/
def uzoOverlap (bs : List Byte) (i j : Nat) : Bool :=
  let (a, m) := uzoSect bs i
  let (b, n) := uzoSect bs j
  m != 0 && n != 0 && decide (a < b + n) && decide (b < a + m)

/-- R79: what the loader rejects, beyond what a relocation can show. -/
def uzoOk (bs : List Byte) : Bool :=
  bnat bs 0 4 == 0x314F5A55 && bnat bs 4 2 == 1 && (upTo 0 3).all (uzoEntryOk bs) &&
    (upTo 0 6).all fun i => (upTo 0 i).all fun j => !uzoOverlap bs i j

/-- R512: the local memory that a controller image comes to, from address 0 on, and its entry. -/
def placeUzo (bs : List Byte) : Option (List Byte × Nat) :=
  if !uzoOk bs then none
  else
    let lit := uzoBase bs 3
    let data := uzoBase bs 4
    let a := uzoBytes bs 0
    let b := a ++ List.replicate (lit - a.length) 0 ++ uzoBytes bs 3
    let img := b ++ List.replicate (data - b.length) 0 ++ uzoBytes bs 4
    (relocAll bs (upTo 0 (bnat bs 168 4)) img).map fun m => (m, bnat bs 8 4)

/-! ## Contexts of a controller (R511, R523) -/

def Ctl.stagedCtx (c : Ctl) (n : Nat) : Nat := if c.secondRuns then n else n + 32
def Ctl.activeImage (c : Ctl) : Option Image := if c.activeB then c.slotB else c.slotA
def Ctl.stagedImage (c : Ctl) : Option Image := if c.activeB then c.slotA else c.slotB

/-- Whether a context runs, or would run, the staged image. -/
def isStaged (s : State) (cn : Nat) : Bool := (decide (32 ≤ cn)) != (s.ctl (cn % 32)).secondRuns

/-- R512: a context starts an image: its bytes in local RAM, registers cleared, at ENTRY.A. -/
def startCtl (s : State) (cn : Nat) (im : Option Image) : State :=
  match im.bind (fun i => placeUzo i.bytes) with
  | none => s
  | some (m, e) =>
    let s1 := { s with mem := writeBytes s.mem (ramKey cn 0) (m.take (2 ^ 18)) }
    s1.setSlot (ctlSlot cn) { state := .running, a := { pc := BitVec.ofNat 64 e } }

def stopCtl (s : State) (cn : Nat) : State := s.modSlot (ctlSlot cn) ({ · with state := .stopped })

/-! ## The update in progress (R522 to R526) -/

def Upd.cls (u : Upd) : Nat := bits u.cmd 12 4
def Upd.inst (u : Upd) : Nat := bits u.cmd 16 8
def Upd.deadlineMs (u : Upd) : Nat := if bits u.cmd 48 16 = 0 then 200 else bits u.cmd 48 16

/-- R511: the controllers of a class, or the one sequencer that a class 2 update names. -/
def classCtls (cls inst : Nat) : List Nat :=
  match cls with
  | 0 => [0, 1, 2, 3] | 1 => [4] | 2 => [5 + inst] | 3 => [21] | 4 => [22] | _ => []

def Upd.ctls (u : Upd) : List Nat := classCtls u.cls u.inst

/-- Whether a controller is being updated. -/
def updating (s : State) (n : Nat) : Bool :=
  s.upd.busy && (s.upd.phase == 3 || s.upd.phase == 4) && s.upd.ctls.contains n

/-- R527: the pause of a switch of a class. In class 0 it holds command fetch, queue mapping and the start of graph nodes; in
class 1 the routes are frozen; in classes 2 to 4 the requests that the controller serves wait (log 146). -/
def classPaused (s : State) (cls : Nat) : Bool :=
  s.upd.busy && s.upd.phase == 4 && s.upd.cls == cls && s.upd.pausedAt.isSome

/-- R523, R527: through a switch of the management controller the management plane's register writes wait. -/
def mgmtWaits (s : State) (m : Master) : Bool := hedgeMaster m && classPaused s 4

def modSig (s : State) (n : Nat) (f : UpdSig → UpdSig) : State :=
  s.setCtl n { s.ctl n with sig := f (s.ctl n).sig }

def forCtls (f : State → Nat → State) (s : State) (ns : List Nat) : State := ns.foldl f s

/-- R524: READY ends PREPARING, when every controller under update has written it, and sets REQ. -/
def sigReady (s : State) (n : Nat) : State :=
  if updating s n ∧ s.upd.phase = 3 ∧ !(s.ctl n).sig.ready then
    let s1 := modSig s n ({ · with ready := true })
    if s1.upd.ctls.all fun m => (s1.ctl m).sig.ready then
      forCtls (fun s m => modSig s m ({ · with req := true })) { s1 with upd := { s1.upd with phase := 4 } } s1.upd.ctls
    else s1
  else s

/-- R524, R529: HANDED: the active image stops at this write, the pause begins, and the staged image finds the record at
the same local address (log 40). -/
def sigHanded (s : State) (n : Nat) : State :=
  let c := s.ctl n
  if updating s n ∧ c.sig.req ∧ !c.sig.handed then
    let s1 := modSig s n ({ · with handed := true })
    let at_ := c.sig.record.toNat % 2 ^ 18
    let from_ := ramKey (c.activeCtx n) at_
    let len := min (memNat s1 (from_ + 8) 8) (2 ^ 18 - at_)
    let s2 := { s1 with mem := writeBytes s1.mem (ramKey (c.stagedCtx n) at_) (readBytes s1.mem from_ len) }
    let s3 := stopCtl s2 (c.activeCtx n)
    { s3 with upd := { s3.upd with
        pausedAt := some (s3.upd.pausedAt.getD s3.tick), paused := n :: s3.upd.paused } }
  else s

/-- R528: the queues whose hardware slot has its PENDING bit set are woken. -/
def wakePending (s : State) : State :=
  let wake (q : Queue) : Queue :=
    match q.slot with
    | some h => if s.upd.pending.contains h then { q with awake := true } else q
    | none => q
  { s with queues := s.queues.map (fun e => (e.1, wake e.2)), upd := { s.upd with pending := [] } }

/-- R528: a notify in a class 0 pause sets its hardware slot's bit in the PENDING bitmap of a record, whose check follows (log 151). -/
def markRecord (s : State) (key h : Nat) : State :=
  let size := memNat s (key + 8) 8
  if size < 1120 ∨ 2 ^ 18 < key % 2 ^ 18 + size then s
  else
    let at_ := key + 1088 + h / 8
    let m := memWrite s.mem at_ (BitVec.ofNat 8 ((memRead s.mem at_).toNat ||| 2 ^ (h % 8)))
    let crc := crc32 (readBytes m key 32 ++ List.replicate 4 0 ++ readBytes m (key + 36) (size - 36))
    { s with mem := writeBytes m (key + 32) (natBytes 4 crc) }

/-- R528: the notify is noted, and in every record that has been handed over: the active image's and the staged image's copy. -/
def notePending (s : State) (h : Nat) : State :=
  let mark (s : State) (n : Nat) : State :=
    let c := s.ctl n
    let at_ := c.sig.record.toNat % 2 ^ 18
    if c.sig.handed then markRecord (markRecord s (ramKey (c.activeCtx n) at_) h) (ramKey (c.stagedCtx n) at_) h else s
  forCtls mark { s with upd := { s.upd with pending := insertNat s.upd.pending h } } (classCtls 0 0)

/-- R524: UPDSIG returns to its reset value at the end of each update. -/
def endUpdate (s : State) (result phase : Nat) : State :=
  let s1 := wakePending (forCtls (fun s n => modSig s n fun _ => {}) s s.upd.ctls)
  { s1 with upd := { s1.upd with
      busy := false, phase := phase, result := result, pausedAt := none, paused := [], switched := [], back := false, allIn := false } }

/-- R523: the new image has taken over: the slots change places, SEQ counts. -/
def finishUpdate (s : State) : State :=
  let swap (s : State) (n : Nat) : State :=
    let c := s.ctl n
    let s1 := s.modSlot (ctlSlot (c.activeCtx n)) ({ · with state := .free })
    s1.setCtl n { c with activeB := !c.activeB, secondRuns := !c.secondRuns }
  let s1 := forCtls swap s s.upd.ctls
  endUpdate { s1 with upd := { s1.upd with seq := s1.upd.seq + 1 } } 0 0

/-- R524: HEALTHY ends SWITCHING when every controller under update has written it. -/
def sigHealthy (s : State) (n : Nat) : State :=
  let c := s.ctl n
  if updating s n ∧ c.sig.handed ∧ !c.sig.healthy then
    let s1 := modSig s n ({ · with healthy := true })
    if s1.upd.ctls.all fun m => (s1.ctl m).sig.healthy then finishUpdate s1 else s1
  else s

/-- R526: an old image that has handed over starts again at ENTRY.A, its local RAM, with the record, as it stands. -/
def restartCtl (s : State) (cn : Nat) (im : Option Image) : State :=
  match im.bind (fun i => placeUzo i.bytes) with
  | none => s
  | some (_, e) => s.setSlot (ctlSlot cn) { state := .running, a := { pc := BitVec.ofNat 64 e } }

/-- R526: the update fails: the new contexts stop, and an old image that has stopped restarts from its record. -/
def failUpdate (s : State) (result : Nat) : State :=
  let undo (s : State) (n : Nat) : State :=
    let c := s.ctl n
    let s1 := s.modSlot (ctlSlot (c.stagedCtx n)) ({ · with state := .free })
    if c.sig.handed then restartCtl s1 (c.activeCtx n) c.activeImage else s1
  endUpdate (forCtls undo s s.upd.ctls) result 2

/-! ## The per-core firmware contexts (R458, R530) -/

/-- R458: a firmware context starts at ENTRY.A of its active image, registers and local state cleared, FW.ARG and
REJECT with them; a command in progress goes on with the address that it was given (log 148). -/
def startFw (s : State) (core : Nat) (im : Option Image) : State :=
  match im with
  | none => s
  | some i => (s.modCore core fun c => { c with fw := { c.fw with arg := 0, reject := false } }).setSlot (fwSlot core) { state := .running, a := { pc := BitVec.ofNat 64 (bnat i.bytes 8 4) } }

def class5Ctl : Nat := 23

/-- R504: the cores that run jobs: those of clusters that are not down. -/
def liveCores (s : State) : List Nat := (upTo 0 1536).filter fun c => !s.ckpt.down.contains (c / 96)

/-- R530: a class 5 update is done when every core has switched and its context has written HEALTHY. -/
def class5Done (s : State) : Bool :=
  (liveCores s).all fun c => (sfind s.upd.switched c).isSome && (s.core c).fw.health

/-- Every context counts as one of the active image. -/
def backToActive (s : State) : State :=
  { s with cores := s.cores.map fun e => (e.1, { e.2 with fw := { e.2.fw with image := 0, health := false } }) }

/-- R530: FW.HEALTH written by a switched context; the last one ends the update. -/
def fwHealthWrite (s : State) (core : Nat) (d : Word) : State :=
  if bit d 0 ∧ s.upd.busy ∧ s.upd.cls = 5 ∧ !s.upd.back ∧ (sfind s.upd.switched core).isSome then
    let s1 := s.modCore core fun c => { c with fw := { c.fw with health := true } }
    if class5Done s1 then
      let c := s1.ctl class5Ctl
      let s2 := (backToActive s1).setCtl class5Ctl { c with activeB := !c.activeB }
      endUpdate { s2 with upd := { s2.upd with seq := s2.upd.seq + 1 } } 0 0
    else s1
  else s

/-! ## UPDSIG (R524) -/

def readSig (s : State) (cn : Nat) : Word :=
  let g := (s.ctl (cn % 32)).sig
  BitVec.ofNat 64 (g.record.toNat * 2 ^ 32 + b2n (isStaged s cn) * 128 + b2n g.req * 64 + b2n g.handed * 16 +
    b2n g.healthy * 2 + b2n g.ready)

/-- R524: a bit written by the wrong context or out of order is ignored. -/
def writeSig (s : State) (cn : Nat) (d : Word) : State :=
  let n := cn % 32
  if isStaged s cn then
    let s1 := if bit d 0 then sigReady s n else s
    if bit d 1 then sigHealthy s1 n else s1
  else
    let s1 := modSig s n ({ · with record := BitVec.ofNat 32 (bits d 32 32) })
    if bit d 4 then sigHanded s1 n else s1

/-! ## Channel registers (R514 to R518) -/

def State.chan (s : State) (c : Nat) : Chan := sget s.chans {} c
def State.setChan (s : State) (c : Nat) (v : Chan) : State := { s with chans := sput s.chans c v }

/-- A delay of 32 is not listed. -/
def setDelay (l : Sparse (BitVec 6)) (k : Nat) (v : BitVec 6) : Sparse (BitVec 6) := if v = 32 then sdel l k else sput l k v

def Chan.read (c : Chan) (off : Nat) : Word :=
  if off = 0x008 then BitVec.ofNat 64 (c.errs.toNat * 2 ^ 32 + b2n c.reject * 4 + b2n c.busy)
  else if off = 0x010 then c.pass
  else if off = 0x018 then c.passx.setWidth 64
  else if off = 0x030 then c.repair.setWidth 64
  else if off = 0x038 then BitVec.ofNat 64 (b2n c.online + 2 * b2n c.trained)
  else if 0x100 ≤ off ∧ off < 0x100 + 8 * 66 ∧ off % 8 = 0 then (sget c.rdly 32 ((off - 0x100) / 8)).setWidth 64
  else if 0x500 ≤ off ∧ off < 0x500 + 8 * 66 ∧ off % 8 = 0 then (sget c.wdly 32 ((off - 0x500) / 8)).setWidth 64
  else 0

/-- R515: the value that a CHCTL write may hold. -/
def chctlOk (d : Word) : Bool :=
  bits d 32 32 == 0 && bits d 8 8 == 0 && !bit d 3 && decide (bits d 4 4 ≤ 2)

/-- R515: a write with GO = 1 starts a test or is ignored. -/
def Chan.pattern (c : Chan) (d : Word) (tick : Nat) : Chan :=
  if !bit d 0 then c
  else if c.busy ∨ c.online ∨ !chctlOk d then { c with reject := true }
  else { c with busy := true, test := some (d, tick) }

def allDelays (v : BitVec 6) : Sparse (BitVec 6) := if v = 32 then [] else (upTo 0 66).map fun k => (k, v)

def Chan.rdall (c : Chan) (d : Word) : Chan :=
  if c.online then { c with reject := true } else { c with rdly := allDelays (d.setWidth 6) }
def Chan.wdall (c : Chan) (d : Word) : Chan :=
  if c.online then { c with reject := true } else { c with wdly := allDelays (d.setWidth 6) }

/-- R517. -/
def repairOk (d : Word) : Bool :=
  (!bit d 7 || decide (bits d 0 7 ≤ 31)) && (!bit d 15 || (decide (32 ≤ bits d 8 7) && decide (bits d 8 7 ≤ 63)))

def Chan.repairWrite (c : Chan) (d : Word) : Chan :=
  if c.online ∨ !repairOk d then { c with reject := true } else { c with repair := d.setWidth 16 }

/-- R518: a write that clears ONLINE holds new requests until it reads 0; one that sets it lets them go on. -/
def Chan.chmode (c : Chan) (d : Word) (tick : Nat) : Chan :=
  let c1 := { c with trained := bit d 1 }
  if bit d 0 then { c1 with online := true, holding := false }
  else if c.online then { c1 with holding := true, offlineAt := tick } else c1

/-- A write of the host at a physical address. -/
def hostWrite (s : State) (a : Nat) (bs : List Byte) : State :=
  if accReady s .w a bs.length ∧ logReady s a bs.length then writePiece s (engineReq 6 0) { key := a, len := bs.length, attr := 2 } bs
  else s.stall

/-- R514: a write of a channel register. -/
def chanWrite (s : State) (c off : Nat) (d : Word) : State :=
  let ch := s.chan c
  if off = 0x000 then s.setChan c (ch.pattern d s.tick)
  else if off = 0x008 then s.setChan c (if bit d 2 then { ch with reject := false } else ch)
  else if off = 0x020 then s.setChan c (ch.rdall d)
  else if off = 0x028 then s.setChan c (ch.wdall d)
  else if off = 0x030 then s.setChan c (ch.repairWrite d)
  else if off = 0x038 then performBacks (s.setChan c (ch.chmode d s.tick))
  else if 0x100 ≤ off ∧ off < 0x100 + 8 * 66 ∧ off % 8 = 0 then
    s.setChan c (if ch.online then { ch with reject := true }
      else { ch with rdly := setDelay ch.rdly ((off - 0x100) / 8) (d.setWidth 6) })
  else if 0x500 ≤ off ∧ off < 0x500 + 8 * 66 ∧ off % 8 = 0 then
    s.setChan c (if ch.online then { ch with reject := true }
      else { ch with wdly := setDelay ch.wdly ((off - 0x500) / 8) (d.setWidth 6) })
  else s

/-! ## Local maps (R513) -/

def readLocal (s : State) (cn : Nat) : LocalReg → Word
  | .updsig => readSig s cn
  | .chan c off => (s.chan c).read off

/-- R523: until it writes HEALTHY, a staged image's writes are withheld but for those of its own local RAM and of UPDSIG. -/
def withheld (s : State) (cn addr : Nat) : Bool :=
  isStaged s cn &&
    ((match reachedReg s cn addr with | some (.chan _ _) => true | _ => false) || (mapOwner s cn addr).1 != cn)

def writeLocal (s : State) (cn : Nat) (r : LocalReg) (d : Word) : State :=
  match r with
  | .updsig => writeSig s cn d
  | .chan c off => chanWrite s c off d

/-- Replaces `n` bytes at a byte offset of a register's value; a write of part of CHSTAT writes 0 to the rest (log 42). -/
def mergeReg (s : State) (cn : Nat) (r : LocalReg) (at_ n : Nat) (bs : List Byte) : Word :=
  let old : List Byte := match r with
    | .chan _ 0x008 => List.replicate 8 0
    | r => natBytes 8 (readLocal s cn r).toNat
  leWord (old.take at_ ++ bs.take n ++ old.drop (at_ + n))

end Sys2Proof.Machine
end

