-- ==== Sys2Proof/Machine/MemInstr.lean ====
section
/-!
DEFINITION. Scalar loads, stores and atomics (R127 to R134, R152).
-/

namespace Sys2Proof.Machine

/-! ## The scalar accesses of a stream -/

/-- R513: the bytes of a controller's read: local RAM, or one device register. -/
def ctlRead (s : State) (cn : Nat) (addr : Word) (n : Nat) : Except Trap (List Byte) :=
  match resolveLocal s cn addr addr.toNat n with
  | .error t => .error t
  | .ok p => .ok (match reachedReg s cn addr.toNat with
    | some r => ((natBytes 8 (readLocal s cn r).toNat).drop (addr.toNat % 8)).take n
    | none => pieceBytes s p)

/-- R513, R523: a controller's write; it ends the monitors that others hold on its line (R152). -/
def ctlWrite (s : State) (cn : Nat) (addr : Word) (bs : List Byte) : Except Trap State :=
  match resolveLocal s cn addr addr.toNat bs.length with
  | .error t => .error t
  | .ok p =>
    if withheld s cn addr.toNat then .error stall
    else .ok (breakLines (match reachedReg s cn addr.toNat with
      | some r => writeLocal s cn r (mergeReg s cn r (addr.toNat % 8) bs.length bs)
      | none => { s with mem := writeBytes s.mem p.key bs }) (some ⟨ctlSlot cn, .a⟩) (unitsOf 128 p.key p.len))

/-- R129, R497: what a read of some pieces comes to: its bytes go on to `k`, or it waits for a full line, ends in bad data, or
faults. -/
def piecesEff (s : State) (addr : Word) (k : List Piece → List Byte → Eff) : Except Trap (List Piece) → Eff
  | .error t => .trap t
  | .ok ps =>
    if ps.any (touchesEmpty s) then .wait 4 0 (addr.setWidth 32)
    else if ps.any (touchesPoison s) then .poison
    else k ps (piecesBytes s ps)

/-- R129, R497, R513: a read of the agent at hand. -/
def readEff (s : State) (r : Req) (addr : Word) (n : Nat) (acc : Acc) (k : List Piece → List Byte → Eff) : Eff :=
  match r.ctl with
  | some cn => (match ctlRead s cn addr n, resolveLocal s cn addr addr.toNat n with
    | .ok bs, .ok p => k [p] bs
    | .error t, _ => .trap t
    | _, .error t => .trap t)
  | none => piecesEff s addr k (resolveAccess s r acc addr addr n)

/-- R152: a scalar load arms the stream's monitor on the line that it read (log 135). -/
def armMonitor (s : State) (ps : List Piece) : State :=
  match ps.getLast? with
  | some p => s.modMyStream ({ · with monitor := some ⟨(p.key + p.len - 1) / 128, false⟩ })
  | none => s

/-- R127: a scalar load of `n` bytes. -/
def loadEff (s : State) (d : BitVec 5) (addr : Word) (n : Nat) : Eff :=
  let r := myReq s
  readEff s r addr n .r fun ps bs => .ok ((armMonitor (readUses s r addr.toNat n ps) ps).writeX d (leWord bs) 4)

/-- R127: a scalar store; it neither waits for a full line nor sets one (R129). -/
def storeEff (s : State) (addr : Word) (bs : List Byte) : Eff :=
  let r := myReq s
  match r.ctl with
  | some cn => (match ctlWrite s cn addr bs with
    | .ok s1 => .ok s1
    | .error t => .trap t)
  | none =>
    match resolveAccess s r .w addr addr bs.length with
    | .error t => .trap t
    | .ok ps => .ok (writePieces (walked s r addr.toNat bs.length) r ps bs)

/-- R127: ea = X[xa] + off5 × size. -/
def effAddr (s : State) (a o : BitVec 5) (size : Nat) : Word := s.readX a + BitVec.ofNat 64 (o.toNat * size)

def execLdb (h : Hd) (d a : BitVec 5) (c : BitVec 4) (o : BitVec 5) (s : State) : Host.Outcome State Fault Refusal :=
  runGuarded s (.ldb h d a c o) fun s => loadEff s d (effAddr s a o 1) 1
def execLdh (h : Hd) (d a : BitVec 5) (c : BitVec 4) (o : BitVec 5) (s : State) : Host.Outcome State Fault Refusal :=
  runGuarded s (.ldh h d a c o) fun s => loadEff s d (effAddr s a o 2) 2
def execLdw (h : Hd) (d a : BitVec 5) (c : BitVec 4) (o : BitVec 5) (s : State) : Host.Outcome State Fault Refusal :=
  runGuarded s (.ldw h d a c o) fun s => loadEff s d (effAddr s a o 4) 4
def execLdd (h : Hd) (d a : BitVec 5) (c : BitVec 4) (o : BitVec 5) (s : State) : Host.Outcome State Fault Refusal :=
  runGuarded s (.ldd h d a c o) fun s => loadEff s d (effAddr s a o 8) 8
def execCompactLdd (a b : BitVec 5) (s : State) : Host.Outcome State Fault Refusal :=
  runGuarded s (.compactLdd a b) fun s => loadEff s a (s.readX b) 8

def execStb (h : Hd) (d a : BitVec 5) (c : BitVec 4) (o : BitVec 5) (s : State) : Host.Outcome State Fault Refusal :=
  runGuarded s (.stb h d a c o) fun s => storeEff s (effAddr s a o 1) (natBytes 1 (s.readX d).toNat)
def execSth (h : Hd) (d a : BitVec 5) (c : BitVec 4) (o : BitVec 5) (s : State) : Host.Outcome State Fault Refusal :=
  runGuarded s (.sth h d a c o) fun s => storeEff s (effAddr s a o 2) (natBytes 2 (s.readX d).toNat)
def execStw (h : Hd) (d a : BitVec 5) (c : BitVec 4) (o : BitVec 5) (s : State) : Host.Outcome State Fault Refusal :=
  runGuarded s (.stw h d a c o) fun s => storeEff s (effAddr s a o 4) (natBytes 4 (s.readX d).toNat)
def execStd (h : Hd) (d a : BitVec 5) (c : BitVec 4) (o : BitVec 5) (s : State) : Host.Outcome State Fault Refusal :=
  runGuarded s (.std h d a c o) fun s => storeEff s (effAddr s a o 8) (natBytes 8 (s.readX d).toNat)
def execCompactStd (a b : BitVec 5) (s : State) : Host.Outcome State Fault Refusal :=
  runGuarded s (.compactStd a b) fun s => storeEff s (s.readX b) (natBytes 8 (s.readX a).toNat)

/-- R117: the literal at (H AND NOT 7) + 8 × imm, read in space 0x0 (log 134). -/
def litAddr (s : State) (i : BitVec 14) : Word :=
  BitVec.ofNat 64 (s.readStream.header.toNat / 8 * 8) + (i.signExtend 64) * 8

def execLdlit (h : Hd) (d : BitVec 5) (i : BitVec 14) (s : State) : Host.Outcome State Fault Refusal :=
  runGuarded s (.ldlit h d i) fun s =>
    let a := litAddr s i
    if a.toNat / 2 ^ 60 ≠ 0 then .trap (trapOf Code.space 0 a)
    else readEff s (myReq s) a 8 .r fun ps bs => .ok ((readUses s (myReq s) a.toNat 8 ps).writeX d (leWord bs) 4)

/-! ## Atomics (R130 to R134) -/

/-- R131: the operations, on values of `w` bits. -/
def amoOp {w : Nat} (f : Nat) (old x : BitVec w) : BitVec w :=
  match f with
  | 0 => old + x
  | 1 => old &&& x
  | 2 => old ||| x
  | 3 => old ^^^ x
  | 4 => if x.slt old then x else old
  | 5 => if old.slt x then x else old
  | 6 => if x.ult old then x else old
  | 7 => if old.ult x then x else old
  | _ => x

/-- R132: an IEEE 754 sum rounded to nearest even, subnormals kept. -/
def faddCode (f : Fmt) (a b : Nat) : Nat :=
  (f.round .rne false ((f.decode a).add false (f.decode b)).1).1

/-- R130: an atomic of `n` bytes: `f` gives, from the old bytes, what to write (none: nothing is written) and what the
stream then gains. -/
def atomicEff (s : State) (addr : Word) (n : Nat) (spaces : List Nat)
    (f : Nat → Option Nat × (State → State)) : Eff :=
  let r := myReq s
  if !spaces.contains (addr.toNat / 2 ^ 60) then .trap (trapOf Code.space 0 addr)
  else if addr.toNat % n ≠ 0 then .trap (trapOf Code.misalign 0 addr)
  else readEff s r addr n .rw fun ps bs =>
    let (w, k) := f (bytesNat bs)
    match w with
    | none => .ok (k (readUses s r addr.toNat n ps))
    | some v =>
      match r.ctl with
      | some cn => (match ctlWrite s cn addr (natBytes n v) with
        | .ok s1 => .ok (k s1)
        | .error t => .trap t)
      | none => .ok (k (writePieces (walked s r addr.toNat n) r ps (natBytes n v)))

def atomicSpaces : List Nat := [0, 8, 9, 10]

/-- R134: an ASC takes the module sequencer's next ticket; it performs at once (log 8). -/
def takeTicket (s : State) : State := { s with ascTicket := s.ascTicket + 1 }

/-- R131: AMO and ASC, on 8 bytes. -/
def amo64 (s : State) (d a b : BitVec 5) (f : Nat) (spaces : List Nat) (post : State → State) : Eff :=
  atomicEff s (s.readX a) 8 spaces fun old =>
    (some (amoOp f (BitVec.ofNat 64 old) (s.readX b)).toNat, fun t => post (t.writeX d (BitVec.ofNat 64 old) 4))

def amo32 (s : State) (d a b : BitVec 5) (f : Nat) : Eff :=
  atomicEff s (s.readX a) 4 atomicSpaces fun old =>
    (some (amoOp f (BitVec.ofNat 32 old) ((s.readX b).setWidth 32)).toNat, fun t => t.writeX d (BitVec.ofNat 64 old) 4)

/-- R133: CAS on `n` bytes. -/
def casEff (s : State) (d a b : BitVec 5) (n : Nat) (spaces : List Nat) (post : State → State) : Eff :=
  atomicEff s (s.readX a) n spaces fun old =>
    (if old = (s.readX d).toNat % 2 ^ (8 * n) then some ((s.readX b).toNat % 2 ^ (8 * n)) else none,
     fun t => post (t.writeX d (BitVec.ofNat 64 old) 4))

def execAmo (h : Hd) (d a b : BitVec 5) (f : BitVec 4) (s : State) : Host.Outcome State Fault Refusal :=
  runGuarded s (.amo h d a b f) fun s => amo64 s d a b f.toNat atomicSpaces id

def execAmow (h : Hd) (d a b : BitVec 5) (f : BitVec 4) (s : State) : Host.Outcome State Fault Refusal :=
  runGuarded s (.amow h d a b f) fun s => amo32 s d a b f.toNat

/-- R132: AMON returns nothing; FADD32 acts on 4 bytes, FADD64 on 8. -/
def execAmon (h : Hd) (a b : BitVec 5) (f : BitVec 4) (s : State) : Host.Outcome State Fault Refusal :=
  runGuarded s (.amon h a b f) fun s =>
    if f = 9 then
      atomicEff s (s.readX a) 4 atomicSpaces fun old => (some (faddCode fp32 old ((s.readX b).toNat % 2 ^ 32)), id)
    else if f = 10 then
      atomicEff s (s.readX a) 8 atomicSpaces fun old => (some (faddCode fp64 old (s.readX b).toNat), id)
    else atomicEff s (s.readX a) 8 atomicSpaces fun old =>
      (some (amoOp f.toNat (BitVec.ofNat 64 old) (s.readX b)).toNat, id)

def execCas (h : Hd) (d a b : BitVec 5) (s : State) : Host.Outcome State Fault Refusal :=
  runGuarded s (.cas h d a b) fun s => casEff s d a b 8 atomicSpaces id

def execCasw (h : Hd) (d a b : BitVec 5) (s : State) : Host.Outcome State Fault Refusal :=
  runGuarded s (.casw h d a b) fun s => casEff s d a b 4 atomicSpaces id

def execAsc (h : Hd) (d a b : BitVec 5) (f : BitVec 4) (s : State) : Host.Outcome State Fault Refusal :=
  runGuarded s (.asc h d a b f) fun s => amo64 s d a b f.toNat [0, 10] takeTicket

def execAscCas (h : Hd) (d a b : BitVec 5) (s : State) : Host.Outcome State Fault Refusal :=
  runGuarded s (.ascCas h d a b) fun s => casEff s d a b 8 [0, 10] takeTicket

end Sys2Proof.Machine
end

