-- ==== Sys2Proof/Machine/Csr.lean ====
section
/-!
DEFINITION. Control and status registers (R143 to R147): the job's, with rings (R174, R175), ports (R212), vector and
matrix state, and the firmware's (R459 to R466).
-/

namespace Sys2Proof.Machine

/-- The bits of a word in a set of fields, given as (lowest bit, width). -/
def keepFields (v : Word) (fs : List (Nat × Nat)) : Word :=
  BitVec.ofNat 64 (fs.foldl (fun n f => n + bits v f.1 f.2 * 2 ^ f.1) 0)

/-! ## Full and empty lines (R179) -/

/-- Marks lines of a core scratchpad empty. -/
def setEmptyLines (s : State) (core : Nat) (lines : List Nat) : State :=
  s.modCore core fun c => { c with empty := lines.foldl insertNat c.empty }

/-- Marks lines of a core scratchpad full. -/
def setFullLines (s : State) (core : Nat) (lines : List Nat) : State :=
  s.modCore core fun c => { c with empty := c.empty.filter (!lines.contains ·) }

/-! ## Rings (R174, R175) -/

def Ring.lines (r : Ring) : Nat := bits r.geom 8 16
def Ring.slots (r : Ring) : Nat := bits r.geom 0 7
def Ring.offset (r : Ring) : Nat := bits r.base 7 14 * 128
def Ring.enabled (r : Ring) : Bool := bit r.role 8
def Ring.slotBytes (r : Ring) : Nat := r.lines * 128

/-- R174: RING.n.STAT. -/
def Ring.stat (r : Ring) : Word :=
  BitVec.ofNat 64 (b2n r.enabled * 2 ^ 63 + b2n r.cfgerr * 2 ^ 62 + r.cons * 2 ^ 40 + r.prod * 2 ^ 32 +
    r.heldC.length * 2 ^ 24 + r.heldP.length * 2 ^ 16 + r.free * 2 ^ 8 + r.filled)

def Ring.read (r : Ring) (f : Nat) : Word :=
  match f with
  | 0 => r.base | 1 => r.geom | 2 => r.role | 3 => r.stat | 4 => r.phasePc | 5 => r.phaseIter | _ => r.commits

/-- R161: the fields of a control word. -/
def cwCls (cw : Word) : Nat := bits cw 60 4
def cwDone (cw : Word) : Nat := bits cw 58 2
def cwSem (cw : Word) : Nat := bits cw 52 6
def cwOrder (cw : Word) : Bool := bit cw 51
def cwFull (cw : Word) : Bool := bit cw 50
def cwRingen (cw : Word) : Bool := bit cw 49
def cwRside (cw : Word) : Bool := bit cw 48
def cwRing (cw : Word) : Nat := bits cw 44 4
def cwCount (cw : Word) : Nat := bits cw 0 40

/-- Whether a coupled command of a ring is queued (R175). -/
def coupledQueued (t : Slot) (n : Nat) : Bool :=
  (t.cq ++ t.fq).any fun c => cwRingen c.cw && cwRing c.cw == n

/-- R175: what setting ENABLE requires. -/
def Ring.fits (r : Ring) (partLen : Nat) : Bool :=
  decide (1 ≤ r.lines) && decide (r.lines ≤ 16384) && decide (1 ≤ r.slots) && decide (r.slots ≤ 64) &&
    decide (r.offset + r.slots * r.slotBytes ≤ partLen)

def roleFields : List (Nat × Nat) := [(16, 1), (12, 4), (8, 1), (4, 3), (0, 3)]

/-- R175: the lines of a ring, in its core's scratchpad. -/
def ringLines (t : Slot) (r : Ring) : List Nat := upTo ((t.partStart + r.offset) / 128) (r.slots * r.lines)

/-- R175: ENABLE is set: every line empty, every slot free. -/
def enableRing (s : State) (slotNo n : Nat) (r : Ring) : State :=
  let t := s.slot slotNo
  let r1 := { r with filled := 0, free := r.slots, prod := 0, cons := 0, commits := 0, heldP := [], heldC := [], src := [], cfgerr := false }
  setEmptyLines (s.setSlot slotNo { t with rings := sput t.rings n r1 }) (slotCore slotNo) (ringLines t r)

/-- R175: a write of a ring's CSR. -/
def writeRing (s : State) (slotNo n f : Nat) (v : Word) : State :=
  let t := s.slot slotNo
  let r := sget t.rings {} n
  let put (r : Ring) : State := s.setSlot slotNo { t with rings := sput t.rings n r }
  match f with
  | 0 => if r.enabled then s else put { r with base := keepFields v [(7, 14)] }
  | 1 => if r.enabled then s else put { r with geom := keepFields v [(8, 16), (0, 7)] }
  | 2 =>
    let role := keepFields v roleFields
    if r.enabled then
      if bit v 8 then s
      else if r.heldP = [] ∧ r.heldC = [] ∧ !coupledQueued t n then put { r with role := role, cfgerr := false }
      else put { r with cfgerr := true }
    else if bit v 8 then
      if { r with role := role }.fits t.partLen then enableRing s slotNo n { r with role := role }
      else put { r with role := role &&& ~~~0x100#64, cfgerr := true }
    else put { r with role := role }
  | _ => s

/-! ## Ports (R212) -/

def portFields : List (Nat × Nat) := [(12, 1), (8, 4), (4, 1), (0, 1)]

def Port.read (p : Port) (f : Nat) : Word :=
  if f = 0 then p.base
  else if f = 1 then BitVec.ofNat 64 (b2n p.run * 2 ^ 31 + b2n p.exh * 2 ^ 30) ||| p.type
  else if f < 16 then p.cnt.getD (f - 8) 0
  else p.stride.getD (f - 16) 0

def Port.write (p : Port) (f : Nat) (v : Word) : Port :=
  if f = 0 then { p with base := v }
  else if f = 1 then { p with type := keepFields v portFields }
  else if f < 16 then { p with cnt := p.cnt.setIfInBounds (f - 8) (keepFields v [(0, 32)]) }
  else { p with stride := p.stride.setIfInBounds (f - 16) v }

/-! ## Tiles (R274) -/

def typeCode : TType → Nat
  | .fp32 => 1 | .int32 => 2 | .bf16 => 3 | .fp16 => 4 | .int16 => 5

def State.tileType (s : State) (core tile : Nat) : TType := sget (s.core core).ttype .fp32 tile

/-- R202, R274: whether a job holds a tile. -/
def Slot.holdsTile (t : Slot) (tile : Nat) : Bool := t.tilesMask.testBit tile

def mreg (m : MRegs) (n : Nat) : Word :=
  sget m (if n % 8 = 0 ∧ n < 0x30 then 1 else if n = 4 then 1 else 0) n

/-- R250: level j of a nest; a COUNT above 65,536 counts as the field holds it (log 172). -/
def lvlCount (m : MRegs) (j : Nat) : Nat := bits (mreg m (8 * j)) 0 17
def lvlA (m : MRegs) (j : Nat) : Int := ((mreg m (8 * j + 1)).setWidth 32).toInt
def lvlB (m : MRegs) (j : Nat) : Int := ((mreg m (8 * j + 2)).setWidth 32).toInt
def lvlC (m : MRegs) (j : Nat) : Nat := bits (mreg m (8 * j + 3)) 0 2
def lvlK (m : MRegs) (j : Nat) : Bool := bit (mreg m (8 * j + 4)) 0

/-- R254: whether some COUNT is 0, so that the nest does nothing. -/
def nestEmpty (m : MRegs) : Bool := (upTo 0 6).any fun j => lvlCount m j == 0

/-- The tiles that a nest's retirement and accumulation reach. -/
def nestTiles (m : MRegs) : List Nat :=
  if nestEmpty m then []
  else
    let t0 := [bits (mreg m 0x32) 0 2]
    (upTo 0 6).foldl (fun ts j =>
      (upTo 0 (min 4 (lvlCount m j))).foldl (fun acc i =>
        ts.foldl (fun acc t => insertNat acc ((t + i * lvlC m j) % 4)) acc) []) t0

/-- R255, R266: the tiles that a nest-queue entry reads or writes. -/
def Nest.tiles (e : Nest) : List Nat :=
  match e.kind with
  | .mma => nestTiles e.regs
  | .mmac => nestTiles e.regs
  | .trn => insertNat [e.td] e.ts
  | .prm => insertNat [e.td] e.ts
  | .rred => insertNat [e.td] e.ts
  | .zero => (upTo 0 4).filter (e.td.testBit ·)
  | .mret => [e.td]

/-- R274: TILEMAP. -/
def tilemap (s : State) (slotNo : Nat) : Word :=
  let t := s.slot slotNo
  let c := slotCore slotNo
  let busy := (upTo 0 4).foldl (fun n i =>
    n + b2n (t.nests.any fun e => e.started && e.tiles.contains i) * 2 ^ i) 0
  let held := (upTo 0 4).foldl (fun n i =>
    n + (if t.holdsTile i then (8 + typeCode (s.tileType c i)) * 16 ^ i else 0)) 0
  BitVec.ofNat 64 (busy * 65536 + held)

/-! ## Reading a job's CSR (R145 to R147) -/

/-- R146: WAITST. -/
def waitst (s : State) (st : Stream) : Word :=
  match st.wait with
  | none => 0
  | some w =>
    BitVec.ofNat 64 (w.kind * 2 ^ 60 + w.obj * 2 ^ 48 + min (ageUs s w.since) 0xFFFF * 2 ^ 32 + w.arg.toNat)

/-- R147: SSTATUS. -/
def sstatus (slotNo : Nat) (k : StreamId) (st : Stream) : Word :=
  BitVec.ofNat 64 ((if isJob slotNo then slotNo % 2 else 0) * 128 +
    b2n (match st.blk with | some b => b.stg | none => false) * 8 + b2n st.exposed * 4 + streamBit k)

/-- R147: JOBINFO. -/
def jobinfo (t : Slot) : Word :=
  BitVec.ofNat 64 (t.job.launchid.toNat * 2 ^ 32 + t.prio % 4 * 2 ^ 30 + (t.levels - 1) % 8 * 2 ^ 27 + b2n t.coresident * 2 ^ 26)

/-- R147: CORE.ID. -/
def coreId (slotNo : Nat) : Word :=
  if isCtl slotNo then 0 else BitVec.ofNat 64 (slotCore slotNo / 96 * 256 + slotCore slotNo % 96)

/-- R401: RAMPSLOT. -/
def rampslot (s : State) (t : Slot) : Word :=
  let first := match s.launch t.launch with | some l => l.rampFirst | none => 0
  let off := match t.job.rampSlot with
    | some n => min (n - first) 0xFFFF
    | none => 0xFFFF
  BitVec.ofNat 64 (off * 2 ^ 32 + t.rampSlot.toNat)

/-- R482: which scan of a cluster's rotation is the next, scan r being that of core r mod 96, at r times 100 µs. -/
def nextScan (s : State) (cluster : Nat) : Nat := sget s.ckpt.rot 0 cluster
def scanCycles : Nat := 100 * us

/-- R483: a core is within 200 µs of its scan. -/
def nearScan (s : State) (core : Nat) : Bool :=
  let r := nextScan s (core / 96)
  let q := r + (core % 96 + 96 - r % 96) % 96
  decide (core < 1536) && decide (q * scanCycles ≤ s.tick + 200 * us)

/-- R485: COPPICE.STATE. -/
def coppiceState (s : State) (core : Nat) : Word :=
  let c := s.core core
  let ph := match c.scan with | .run => b2n (nearScan s core) | .drain => 1 | .deferred => 2
  BitVec.ofNat 64 (c.passInt.toNat * 65536 + sget s.ckpt.spares 4 (core / 96) * 256 + ph)

/-- R143, R145: what a CSRR by a stream of a slot reads from a CSR below 0x800. -/
def csrRead (s : State) (slotNo : Nat) (k : StreamId) (n : Nat) : Word :=
  let t := s.slot slotNo
  let st := t.stream k
  let c := slotCore slotNo
  match n with
  | 0x000 => st.lc.setWidth 64
  | 0x001 => st.rrb.setWidth 64
  | 0x002 => st.acls.setWidth 64
  | 0x003 => BitVec.ofNat 64 (b2n st.iterPend * 2 ^ 32 + st.iterCnt.toNat)
  | 0x004 => waitst s st
  | 0x005 => st.cmdidx.setWidth 64
  | 0x006 => sstatus slotNo k st
  | 0x100 => jobinfo t
  | 0x101 => t.job.frame
  | 0x102 => tilemap s slotNo
  | 0x103 => t.vwin.setWidth 64
  | 0x104 => t.vlive.setWidth 64
  | 0x105 => t.vstat
  | 0x106 => t.rndseed.setWidth 64
  | 0x400 => coreId slotNo
  | 0x401 => BitVec.ofNat 64 s.tick
  | 0x402 => (s.core c).ballast
  | 0x403 => rampslot s t
  | 0x404 => BitVec.ofNat 64 (s.core c).fw.share
  | 0x405 => if isCtl slotNo then 0 else coppiceState s c
  | _ =>
    if !csrExists n then 0
    else if n < 0x200 then t.levelIdx.getD (n - 0x108) 0
    else if n < 0x300 then (sget t.ports {} ((n - 0x200) / 0x20)).read (n % 0x20)
    else (sget t.rings {} ((n - 0x300) / 0x10)).read (n % 0x10)

/-! ## Writing a job's CSR -/

/-- R209: a write of RNDSEED reseeds the generators. -/
def Slot.reseed (t : Slot) (v : BitVec 32) : Slot := { t with rndseed := v, gens := gensOf v }

/-- R143: a write of the RW fields of a CSR below 0x400, as software's CSRW or the firmware's FW.JCSR makes it. -/
def csrSet (s : State) (slotNo : Nat) (k : StreamId) (n : Nat) (v : Word) : State :=
  match n with
  | 0x000 => s.modStream ⟨slotNo, k⟩ ({ · with lc := v.setWidth 32 })
  | 0x001 => s.modStream ⟨slotNo, k⟩ ({ · with rrb := v.setWidth 8 })
  | 0x002 => s.modStream ⟨slotNo, k⟩ ({ · with acls := v.setWidth 4 })
  | 0x103 => s.modSlot slotNo ({ · with vwin := v.setWidth 3 })
  | 0x104 => s.modSlot slotNo ({ · with vlive := v.setWidth 32 })
  | 0x105 => s.modSlot slotNo (·.setVstat v s.issue.flags)
  | 0x106 => s.modSlot slotNo (·.reseed (v.setWidth 32))
  | _ =>
    if 0x200 ≤ n ∧ n < 0x300 then
      s.modSlot slotNo fun t =>
        { t with ports := sput t.ports ((n - 0x200) / 0x20) ((sget t.ports {} ((n - 0x200) / 0x20)).write (n % 0x20) v) }
    else if 0x300 ≤ n ∧ n < 0x400 then writeRing s slotNo ((n - 0x300) / 0x10) (n % 0x10) v
    else s

/-! ## Firmware registers (R459 to R466) -/

def State.fw (s : State) (core : Nat) : Fw := (s.core core).fw
def State.modFw (s : State) (core : Nat) (f : Fw → Fw) : State := s.modCore core fun c => { c with fw := f c.fw }
def fwReject (s : State) (core : Nat) : State := s.modFw core ({ · with reject := true })

/-- R459: the slot that FW.SEL names, in the firmware's own cluster. -/
def fwTarget (s : State) (core : Nat) : Nat :=
  let v := (s.fw core).sel
  2 * (core / 96 * 96 + bits v 0 7) + bits v 7 1

def fwStream (v : Word) : StreamId := match bits v 8 2 with | 0 => .a | 1 => .m | _ => .v

/-- R459. -/
def fwSelWrite (s : State) (core : Nat) (d : Word) : State :=
  if 95 < bits d 0 7 ∨ bits d 8 2 = 3 ∨ 0x4FF < bits d 10 12 then fwReject s core
  else s.modFw core ({ · with sel := keepFields d [(0, 22)] })

def stateCode : JobState → Nat
  | .stopping => 1 | .stopped => 2 | .trapped => 3 | .killing => 4 | _ => 0

/-- R412: a write of BIND; the arrivals held for the job of one binding are not another's (log 143). -/
def Window.boundTo (w : Window) (v : Word) : Window :=
  { w with bind := v, pending := if bit v 47 = bit w.bind 47 ∧ bits v 0 32 = bits w.bind 0 32 then w.pending else [] }

/-- R412: whether a window binds semaphore arrivals to the job of a slot. -/
def windowBinds (w : Window) (slotNo : Nat) (t : Slot) : Bool :=
  bit w.bind 47 && decide (bits w.bind 36 7 < 96) && decide (2 * (bits w.bind 43 4 * 96 + bits w.bind 36 7) + bits w.bind 35 1 = slotNo) &&
    decide (bits w.bind 0 32 = t.job.launchid.toNat)

/-- R461: FW.JST; a count stops at the largest that its field holds, and a job that is starting shows RUNNING (log 27). -/
def fwJst (s : State) (n : Nat) : Word :=
  let t := s.slot n
  if t.state = .free then 0
  else
    let count (l : List Cmd) : Nat := min 63 l.length
    BitVec.ofNat 64 (2 ^ 63 + stateCode t.state * 2 ^ 60 +
      (b2n t.a.ended + 2 * b2n t.m.ended + 4 * b2n t.v.ended) * 2 ^ 57 +
      b2n (s.windows.any fun w => windowBinds w.2 n t) * 2 ^ 56 +
      t.nests.length * 2 ^ 52 + count t.cq * 2 ^ 46 +
      count t.fq * 2 ^ 40 + t.job.launchid.toNat)

/-- R460: what FW.JCSR reads. -/
def fwJcsrRead (s : State) (core : Nat) : Word :=
  let n := fwTarget s core
  if (s.slot n).state = .free then 0 else csrRead s n (fwStream (s.fw core).sel) (bits (s.fw core).sel 10 12)

/-- R460: a write reaches RW fields of a slot that is STOPPED or TRAPPED. -/
def fwJcsrWrite (s : State) (core : Nat) (d : Word) : State :=
  let n := fwTarget s core
  let num := bits (s.fw core).sel 10 12
  let st := (s.slot n).state
  if (st = .stopped ∨ st = .trapped) ∧ csrExists num ∧ csrWritable false num then
    csrSet { s with issue := { s.issue with flags := 0 } } n (fwStream (s.fw core).sel) num d
  else fwReject s core

/-- R463, R468: a job begins to stop: no further bundle issues, but the rest of a V stream's pass and its early
epilogue. -/
def beginStop (s : State) (n : Nat) (st : JobState) : State :=
  s.modSlot n fun t => { t with state := st, v := t.v.epilogue }

/-- R463: a RESUME under way holds its slot (log 148). -/
def State.resumeHeld (s : State) (n : Nat) : Bool := s.cores.any fun e => e.2.fw.busy && e.2.fw.op == 2 && e.2.fw.target == n

/-- R462, R463: a write of FW.CMD: the command begins, or REJECT is set. STOP and KILL of a job that is starting take hold once its
streams run. -/
def fwCmdWrite (s : State) (core : Nat) (d : Word) : State :=
  let n := fwTarget s core
  let t := s.slot n
  let op := bits d 0 4
  let begin_ (s : State) : State :=
    s.modFw core fun f => { f with busy := true, op := op, target := n, prior := t.state, cmdArg := f.arg, result := 0 }
  let kill (s : State) : State := if t.coresident then s.modFw core ({ · with result := BitVec.ofNat 8 Code.coschedule }) else begin_ s
  if (s.fw core).busy then fwReject s core
  else match op, t.state with
    | 1, .running => begin_ (beginStop s n .stopping)
    | 1, .starting => begin_ s
    | 2, .free => if s.resumeHeld n then fwReject s core else begin_ s
    | 3, .running => if t.coresident then kill s else begin_ (beginStop s n .killing)
    | 3, .starting => kill s
    | 3, .stopped => if t.coresident then kill s else begin_ (s.modSlot n ({ · with state := .killing }))
    | 3, .trapped => if t.coresident then kill s else begin_ (s.modSlot n ({ · with state := .killing }))
    | 4, .trapped => begin_ s
    | _, _ => fwReject s core

/-- R459 to R466: what a firmware context reads from its own CSRs. -/
def fwCsrRead (s : State) (core n : Nat) : Word :=
  let f := s.fw core
  match n with
  | 0x800 => f.sel
  | 0x801 => fwJcsrRead s core
  | 0x802 => fwJst s (fwTarget s core)
  | 0x804 => BitVec.ofNat 64 (f.result.toNat * 256 + b2n f.reject * 2 + b2n f.busy)
  | 0x805 => f.arg
  | 0x806 => f.event.setWidth 64
  | 0x807 => f.evmask.setWidth 64
  | 0x808 => BitVec.ofNat 64 (f.wdage.toNat * 65536 + f.period.toNat)
  | 0x809 => f.tbase
  | _ => 0

def fwCsrWrite (s : State) (core n : Nat) (v : Word) : State :=
  match n with
  | 0x800 => fwSelWrite s core v
  | 0x801 => fwJcsrWrite s core v
  | 0x803 => fwCmdWrite s core v
  | 0x804 => if bit v 1 then s.modFw core ({ · with reject := false }) else s
  | 0x805 => s.modFw core ({ · with arg := keepFields v [(6, 58)] })
  | 0x806 => s.modFw core fun f => { f with event := f.event &&& ~~~(v.setWidth 5) }
  | 0x807 => s.modFw core ({ · with evmask := v.setWidth 5 })
  | 0x808 => s.modFw core ({ · with wdage := BitVec.ofNat 16 (bits v 16 16), period := v.setWidth 16 })
  | 0x809 => s.modFw core ({ · with tbase := keepFields v [(7, 57)] })
  | 0x80A => fwHealthWrite s core v
  | _ => s

/-! ## CSRR and CSRW (R143) -/

/-- R146: the bundle that reads its own WAITST is not waiting; R60: what is read is the state before the bundle. -/
def csrReadMine (s : State) (n : Nat) : Word :=
  let g := s.me
  if 0x800 ≤ n then fwCsrRead s (slotCore g.slot) n
  else if n = 4 then 0
  else csrRead (s.setSlot g.slot s.readSlot) g.slot g.st n

/-- R322: FWSHARE is held to 1 to 8. -/
def clampShare (v : Word) : Nat := if v = 0 then 1 else min v.toNat 8

/-- R143, R204: a write to a CSR by the stream at hand. -/
def csrWriteMine (s : State) (n : Nat) (v : Word) : Eff :=
  let g := s.me
  if 0x800 ≤ n then .ok (fwCsrWrite s (slotCore g.slot) n v)
  else if n = 0x404 then .ok (s.modFw (slotCore g.slot) ({ · with share := clampShare v }))
  else if n = 0x103 ∧ isJob g.slot ∧ !s.mySlot.holdsTile (bits v 0 2) then .trap (trapOf Code.tileType 1)
  else .ok (csrSet s g.slot g.st n v)

def execCsrr (h : Hd) (d : BitVec 5) (c : BitVec 12) (s : State) : Host.Outcome State Fault Refusal :=
  runGuarded s (.csrr h d c) fun s => .ok (s.writeX d (csrReadMine s c.toNat))

def execCsrw (h : Hd) (a : BitVec 5) (c : BitVec 12) (s : State) : Host.Outcome State Fault Refusal :=
  runGuarded s (.csrw h a c) fun s => csrWriteMine s c.toNat (s.readX a)

def execCsrwSet (h : Hd) (a : BitVec 5) (c : BitVec 12) (s : State) : Host.Outcome State Fault Refusal :=
  runGuarded s (.csrwSet h a c) fun s => csrWriteMine s c.toNat (csrReadMine s c.toNat ||| s.readX a)

def execCsrwClr (h : Hd) (a : BitVec 5) (c : BitVec 12) (s : State) : Host.Outcome State Fault Refusal :=
  runGuarded s (.csrwClr h a c) fun s => csrWriteMine s c.toNat (csrReadMine s c.toNat &&& ~~~(s.readX a))

end Sys2Proof.Machine
end

