-- ==== Sys2Proof/Machine/Movement.lean ====
section
/-!
DEFINITION. Command issue (R158 to R163), rings (R174 to R177, R496), and the full bits of lines (R179).
-/

namespace Sys2Proof.Machine

/-! ## Command issue (R160 to R163) -/

/-- R160: FXFER, FRED, FSIG and FCOLL go to FQ, every other command to CQ. -/
def isFqOp (op : Nat) : Bool := decide (0x29 ≤ op) && decide (op ≤ 0x2B)

def Slot.cmds (t : Slot) (fq : Bool) : List Cmd := if fq then t.fq else t.cq
def Slot.setCmds (t : Slot) (fq : Bool) (l : List Cmd) : Slot := if fq then { t with fq := l } else { t with cq := l }

/-- R160: a queue of commands holds 32. -/
def queueCmd (s : State) (c : Cmd) : Eff :=
  let fq := isFqOp c.op
  let q := s.mySlot.cmds fq
  if 32 ≤ q.length then .wait 10 (b2n fq) 0
  else .ok ({ s with cmdCount := s.cmdCount + 1 }.modMySlot (·.setCmds fq (q ++ [{ c with id := s.cmdCount }])))

/-- R163: the commands whose COUNT gives bytes or elements that DONE = 2 counts. -/
def byteCounted (op fn : Nat) : Bool := decide (op = 0x25) || decide (op = 0x26) || (op == 0x29 && decide (fn ≤ 1))

/-- R163: whether a command may couple a ring on a side (false: the destination). -/
def ringCapable (op fn : Nat) (src : Bool) : Bool :=
  match op, fn with
  | 0x25, 0 => true | 0x25, 1 => true
  | 0x26, 0 => !src | 0x26, 1 => src
  | 0x29, 0 => src | 0x29, 1 => !src
  | _, _ => false

/-- R163: the bytes that COUNT gives, where it gives them. -/
def countBytes (op fn : Nat) (cw : Word) : Nat :=
  match op, fn with
  | 0x25, 0 => cwCount cw | 0x25, 3 => cwCount cw | 0x25, 4 => cwCount cw
  | 0x26, _ => bits cw 21 16 * 2 ^ bits cw 37 3
  | 0x29, _ => bits cw 0 24
  | _, _ => 0

/-- R163: what COUNT may hold. -/
def countOk (op fn : Nat) (cw : Word) : Bool :=
  match op, fn with
  | 0x25, 0 => true | 0x25, 3 => true
  | 0x25, 1 => bits cw 21 19 == 0 | 0x25, 2 => bits cw 21 19 == 0
  | 0x25, 4 => decide (128 ≤ cwCount cw) && decide (cwCount cw ≤ 16384) && cwCount cw % 128 == 0
  | 0x26, _ => true
  | 0x29, 0 => true
  | 0x29, 1 => bits cw 24 16 == 0
  | _, _ => cwCount cw == 0

/-- R162: the operand bits that must be 0. -/
def operandBitsOk (op fn : Nat) (b : Word) : Bool :=
  match op, fn with
  | 0x25, 2 => b >>> 4 == 0
  | 0x25, 4 => b &&& ~~~0xFF1FFF80#64 == 0
  | 0x2B, 3 => b >>> 16 == 0
  | _, _ => true

/-- R162: the BAD_CONTROL conditions. -/
def badCommand (c : Cmd) : Bool :=
  bits c.cw 40 4 != 0 || cwDone c.cw == 3 || !countOk c.op c.fn c.cw ||
    (cwDone c.cw == 2 && (!byteCounted c.op c.fn || decide (2 ^ 32 ≤ countBytes c.op c.fn c.cw))) ||
    (cwRingen c.cw && !ringCapable c.op c.fn (cwRside c.cw)) || !operandBitsOk c.op c.fn c.opb

/-- R163: the spaces that the first and the second operand may name; [] where the operand is no address. -/
def operandSpaces (op fn : Nat) : List Nat × List Nat :=
  let mem := [0, 8, 9, 10]
  match op, fn with
  | 0x25, 0 => (mem, mem) | 0x25, 1 => (mem, mem) | 0x25, 2 => (mem, []) | 0x25, 3 => ([], mem) | 0x25, 4 => ([8], [])
  | 0x26, 0 => ([0, 9, 10], [8, 9]) | 0x26, _ => ([8, 9], [0, 9, 10])
  | 0x29, 0 => (mem, [12]) | 0x29, _ => ([12], mem)
  | 0x2A, _ => ([12], [])
  | 0x2B, 2 => ([12], []) | 0x2B, _ => ([0, 8, 10], [])
  | 0x2D, _ => ([0], [])
  | _, _ => ([], [])

/-- R162, R163: whether an operand's space is allowed; a ring side's operand is an offset (R168). -/
def spaceOk (allowed : List Nat) (ringSide : Bool) (a : Word) : Bool :=
  allowed == [] || ringSide || allowed.contains (a.toNat / 2 ^ 60)

/-- R163: the alignments of the operands and of the offset in COUNT. -/
def alignOk (c : Cmd) : Bool :=
  let a := c.opa.toNat
  match c.op, c.fn with
  | 0x25, 1 => bits c.cw 0 21 % 64 == 0 | 0x25, 2 => bits c.cw 0 21 % 64 == 0
  | 0x25, 4 => a % 128 == 0
  | 0x26, _ => bits c.cw 0 21 % 4 == 0
  | 0x2A, f => a % (if f = 9 then 4 else 8) == 0
  | 0x2B, 2 => a % 8 == 0 | 0x2B, _ => a % 64 == 0
  | 0x2D, 1 => a % 128 == 0 && c.opb.toNat % 128 == 0
  | _, _ => true

/-- R162: the fault that a command raises before it enters its queue (log 136). -/
def cmdFault (c : Cmd) : Option Trap :=
  let ring (src : Bool) : Bool := cwRingen c.cw && cwRside c.cw == src
  let sp := operandSpaces c.op c.fn
  if badCommand c then some (trapOf Code.illegalOp 0x0A)
  else if !spaceOk sp.1 (ring true) c.opa then some (trapOf Code.space 0 c.opa)
  else if !spaceOk sp.2 (ring false) c.opb then some (trapOf Code.space 0 c.opb)
  else if !alignOk c then some (trapOf Code.misalign 0 c.opa)
  else none

/-- R160, R162: a command with the values of the registers that its fields name; one that an issue-time check refuses faults before a
full queue makes it wait (log 171). -/
def issueCmd (s : State) (i : Instr) (op fn : Nat) (d a b : BitVec 5) : Host.Outcome State Fault Refusal :=
  runGuarded s i fun s =>
    let c : Cmd := { cw := s.readX d, opa := s.readX a, opb := s.readX b, op := op, fn := fn, cmdidx := s.readStream.cmdidx }
    match cmdFault c with
    | some t => .trap t
    | none => queueCmd s c

def execCpyLin (h : Hd) (d a b : BitVec 5) (s : State) : Host.Outcome State Fault Refusal := issueCmd s (.cpyLin h d a b) 0x25 0 d a b
def execCpyShp (h : Hd) (d a b : BitVec 5) (s : State) : Host.Outcome State Fault Refusal := issueCmd s (.cpyShp h d a b) 0x25 1 d a b
def execCpySlot (h : Hd) (d a b : BitVec 5) (s : State) : Host.Outcome State Fault Refusal := issueCmd s (.cpySlot h d a b) 0x25 2 d a b
def execCpyFill (h : Hd) (d a b : BitVec 5) (s : State) : Host.Outcome State Fault Refusal := issueCmd s (.cpyFill h d a b) 0x25 3 d a b
def execCpyCirc (h : Hd) (d a b : BitVec 5) (s : State) : Host.Outcome State Fault Refusal := issueCmd s (.cpyCirc h d a b) 0x25 4 d a b
def execGath (h : Hd) (d a b : BitVec 5) (s : State) : Host.Outcome State Fault Refusal := issueCmd s (.gath h d a b) 0x26 0 d a b
def execScat (h : Hd) (d a b : BitVec 5) (s : State) : Host.Outcome State Fault Refusal := issueCmd s (.scat h d a b) 0x26 1 d a b
def execFput (h : Hd) (d a b : BitVec 5) (s : State) : Host.Outcome State Fault Refusal := issueCmd s (.fput h d a b) 0x29 0 d a b
def execFget (h : Hd) (d a b : BitVec 5) (s : State) : Host.Outcome State Fault Refusal := issueCmd s (.fget h d a b) 0x29 1 d a b
def execFred (h : Hd) (d a b : BitVec 5) (f : BitVec 4) (s : State) : Host.Outcome State Fault Refusal :=
  issueCmd s (.fred h d a b f) 0x2A f.toNat d a b
def execFsig (h : Hd) (d a b : BitVec 5) (s : State) : Host.Outcome State Fault Refusal := issueCmd s (.fsig h d a b) 0x2B 2 d a b
def execFcoll (h : Hd) (d a b : BitVec 5) (s : State) : Host.Outcome State Fault Refusal := issueCmd s (.fcoll h d a b) 0x2B 3 d a b
def execSegdet (h : Hd) (d a : BitVec 5) (s : State) : Host.Outcome State Fault Refusal := issueCmd s (.segdet h d a) 0x2C 2 d a 0
def execSegevict (h : Hd) (d a : BitVec 5) (s : State) : Host.Outcome State Fault Refusal := issueCmd s (.segevict h d a) 0x2C 3 d a 0
def execSegdrop (h : Hd) (d a : BitVec 5) (s : State) : Host.Outcome State Fault Refusal := issueCmd s (.segdrop h d a) 0x2C 4 d a 0
def execCflush (h : Hd) (d a b : BitVec 5) (s : State) : Host.Outcome State Fault Refusal := issueCmd s (.cflush h d a b) 0x2D 0 d a b
def execCclean (h : Hd) (d a b : BitVec 5) (s : State) : Host.Outcome State Fault Refusal := issueCmd s (.cclean h d a b) 0x2D 2 d a b
def execCinv (h : Hd) (d a b : BitVec 5) (s : State) : Host.Outcome State Fault Refusal := issueCmd s (.cinv h d a b) 0x2D 1 d a b
def execCpref (h : Hd) (d a b : BitVec 5) (s : State) : Host.Outcome State Fault Refusal := issueCmd s (.cpref h d a b) 0x2D 3 d a b

/-! ## Rings (R176, R177) -/

/-- R174: the code of a stream as a ring's agent. -/
def ringAgent : StreamId → Nat
  | .a => 0 | .m => 1 | .v => 2

/-- R174: the agent of a ring's role (false: producer). -/
def Ring.agent (r : Ring) (cons : Bool) : Nat := if cons then bits r.role 4 3 else bits r.role 0 3

def Slot.ring (t : Slot) (n : Nat) : Ring := sget t.rings {} n
def Slot.setRing (t : Slot) (n : Nat) (r : Ring) : Slot := { t with rings := sput t.rings n r }

/-- R176: the address of a slot of a ring. -/
def Ring.addrOf (r : Ring) (slot : Nat) : Word := BitVec.ofNat 64 (2 ^ 63 + r.offset + slot * r.slotBytes)

/-- R175: the lines of one slot, in the core's scratchpad. -/
def slotLines (t : Slot) (r : Ring) (slot : Nat) : List Nat :=
  upTo ((t.partStart + r.offset + slot * r.slotBytes) / 128) r.lines

/-- R176: takes the next slot of a role; none while there is none to take. -/
def Ring.take (r : Ring) (cons : Bool) : Option (Nat × Ring) :=
  let n := Nat.max 1 r.slots
  if cons then
    if r.filled = 0 then none
    else some (r.cons, { r with filled := r.filled - 1, heldC := r.heldC ++ [(r.cons, false)], cons := (r.cons + 1) % n })
  else if r.free = 0 then none
  else some (r.prod, { r with free := r.free - 1, heldP := r.heldP ++ [(r.prod, false)], prod := (r.prod + 1) % n })

/-- R176: gives the newest slot of a role back unused. -/
def Ring.untake (r : Ring) (cons : Bool) : Ring :=
  let n := Nat.max 1 r.slots
  if cons then { r with filled := r.filled + 1, heldC := r.heldC.dropLast, cons := (r.cons + n - 1) % n }
  else { r with free := r.free + 1, heldP := r.heldP.dropLast, prod := (r.prod + n - 1) % n }

def Ring.held (r : Ring) (cons : Bool) : List (Nat × Bool) := if cons then r.heldC else r.heldP

/-- The released slots at the front of a list of held ones, and the rest. -/
def splitReleased : List (Nat × Bool) → List Nat × List (Nat × Bool)
  | (n, true) :: t => let (a, b) := splitReleased t; (n :: a, b)
  | l => ([], l)

/-- R176: a slot is released: it is counted, and its lines set full or empty, once every earlier one is. -/
def releaseSlot (s : State) (slotNo n : Nat) (cons : Bool) (slot : Nat) : State :=
  let t := s.slot slotNo
  let r := t.ring n
  let (out, rest) := splitReleased ((r.held cons).map fun e => if e.1 = slot then (e.1, true) else e)
  let r1 := if cons then { r with heldC := rest, free := r.free + out.length, commits := r.commits + 1 }
            else { r with heldP := rest, filled := r.filled + out.length }
  let s1 := s.setSlot slotNo (t.setRing n r1)
  let ls := (out.map (slotLines t r)).foldl (· ++ ·) []
  if cons then setEmptyLines s1 (slotCore slotNo) ls else setFullLines s1 (slotCore slotNo) ls

/-- R177: the checks of a ring instruction. -/
def ringFault (s : State) (n : Nat) (cons : Bool) : Option Trap :=
  let r := s.mySlot.ring n
  if !s.mySlot.ringMask.testBit n ∨ !r.enabled then some (trapOf Code.ringProtocol 1)
  else if r.agent cons ≠ ringAgent s.me.st then some (trapOf Code.ringProtocol 2)
  else none

/-- R496: the snapshot that RACQ.C takes; a restart that takes its slot again keeps its own. -/
def snapshot (t : Slot) (st : Stream) (n : Nat) (r : Ring) : Phase :=
  { ring := n, x := st.x, p := st.p, lc := st.lc, rrb := st.rrb
    n := match st.blk with | some b => b.n | none => 1
    cancels := 0, outHeld := (t.ring (bits r.role 12 4)).heldP.length, redo := false }

/-- R174, R176: RACQ.C, with where its phase began. -/
def acquireC (s : State) (d : BitVec 5) (n : Nat) (r : Ring) (slot : Nat) : State :=
  let g := s.me
  let st := s.myStream
  let k : Nat := match st.blk with | some b => b.k | none => 0
  let r1 := { r with phasePc := st.header, phaseIter := BitVec.ofNat 64 k }
  let ph := snapshot s.mySlot st n r
  ((s.modSlot g.slot (·.setRing n r1)).modMyStream ({ · with phase := some ph })).writeX d (r.addrOf slot)

/-- R498: whether the stream restarts a cancelled phase of a ring. -/
def redoing (st : Stream) (n : Nat) : Option Phase :=
  match st.phase with
  | some ph => if ph.redo ∧ ph.ring = n then some ph else none
  | none => none

/-- R176: RACQ. A restarted phase takes the slot that it holds again, once its source record has run (log 43). -/
def racqEff (s : State) (d : BitVec 5) (n : Nat) (cons : Bool) : Eff :=
  let t := s.mySlot
  let r := t.ring n
  match ringFault s n cons with
  | some f => .trap f
  | none =>
    match (if cons then redoing s.myStream n else none), r.heldC.getLast? with
    | some ph, some (slot, _) =>
      if !(t.cq ++ t.fq).any (fun c => c.again && cwRing c.cw == n) then
        .ok ((s.modMyStream ({ · with phase := some { ph with redo := false } })).writeX d (r.addrOf slot))
      else .wait 5 n 0
    | _, _ =>
      match r.take cons with
      | none => .wait 5 n 0
      | some (slot, r1) =>
        if cons then .ok (acquireC s d n r1 slot)
        else .ok ((s.modMySlot fun t => t.setRing n { r1 with src := sput r1.src slot none }).writeX d (r.addrOf slot))

def execRacq (h : Hd) (d n : BitVec 5) (r : BitVec 1) (s : State) : Host.Outcome State Fault Refusal :=
  runGuarded s (.racq h d n r) fun s => racqEff s d n.toNat (r == 1)

/-- R496: the phase of a ring ends. -/
def Stream.endPhase (st : Stream) (n : Nat) : Stream :=
  match st.phase with
  | some ph => if ph.ring = n then { st with phase := none } else st
  | none => st

/-- R176: RREL. The RREL.C that releases the slot which the last RACQ.C took ends that phase (R496). -/
def rrelEff (s : State) (n : Nat) (cons : Bool) : Eff :=
  match ringFault s n cons with
  | some f => .trap f
  | none =>
    match ((s.mySlot.ring n).held cons).find? (fun e => !e.2) with
    | none => .trap (trapOf Code.ringProtocol 3)
    | some (slot, _) =>
      let s1 := releaseSlot s s.me.slot n cons slot
      .ok (if cons ∧ (s.mySlot.ring n).heldC.getLast?.map (·.1) = some slot then s1.modMyStream (·.endPhase n) else s1)

def execRrel (h : Hd) (n : BitVec 5) (r : BitVec 1) (s : State) : Host.Outcome State Fault Refusal :=
  runGuarded s (.rrel h n r) fun s => rrelEff s n.toNat (r == 1)

/-- R176: RCAN. -/
def rcanEff (s : State) (n : Nat) (cons : Bool) : Eff :=
  match ringFault s n cons with
  | some f => .trap f
  | none =>
    if (s.mySlot.ring n).held cons = [] then .trap (trapOf Code.ringProtocol 3)
    else
      let s1 := s.modMySlot fun t => t.setRing n ((t.ring n).untake cons)
      .ok (if cons then s1.modMyStream (·.endPhase n) else s1)

def execRcan (h : Hd) (n : BitVec 5) (r : BitVec 1) (s : State) : Host.Outcome State Fault Refusal :=
  runGuarded s (.rcan h n r) fun s => rcanEff s n.toNat (r == 1)

/-- R177: RSTAT of a declared ring never faults. -/
def execRstat (h : Hd) (d n : BitVec 5) (s : State) : Host.Outcome State Fault Refusal :=
  runGuarded s (.rstat h d n) fun s =>
    if s.mySlot.ringMask.testBit n.toNat then .ok (s.writeX d (s.readSlot.ring n.toNat).stat)
    else .trap (trapOf Code.ringProtocol 1)

/-! ## Full and empty lines (R179) -/

/-- The spaces whose lines have full bits. -/
def lineSpace (a : Word) : Bool := a.toNat / 2 ^ 60 == 8 || a.toNat / 2 ^ 60 == 9

def emptyPieces (s : State) : List Piece → State
  | [] => s
  | p :: ps => emptyPieces (setEmptyLines s (padCore p.key) (unitsOf 128 (padOff p.key) p.len)) ps

def execFempty (h : Hd) (a b : BitVec 5) (s : State) : Host.Outcome State Fault Refusal :=
  runGuarded s (.fempty h a b) fun s =>
    let addr := s.readX a
    let n := (s.readX b).toNat
    if n = 0 then .ok s
    else if 16384 < n then .trap (trapOf Code.illegalOp 0x0A)
    else if !lineSpace addr then .trap (trapOf Code.space 0 addr)
    else if addr.toNat % 128 ≠ 0 then .trap (trapOf Code.misalign 0 addr)
    else match resolve s (myReq s) .w addr addr (128 * n) with
      | .error t => .trap t
      | .ok ps => .ok (emptyPieces s ps)

def execFtest (h : Hd) (d a : BitVec 5) (s : State) : Host.Outcome State Fault Refusal :=
  runGuarded s (.ftest h d a) fun s =>
    let addr := s.readX a
    if !lineSpace addr then .trap (trapOf Code.space 0 addr)
    else match resolve s (myReq s) .r addr addr 1 with
      | .error t => .trap t
      | .ok ps => .ok (s.writeX d (if ps.any (touchesEmpty s) then 0 else 1))

end Sys2Proof.Machine
end

