-- ==== Sys2Proof/Machine/Packets.lean ====
section
/-!
DEFINITION. Fabric packets and transactions as a module begins them (R180, R183, R417, R425), and FLL and FSC (R183, R186).
-/

namespace Sys2Proof.Machine

/-! ## Packets (R417, R425) -/

namespace Op
def put : Nat := 0
def getreq : Nat := 1
def getdata : Nat := 2
def red : Nat := 3
def sig : Nat := 4
def fll : Nat := 5
def fsc : Nat := 6
def ack : Nat := 7
def coll : Nat := 8
end Op

/-- R425: the message class of an operation. -/
def opClass (op : Nat) : Nat :=
  if op = Op.getdata ∨ op = Op.ack then 1 else if op = Op.red ∨ op = Op.coll then 2 else 0

/-- R417: the flits of a packet. -/
def FPkt.flits (p : FPkt) : Nat := (32 + p.data.length + 247) / 248

/-- The number of an input VC (R415): 12 × port + 4 × class + VC; port 128 is the module's own injection. -/
def vcNo (port cls vc : Nat) : Nat := 12 * port + 4 * cls + vc

/-- A packet enters the module's own router. -/
def inject (s : State) (p : FPkt) : State :=
  let k := vcNo 128 p.cls 0
  let e : InPkt := { pkt := p, flits := p.flits, need := p.flits, at_ := s.tick, since := s.tick, len := p.data.length }
  { s with fab := { s.fab with inq := sput s.fab.inq k (sget s.fab.inq [] k ++ [e]) } }

/-- R410: the device of a remote address, and the bits that a packet's ADDR carries. -/
def remoteDev (a : Word) : Nat := bits a 42 18
def remoteAddr (a : Word) : Nat := bits a 0 42

/-- A request of this module. -/
def request (s : State) (op prio : Nat) (a : Word) (data : List Byte) (arrive : Nat) : FPkt :=
  { dest := remoteDev a, src := s.deviceId, cls := opClass op, prio := prio, op := op, arrive := arrive,
    addr := remoteAddr a, data := data }

/-- A transaction begins: its packet carries a tag of its own. -/
def transact (s : State) (x : Xact) (p : FPkt) : State :=
  let tag := s.fab.nextTag
  inject { s with fab := { s.fab with nextTag := (tag + 1) % 2 ^ 32, xacts := sput s.fab.xacts tag { x with at_ := s.tick } } }
    { p with tag := tag }

/-! ## FLL and FSC (R183) -/

/-- Slot.replies: where answer `k` of a stream's FLL or FSC stands: 0 while it is outstanding, 1 its value, 2 its fault (code, and
sub-code from bit 8), 3 when its value is data whose check fails (R497). -/
def replyKey (st : StreamId) (k : Nat) : Nat := 8 + 4 * streamBit st + k

def Slot.reply (t : Slot) (st : StreamId) (k : Nat) : Option Word := sfind t.replies (replyKey st k)

/-- Answer `k` in place of whatever stands. -/
def Slot.setReply (t : Slot) (st : StreamId) (k : Nat) (v : Word) : Slot :=
  { t with replies := sput (t.replies.filter fun e => e.1 / 4 != 2 + streamBit st) (replyKey st k) v }

def Slot.clearReply (t : Slot) (st : StreamId) : Slot :=
  { t with replies := t.replies.filter fun e => e.1 / 4 != 2 + streamBit st }

/-- R183: an FLL or FSC of a stream has its answer, with which its bundle goes on. -/
def Slot.answered (t : Slot) (st : StreamId) : Bool := (upTo 1 3).any fun k => (t.reply st k).isSome

/-- R183, R468: a bundle of FLL or FSC is on its way: its request is out, or its answer has landed and the bundle has yet to end. -/
def Slot.midRemote (t : Slot) : Bool := [StreamId.a, .m, .v].any fun st => (t.reply st 0).isSome || t.answered st

/-- R149: a stream waits at an RDV that another stream of the mask has passed: its own has completed with it. -/
def Slot.rdvPassed (t : Slot) (st : StreamId) : Bool :=
  match (t.stream st).wait with
  | some w => w.kind == 6 && [StreamId.a, .m, .v].any fun k =>
      bit (BitVec.ofNat 3 w.obj) (streamBit k) && decide (sget (t.stream st).rdv 0 w.obj < sget (t.stream k).rdv 0 w.obj)
  | none => false

/-- R237: a stream is in the early epilogue of a software-pipelined block, which no fault has stopped. -/
def Slot.inEpilogue (t : Slot) (st : StreamId) : Bool :=
  st == .v && (match (t.stream st).blk with | some b => b.drain.isSome && !b.halted | none => false)

/-- R183, R456: the number of a requester: 4 × job slot + stream, which the request carries in ARRIVE (log 44). -/
def requesterNo (g : Agent) : Nat := 4 * g.slot + streamBit g.st

/-- R183, R186: the bundle is held until the answer has landed; its fault is the bundle's. -/
def remoteEff (s : State) (op : Nat) (kind : XKind) (a : Word) (data : List Byte) (k : State → Word → Eff) : Eff :=
  let t := s.mySlot
  if a.toNat / 2 ^ 60 ≠ 12 then .trap (trapOf Code.space 0 a)
  else if a.toNat % 8 ≠ 0 then .trap (trapOf Code.misalign 0 a)
  else if (t.reply s.me.st 3).isSome then .poison
  else match t.reply s.me.st 1, t.reply s.me.st 2, t.reply s.me.st 0 with
    | some v, _, _ => k (s.modMySlot (·.clearReply s.me.st)) v
    | none, some f, _ => .trap { code := bits f 0 8, sub := f >>> 8, faddr := a }
    | none, none, some _ => .hold s
    | none, none, none =>
      .hold (transact (s.modMySlot (·.setReply s.me.st 0 0))
        { slot := s.me.slot, st := s.me.st, cmd := none, kind := kind, at_ := s.tick }
        (request s op t.prio a data (requesterNo s.me)))

def execFll (h : Hd) (d a : BitVec 5) (s : State) : Host.Outcome State Fault Refusal :=
  runGuarded s (.fll h d a) fun s => remoteEff s Op.fll .fll (s.readX a) [] fun s v => .ok (s.writeX d v 4)

def execFsc (h : Hd) (d a b : BitVec 5) (s : State) : Host.Outcome State Fault Refusal :=
  runGuarded s (.fsc h d a b) fun s =>
    remoteEff s Op.fsc .fsc (s.readX a) (natBytes 8 (s.readX b).toNat) fun s v => .ok (s.writeX d v 4)

end Sys2Proof.Machine
end

