-- ==== Sys2Proof/Machine/CmdBase.lean ====
section
/-!
DEFINITION. How a command ends: completion with its signal (R166, R178), and faults (R194, R195, R200, R201, R473).
-/

namespace Sys2Proof.Machine

/-! ## Asynchronous faults (R201, R473) -/

/-- R473: an asynchronous fault: the job of the slot traps; where that job has ended, the record goes to the launch's
fault area with ENDED set. -/
def asyncFault (s : State) (n launch : Nat) (r : TrapRec) : State :=
  let t := s.slot n
  if t.state = .free ∨ t.launch ≠ launch then reportFault s launch { r with ended := true } else jobTrap s n r

/-- R195: what a command has performed: bytes, or elements for GATH and SCAT. -/
def Cmd.performed (c : Cmd) : Nat := if c.op = 0x26 then c.bytes / 2 ^ bits c.cw 37 3 else c.bytes

/-- R195: the status word of a command's fault. -/
def Cmd.status (c : Cmd) (fq : Bool) (sub : Nat) : Word :=
  BitVec.ofNat 64 (c.op * 2 ^ 56 + c.fn * 2 ^ 52 + b2n fq * 2 ^ 51 + c.performed * 2 ^ 8 + sub % 256)

/-- The first of a unit's addresses, and its bytes. -/
def Unit4k.dst (u : Unit4k) : Word := (u.parts.head?.map (·.run.dst)).getD 0
def Unit4k.len (u : Unit4k) : Nat := u.count.getD ((u.parts.map (·.run.len)).foldr (· + ·) 0)

/-- R470, R473: the record of an engine's fault: `source` 3 copy engine, 4 fabric engine, 5 nest queue. -/
def engineRecord (s : State) (n source : Nat) (cmdidx : BitVec 48) (status fa : Word) (code : Nat) : TrapRec :=
  let t := s.slot n
  { code := code, source := source, async := true, launchid := t.job.launchid, cmdidx := cmdidx, place := placeOf n,
    status := status, faddr := fa, leaf := leafOfJob t.job, tick := BitVec.ofNat 64 s.tick }

def cmdRecord (s : State) (n : Nat) (fq : Bool) (c : Cmd) (t : Trap) : TrapRec :=
  engineRecord s n (if fq then 4 else 3) c.cmdidx (c.status fq t.sub.toNat) t.faddr t.code

/-! ## Commands by number -/

def Slot.cmd (t : Slot) (fq : Bool) (id : Nat) : Option Cmd := (t.cmds fq).find? (·.id == id)

def Slot.modCmd (t : Slot) (fq : Bool) (id : Nat) (f : Cmd → Cmd) : Slot :=
  t.setCmds fq ((t.cmds fq).map fun c => if c.id = id then f c else c)

def Slot.dropCmd (t : Slot) (fq : Bool) (id : Nat) : Slot := t.setCmds fq ((t.cmds fq).filter (·.id != id))

def State.modCmd (s : State) (n : Nat) (fq : Bool) (id : Nat) (f : Cmd → Cmd) : State := s.modSlot n (·.modCmd fq id f)

/-- CPY.SLOT (R170). -/
def Cmd.slotCopy (c : Cmd) : Bool := c.op == 0x25 && c.fn == 2

/-- R245: a CPY.SLOT that faults after it has started leaves its slot EMPTY. -/
def failSlot (t : Slot) (c : Cmd) : Slot :=
  if c.slotCopy ∧ c.started ∧ !c.again then { t with oslots := sput t.oslots (bits c.opb 0 4) {} } else t

/-- R262: the hand-off of a retirement fails: its entry waits for it no more. -/
def Slot.handFailed (t : Slot) (c : Cmd) : Slot :=
  match c.handoff with
  | none => t
  | some h => { t with nests := t.nests.map fun e => if e.id = h.nest then { e with reducing := e.reducing.filter (· != h.n) } else e }

/-- R194, R200: a command faults: it stops where it is, holding its ring slot, and its queue starts no later one. -/
def failCmd (s : State) (n : Nat) (fq : Bool) (id : Nat) (t : Trap) : State :=
  match (s.slot n).cmd fq id with
  | none => s
  | some c =>
    let s1 := s.modSlot n fun t => (failSlot t c).handFailed c |>.modCmd fq id ({ · with failed := true, started := true })
    asyncFault s1 n (s.slot n).launch (cmdRecord s n fq c t)

/-! ## Completion (R166, R178) -/

/-- R137: an engine has added to a semaphore of a slot's core: of a cycle's operations its streams' came before. -/
def engineSem (s : State) (n : Nat) : State := s.modCore (slotCore n) ({ · with engAt := some s.tick })

/-- R137, R166: an engine adds to a semaphore of the job; an overflow is the command's fault. -/
def engineAdd (s : State) (n : Nat) (fq : Bool) (id v : Nat) : State :=
  match (s.slot n).cmd fq id with
  | none => s
  | some c =>
    if c.again then s
    else match (s.slot n).addSem (cwSem c.cw) v with
    | some t => engineSem (s.setSlot n t) n
    | none => failCmd s n fq id (trapOf Code.semOverflow 0)

/-- R178: the slot that a coupled command holds is released. -/
def releaseCmd (s : State) (n : Nat) (c : Cmd) : State :=
  match c.slotNo with
  | some k => if cwRingen c.cw then releaseSlot s n (cwRing c.cw) (cwRside c.cw) k else s
  | none => s

/-- R166: a command completes: its ring slot is released, its signal delivered, and it leaves its queue. -/
def finishCmd (s : State) (n : Nat) (fq : Bool) (id : Nat) : State :=
  match (s.slot n).cmd fq id with
  | none => s
  | some c =>
    if c.again then s.modSlot n (·.dropCmd fq id)
    else if cwDone c.cw = 1 then
      match (s.slot n).addSem (cwSem c.cw) 1 with
      | none => failCmd s n fq id (trapOf Code.semOverflow 0)
      | some t => releaseCmd ((engineSem (s.setSlot n t) n).modSlot n (·.dropCmd fq id)) n c
    else releaseCmd (s.modSlot n (·.dropCmd fq id)) n c

end Sys2Proof.Machine
end

