-- ==== Sys2Proof/Machine/Tarn.lean ====
section
/-!
DEFINITION. The tarn directory (chapters 05 and 12): storage, creation, attaching, eviction, refill, migration, dropping,
and the instructions SEGNEW, SEGATT and SEGQRY.
-/

namespace Sys2Proof.Machine

/-! ## The directory (R373, R375) -/

def Tarn.is (t : Tarn) (ctx name : Nat) : Bool := t.ctx == ctx && t.name == name
def findTarn (s : State) (ctx name : Nat) : Option Tarn := s.tarns.find? (·.is ctx name)
def putTarn (s : State) (t : Tarn) : State := { s with tarns := s.tarns.map fun u => if u.is t.ctx t.name then t else u }
def delTarn (s : State) (t : Tarn) : State := { s with tarns := s.tarns.filter fun u => !u.is t.ctx t.name }

/-- R377: whether a tarn has storage. -/
def Tarn.stored (t : Tarn) : Bool := t.state != .evicted

/-- R188, R380: whether any attachment exists, a waiting one counted. -/
def Tarn.attached (t : Tarn) : Bool := t.writer || t.readers != 0

/-! ## Storage (R373, R374) -/

/-- The key of the byte at an offset of a level's space. -/
def levelKey (s : State) (level home o : Nat) : Nat :=
  match level with
  | 0 => padKey home o
  | 1 => padKey (96 * home + o / 4096 % 96) (2 ^ 21 - shareBytes s home + 4096 * (o / 4096 / 96) + o % 4096)
  | _ => chipKey o

/-- The offset in a level's space of a key, where it lies in that level of that domain. -/
def levelOff (s : State) (level home key : Nat) : Option Nat :=
  match level with
  | 0 => if isPadKey key ∧ padCore key = home then some (padOff key) else none
  | 1 =>
    let base := 2 ^ 21 - shareBytes s home
    if isPadKey key ∧ padCore key / 96 = home ∧ base ≤ padOff key then
      some (((padOff key - base) / 4096 * 96 + padCore key % 96) * 4096 + padOff key % 4096)
    else none
  | _ => if isChipKey key then some (key - 2 ^ 53) else none

/-- The bytes of a level's space that storage may come from. -/
def levelSize (s : State) (level home : Nat) : Nat :=
  match level with
  | 0 => 2 ^ 21 - shareBytes s (home / 96)
  | 1 => 96 * shareBytes s home
  | _ => 2 ^ 28

/-- R373, R383: the runs of a level's space that are taken, as (start, bytes): other tarns' storage and, at core level,
the parts of the core's jobs. -/
def takenRuns (s : State) (level home : Nat) : List (Nat × Nat) :=
  let own := (s.tarns.filter fun t => t.level == level && t.home == home && t.stored).map fun t => (t.run, t.size * 65536)
  let old := s.tarns.filterMap fun t =>
    match t.moveFrom with
    | some (h, r) => if t.level = level ∧ h = home then some (r, t.size * 65536) else none
    | none => none
  let parts := if level = 0 then
      ((upTo (2 * home) 2).map s.slot).filterMap fun t => if (t.state = .free ∧ t.reserved.isNone) ∨ t.partLen = 0 then none else some (t.partStart, t.partLen)
    else []
  own ++ old ++ parts

/-- Whether a run meets none of the taken ones. -/
def runFree (taken : List (Nat × Nat)) (start len : Nat) : Bool :=
  taken.all fun r => decide (start + len ≤ r.1) || decide (r.1 + r.2 ≤ start)

/-- R373: the lowest free run of `len` bytes, 64 KiB aligned. -/
def lowestRun (taken : List (Nat × Nat)) (size len : Nat) : Option Nat :=
  ((upTo 0 (size / 65536)).map (· * 65536)).find? fun o => decide (o + len ≤ size) && runFree taken o len

/-- R329, R377: freed storage is cleared: its bytes read 0 and its lines are full. -/
def clearRun (s : State) (level home start len : Nat) : State :=
  let inRun (k : Nat) : Bool := match levelOff s level home k with
    | some o => decide (start ≤ o) && decide (o < start + len)
    | none => false
  let clearCore (c : Nat) (k : Core) : Core := { k with empty := k.empty.filter fun l => !inRun (padKey c (128 * l)) }
  { s with mem := s.mem.filter (fun e => !inRun e.1), poison := s.poison.filter (fun u => !inRun (8 * u))
           cores := if level = 2 then s.cores else s.cores.map fun e => (e.1, clearCore e.1 e.2) }

/-- A tarn's storage is freed: its run, and the one that it moves from. -/
def freeStorage (s : State) (t : Tarn) : State :=
  let s1 := clearRun s t.level t.home t.run (t.size * 65536)
  match t.moveFrom with
  | some (h, r) => clearRun s1 t.level h r (t.size * 65536)
  | none => s1

/-- The pieces of a unit of storage, 4 KiB each. -/
def unitPieces (s : State) (level home start u : Nat) : List Piece :=
  (upTo 0 16).map fun c => { key := levelKey s level home (start + u * 65536 + c * 4096), len := 4096 }

def tarnReq (t : Tarn) : Req := { cls := 0, ctx := t.ctx }
def Tarn.backingVa (t : Tarn) (u : Nat) : Word := BitVec.ofNat 64 (t.backing * 65536 + u * 65536)

/-! ## Writing back and filling (R377 to R379) -/

/-- Copies dirty units to the backing, in rising order, up to the first fault. -/
def writeBackUnits (s : State) (t : Tarn) : List Nat → Except Trap State
  | [] => .ok s
  | u :: us =>
    let ps := unitPieces s t.level t.home t.run u
    match storeAll s (tarnReq t) (t.backingVa u) (piecesBytes s ps) with
    | .error f => .error f
    | .ok s1 =>
      let bad := badRuns s 0 ps
      let s2 := if bad = [] then s1 else
        (match resolve s1 (tarnReq t) .w (t.backingVa u) (t.backingVa u) 65536 with
         | .ok qs => spreadRuns s1 bad 0 qs
         | .error _ => s1)
      writeBackUnits s2 t us

def sortNat (l : List Nat) : List Nat := l.foldl insertNat []

/-- Writes bytes into pieces without the checks and marks of an access (R369). -/
def rawWrite (s : State) : List Piece → List Byte → State
  | [], _ => s
  | p :: ps, bs => rawWrite { s with mem := writeBytes s.mem p.key (bs.take p.len) } ps (bs.drop p.len)

/-- Fills units from the backing, up to the first fault. -/
def fillUnits (s : State) (t : Tarn) : List Nat → Except Trap State
  | [] => .ok s
  | u :: us =>
    match fetchAll s (tarnReq t) (t.backingVa u) 65536 with
    | .error f => .error f
    | .ok (s0, bs, poison) =>
      let ps := unitPieces s t.level t.home t.run u
      let s1 := rawWrite s0 ps bs
      fillUnits (spreadRuns s1 poison 0 ps) t us

/-! ## Operations that the directory has accepted (R191, R391) -/

/-- R391: a SEGADMIN record's operation is over: its fault code and sub-code, or zeros. -/
def postAdmin (s : State) (q idx : Nat) (f : Nat × Nat) : State :=
  let mark (p : Packet) : Packet := if p.idx = idx then { p with admin := some f } else p
  match sfind s.queues q with
  | some u => { s with queues := sput s.queues q { u with packets := u.packets.map mark } }
  | none => s

/-- An operation is over: a SEG command completes, a record learns of it; an allocation goes on by itself. -/
def finishAsker (s : State) : Asker → State
  | .cmd n id => finishCmd s n false id
  | .admin q idx => postAdmin s q idx (0, 0)
  | .auto _ _ => s

/-- An operation fails. -/
def failAsker (s : State) (f : Trap) : Asker → State
  | .cmd n id => failCmd s n false id f
  | .admin q idx => postAdmin s q idx (f.code, f.sub.toNat)
  | .auto _ _ => s

/-! ## Ending (R376, R377) -/

def absentFault : Trap := trapOf Code.attachMiss 1

/-- The tarn is gone: the drops that it owes are done, and an eviction finds no tarn. -/
def removeTarn (s : State) (t : Tarn) : State :=
  t.drops.foldl finishAsker (t.evicts.foldl (fun s a => failAsker s absentFault a) (delTarn s t))

/-- SEGDROP, SEGADMIN DROP and the end of life, once nothing holds the tarn back. -/
def dropTarn (s : State) (t : Tarn) : State := removeTarn (if t.stored then freeStorage s t else s) t

/-- R376, R381: a tarn whose life has ended is dropped as soon as no attachment and no hold stands and no fill or write-back is under
way. -/
def settleEnd (s : State) (t : Tarn) : State :=
  if t.ending ∧ !t.attached ∧ t.holds = [] ∧ (t.state = .resident ∨ t.state = .evicted) then dropTarn s t else s

/-- What waits for a hold's end goes on. -/
def settleTarns (s : State) : State := s.tarns.foldl settleEnd s

/-- R376: the tarns that a predicate picks end. -/
def endTarns (s : State) (p : Tarn → Bool) : State :=
  let ts := s.tarns.filter p
  ts.foldl (fun s t => settleEnd (putTarn s { t with ending := true }) { t with ending := true }) s

/-- R376: a context that is to be destroyed is, once no job of it runs: its CONTEXT and PINNED tarns end. -/
def settleContext (s : State) (ctx : Nat) : State :=
  if !s.dying.contains ctx ∨ s.slots.any (fun e => decide (e.1 < 3072) && e.2.state != .free && e.2.ctx == ctx) then s
  else endTarns { s with dying := s.dying.filter (· != ctx) } fun t => t.ctx == ctx && decide (2 ≤ t.life)

/-! ## Eviction and allocation (R377, R383) -/

/-- R379: the tarn is EVICTED: the evictions that have been accepted complete, and automatic eviction may take it again. -/
def evicted (s : State) (t : Tarn) : State :=
  let t1 := { t with state := .evicted, dirty := [], cleaning := [], askedBy := none, evicts := [], skipped := t.skipped && t.evicts.isEmpty }
  settleEnd (t.evicts.foldl finishAsker (putTarn (freeStorage s t) t1)) t1

/-- An eviction: a clean tarn is EVICTED at once; a dirty one is written back first. -/
def evictTarn (s : State) (t : Tarn) (who : Asker) : State :=
  if t.dirty = [] then evicted s t else putTarn s { t with state := .evicting, askedBy := some who }

def Tarn.evictable (t : Tarn) (level home : Nat) : Bool :=
  t.level == level && t.home == home && t.state == .resident && t.life != 3 && !t.attached && t.holds == [] && !t.skipped

/-- R383: the evictable tarn with the oldest detach time, ties to the lower run. -/
def oldest : List Tarn → Option Tarn
  | [] => none
  | t :: ts => match oldest ts with
    | none => some t
    | some u => if t.detachAt < u.detachAt ∨ (t.detachAt = u.detachAt ∧ t.run ≤ u.run) then some t else some u

/-- What an allocation comes to: a run, a wait for a write-back, or no room. -/
inductive Room where
  | got  (run : Nat)
  | busy
  | full
deriving DecidableEq, Repr

/-- The number of a stream's allocation, of that of a launch's admission, and of that of a record of a packet. -/
def Agent.asker (g : Agent) : Nat := 4 * g.slot + sourceOf g.st
def launchAsker (id : Nat) : Nat := 2 ^ 40 + id
def recordAsker (q idx : Nat) : Nat := 2 ^ 80 + idx * 2 ^ 16 + q

/-- R383: the allocation's loop; it waits while a write-back that it asked for is under way. -/
def allocate (s : State) (level home size : Nat) (who : Asker) : Nat → Room × State
  | 0 => (.full, s)
  | fuel + 1 =>
    if levelSize s level home < size * 65536 then (.full, s)
    else match lowestRun (takenRuns s level home) (levelSize s level home) (size * 65536) with
      | some r => (.got r, s)
      | none =>
        if s.tarns.any (fun t => t.level == level && t.home == home && t.state == .evicting && t.askedBy == some who) then (.busy, s)
        else match oldest (s.tarns.filter (·.evictable level home)) with
          | none => (.full, s)
          | some t => allocate (evictTarn s t who) level home size who fuel

def allocRun (s : State) (level home size : Nat) (who : Asker) : Room × State :=
  allocate s level home size who (s.tarns.length + 2)

/-! ## Attachments (R188, R380, R190) -/

/-- R374: the base address that an attaching job gets. -/
def Tarn.base (t : Tarn) (partStart : Nat) : Word :=
  match t.level with
  | 0 => BitVec.ofNat 64 (2 ^ 63 + (t.run + 2 ^ 21 - partStart % 2 ^ 21) % 2 ^ 21)
  | 1 => BitVec.ofNat 64 (9 * 2 ^ 60 + t.run)
  | _ => BitVec.ofNat 64 (10 * 2 ^ 60 + t.run)

/-- R373: the domain of a level that a core lies in. -/
def domainOf (level core : Nat) : Nat := match level with | 0 => core | 1 => core / 96 | _ => 0

/-- The place of a waiting attach among a tarn's. -/
def Tarn.waits (t : Tarn) (g : Agent) : Option Bool := (t.waiting.find? (·.1 == g)).map (·.2)

/-- R380: the attach's checks have passed: it counts from now on. -/
def Tarn.enter (t : Tarn) (g : Agent) (w : Bool) : Tarn :=
  if w then { t with writer := true, waiting := t.waiting ++ [(g, w)] }
  else { t with readers := t.readers + 1, waiting := t.waiting ++ [(g, w)] }

/-- One attachment goes. -/
def Tarn.leave (t : Tarn) (w : Bool) : Tarn := if w then { t with writer := false } else { t with readers := t.readers - 1 }

/-- R380: a waiting attach is withdrawn. -/
def Tarn.withdraw (t : Tarn) (g : Agent) : Tarn :=
  match t.waits g with
  | some w => { t.leave w with
      waiting := t.waiting.filter (·.1 != g)
      mover := match t.mover with | some (m, x) => if m = g then none else some (m, x) | none => none }
  | none => t

/-- R157, R380: the waiting attaches of a slot's streams are withdrawn; a tarn whose SEGNEW goes unissued by that is gone. -/
def withdrawSlot (s : State) (n : Nat) : State :=
  (s.tarns.filter fun t => t.waiting.any (·.1.slot == n)).foldl (fun s t =>
    if t.maker.any (·.slot == n) then dropTarn s t
    else
      let t1 := ((t.withdraw ⟨n, .a⟩).withdraw ⟨n, .m⟩).withdraw ⟨n, .v⟩
      settleEnd (putTarn s t1) t1) s

/-- R188: the checks of an attach, in their order. `core` is the attaching core. -/
def attachFault (t : Tarn) (core : Nat) (writer lazy migrate : Bool) : Option Trap :=
  if t.ending then some absentFault
  else if t.home ≠ domainOf t.level core ∧ !migrate then some (trapOf Code.attachMiss 3)
  else if writer ∧ t.attached then some (trapOf Code.segConflict 1)
  else if !writer ∧ t.writer then some (trapOf Code.segConflict 2)
  else if (t.state = .evicting ∨ t.state = .evicted ∨ t.evicts ≠ []) ∧ !lazy then some (trapOf Code.attachMiss 2)
  else none

/-- What an attach comes to. -/
inductive Att where
  | done (s : State) (base : Word)
  | wait (s : State)
  | fail (t : Trap)

/-- R187, R377: nothing stays of what stood in a run that a tarn takes. -/
def wipe (s : State) (t : Tarn) : State := clearRun s t.level t.home t.run (t.size * 65536)

/-- R377: an EVICTED tarn's refill begins in its domain once there is room. -/
def beginRefill (s : State) (t : Tarn) (who : Asker) : Room × State :=
  let (room, s1) := allocRun s t.level t.home t.size who
  match room with
  | .got r => let t1 := { t with state := .filling, run := r, fresh := false, refillFault := none }; (room, putTarn (wipe s1 t1) t1)
  | _ => (room, s1)

/-- The faults that an attach or a creation has met while it waited stand in Slot.replies: 3 the code, and the sub-code
from bit 8; 4 the address. -/
def postFault (s : State) (g : Agent) (f : Trap) : State :=
  s.modSlot g.slot fun t =>
    { t with replies := sput (sput t.replies 3 (BitVec.ofNat 64 f.code + f.sub * 256)) 4 f.faddr }

def postedFault (t : Slot) : Option Trap :=
  (sfind t.replies 3).map fun f => { code := bits f 0 8, sub := f >>> 8, faddr := sget t.replies 0 4 }

/-- R381: the launch's hold ends once every job has made its attachment. -/
def noteAttach (s : State) (launch : Nat) (t : Tarn) : State :=
  match s.launch launch with
  | none => s
  | some l =>
    let k := sget l.attached 0 t.name + 1
    let s1 := s.modLaunch launch ({ · with attached := sput l.attached t.name k })
    if (l.levels.foldl (fun n e => n * e.fanout) 1) ≤ k then
      let ends (u : Tarn) : Tarn := if u.is t.ctx t.name then { u with holds := u.holds.filter (· != launch) } else u
      settleTarns { s1 with tarns := s1.tarns.map ends }
    else s1

/-- The attach is made: the job holds it. -/
def takeAttach (s : State) (g : Agent) (t : Tarn) (w : Bool) : Att :=
  let sl := s.slot g.slot
  let s1 := putTarn s { t with waiting := t.waiting.filter (·.1 != g), maker := none }
  let s2 := s1.modSlot g.slot fun u => { u with attach := u.attach ++ [{ name := t.name, writer := w }] }
  .done s2 (t.base sl.partStart)

/-- R188, R380: an attach whose checks have passed goes on. Where there is no room for a refill, the evictions already made stand
(R383), and the bundle faults when it issues again. -/
def goOnAttach (s : State) (g : Agent) (t : Tarn) (w : Bool) : Att :=
  if t.mover.isSome then .wait s
  else match t.state with
    | .resident => takeAttach s g t w
    | .evicted =>
      (match beginRefill s t (.auto (some (s.slot g.slot).launch) g.asker) with
       | (.full, s1) =>
         if s1.tarns = s.tarns then .fail (trapOf Code.segQuota 1)
         else .wait (postFault (putTarn s1 (t.withdraw g)) g (trapOf Code.segQuota 1))
       | (_, s1) => .wait s1)
    | _ => .wait s

/-- R380: a job has 16 attachments, the ones that its streams wait for counted. -/
def attachesFull (s : State) (g : Agent) : Bool :=
  let sl := s.slot g.slot
  let entered := (s.tarns.map fun u => (u.waiting.filter fun e => e.1.slot == g.slot).length).foldr (· + ·) 0
  decide (16 ≤ sl.attach.length + entered)

/-- R188: an attach by a job: a new one is checked; one that waits goes on. -/
def attachStep (s : State) (g : Agent) (name : Nat) (w lazy : Bool) : Att :=
  let sl := s.slot g.slot
  let core := slotCore g.slot
  match postedFault sl, findTarn s sl.ctx name with
  | some f, _ => .fail f
  | none, none => .fail absentFault
  | none, some t =>
    match t.waits g with
    | some w => goOnAttach s g t w
    | none =>
      if t.mover.isSome then .wait s
      else match attachFault t core w lazy sl.migrate with
        | some f => .fail f
        | none =>
          if attachesFull s g then .fail (trapOf Code.segQuota 2)
          else
            let away := t.home != domainOf t.level core
            let t1 := t.enter g w
            let t2 := if away then { t1 with mover := some (g, w) } else t1
            goOnAttach (putTarn s t2) g t2 w

/-- R190: one attachment of a job goes; the tarn's end, if it waits for that, follows. -/
def detach (s : State) (n name : Nat) : Option State :=
  let sl := s.slot n
  match sl.attach.find? (·.name == name), findTarn s sl.ctx name with
  | some a, some t =>
    let t1 := { t.leave a.writer with detachAt := s.tick }
    let s1 := s.setSlot n { sl with attach := sl.attach.erase a }
    some (settleEnd (putTarn s1 t1) t1)
  | _, _ => none

/-- R190: every attachment that a job still holds is detached. -/
def detachAll (s : State) (n : Nat) : State :=
  (s.slot n).attach.foldl (fun s a => (detach s n a.name).getD s) s

/-! ## Creation (R187) -/

/-- R187: the fields of a specification. -/
def specBad (v : Word) : Bool :=
  bits v 59 5 != 0 || bits v 15 2 == 3 || bits v 0 15 == 0 || decide (4096 < bits v 0 15)

def tarnOfSpec (s : State) (ctx name home run : Nat) (v : Word) : Tarn :=
  let n := bits v 0 15
  { ctx := ctx, name := name, level := bits v 15 2, home := home, size := n, life := bits v 17 2, backing := bits v 20 39
    fill := bit v 19, state := .filling, run := run, dirty := if bit v 19 then [] else upTo 0 n, born := s.ckpt.current, fresh := true
    writtenIn := s.ckpt.current }

/-- What a creation comes to: the tarn FILLING, a wait for room, or a fault. -/
inductive New where
  | made (s : State) (t : Tarn)
  | wait (s : State)
  | fail (t : Trap) (s : State)

/-- R187: creation, up to FILLING; evictions already made stand. -/
def newTarn (s : State) (ctx name home : Nat) (v : Word) (who : Asker) : New :=
  if (findTarn s ctx name).isSome then .fail (trapOf Code.segConflict 5) s
  else if 4096 ≤ s.tarns.length then .fail (trapOf Code.segQuota 2) s
  else match allocRun s (bits v 15 2) home (bits v 0 15) who with
    | (.got r, s1) =>
      let t := tarnOfSpec s1 ctx name home r v
      .made (wipe { s1 with tarns := s1.tarns ++ [t] } t) t
    | (.busy, s1) => .wait s1
    | (.full, s1) => .fail (trapOf Code.segQuota 1) s1

/-- R146, R188: the bundle waits for a tarn. -/
def holdTarn (s : State) (name : Nat) : Eff := .goOn s 13 0 (BitVec.ofNat 32 name)

def nameOf (v : Word) : Nat := bits v 0 48

/-- R187, R380: SEGNEW. The evictions that it has made stand where there is no room (R383): its bundle faults when it issues again. -/
def execSegnew (h : Hd) (d a b : BitVec 5) (s : State) : Host.Outcome State Fault Refusal :=
  runGuarded s (.segnew h d a b) fun s =>
    let sl := s.mySlot
    let g := s.me
    let name := nameOf (s.readX a)
    let v := s.readX b
    if specBad v then .trap (trapOf Code.illegalOp 0x0A)
    else match postedFault sl, (findTarn s sl.ctx name).bind fun t => (t.waits g).map fun _ => t with
      | some f, _ => .trap f
      | none, some t =>
        (match goOnAttach s g t true with
         | .done s1 base => .ok (s1.writeX d base 4)
         | .wait s1 => holdTarn s1 name
         | .fail f => .trap f)
      | none, none =>
        if (findTarn s sl.ctx name).isNone ∧ attachesFull s g then .trap (trapOf Code.segQuota 2)
        else match newTarn s sl.ctx name (domainOf (bits v 15 2) s.myCore) v (.auto (some sl.launch) g.asker) with
        | .made s1 t =>
          let t1 := { t.enter g true with
            maker := some g, launch := some sl.launch, graph := (s.launch sl.launch).bind (·.graphOf) }
          holdTarn (putTarn s1 t1) name
        | .wait s1 => holdTarn s1 name
        | .fail f s1 => if s1.tarns = s.tarns then .trap f else holdTarn (postFault s1 g f) name

/-- R188: SEGATT. -/
def execSegatt (h : Hd) (d a : BitVec 5) (l w : BitVec 1) (s : State) : Host.Outcome State Fault Refusal :=
  runGuarded s (.segatt h d a l w) fun s =>
    let name := nameOf (s.readX a)
    match attachStep s s.me name (w == 1) (l == 1) with
    | .done s1 base => .ok (s1.writeX d base 4)
    | .wait s1 => holdTarn s1 name
    | .fail f => .trap f

/-- R192: the word that SEGQRY and SEGADMIN QUERY give. -/
def tarnWord (s : State) (ctx name : Nat) : Word :=
  match findTarn s ctx name with
  | none => 0
  | some t =>
    let st := match t.state with | .filling => 1 | .resident => 2 | .evicting => 3 | .evicted => 4
    let dom := match t.level with | 0 => t.home | 1 => t.home | _ => 0
    BitVec.ofNat 64 (dom * 2 ^ 48 + t.size * 2 ^ 17 + b2n (t.dirty != []) * 2 ^ 16 + min t.readers 255 * 256 +
      b2n t.writer * 128 + t.life * 32 + t.level * 8 + st)

/-- R192: SEGQRY. -/
def execSegqry (h : Hd) (d a : BitVec 5) (s : State) : Host.Outcome State Fault Refusal :=
  runGuarded s (.segqry h d a) fun s => .ok (s.writeX d (tarnWord s s.mySlot.ctx (nameOf (s.readX a))) 4)

/-! ## The queued operations (R190, R191) -/

/-- What a SEG command or a SEGADMIN record comes to when the directory reaches it. -/
inductive Seg where
  | done (s : State)
  | wait (s : State)
  | fail (t : Trap)

/-- R191, R381: SEGEVICT; a held tarn is waited for. One that the directory has accepted completes at EVICTED. -/
def segEvict (s : State) (ctx name : Nat) (who : Asker) : Seg :=
  match findTarn s ctx name with
  | none => .fail absentFault
  | some t =>
    if t.evicts.contains who then .wait s
    else if t.ending then .fail absentFault
    else if t.attached then .fail (trapOf Code.segConflict 1)
    else if t.life = 3 then .fail (trapOf Code.segConflict 4)
    else if t.holds ≠ [] then .wait s
    else
      let t1 := { t with evicts := t.evicts ++ [who] }
      match t.state with
      | .evicted => .done s
      | .resident => if t.dirty = [] then .done (evicted s { t with skipped := false }) else .wait (evictTarn s t1 who)
      | _ => .wait (putTarn s t1)

/-- R191: SEGDROP; one that the directory has accepted completes when the tarn is gone. -/
def segDrop (s : State) (ctx name : Nat) (who : Asker) : Seg :=
  match findTarn s ctx name with
  | none => .fail absentFault
  | some t =>
    if t.drops.contains who then .wait s
    else if t.ending then .fail absentFault
    else if t.attached then .fail (trapOf Code.segConflict 1)
    else if t.holds ≠ [] then .wait s
    else if t.state = .filling ∨ t.state = .evicting then .wait (putTarn s { t with ending := true, drops := [who] })
    else .done (dropTarn s t)

/-- R190: SEGDET. -/
def segDet (s : State) (n name : Nat) : Seg :=
  match detach s n name with
  | some s1 => .done s1
  | none => .fail (trapOf Code.segConflict 3)

/-! ## Directory events (R377, R379, R382) -/

/-- The waiting attaches of a tarn fail with a fault. -/
def failWaiting (s : State) (t : Tarn) (f : Trap) : State := t.waiting.foldl (fun s e => postFault s e.1 f) s

/-- R377: a fill, a refill or a move completes; an eviction that was accepted meanwhile begins. -/
def fillDone (s : State) (t : Tarn) : State :=
  let t1 := { t with state := .resident, moveFrom := none, refillFault := none, askedBy := none
                     filledIn := if t.moveFrom.isNone then s.ckpt.current else t.filledIn
                     detachAt := if t.fresh then s.tick else t.detachAt }
  let s1 := match t.askedBy with | some a => finishAsker s a | none => s
  match t.evicts with
  | [] => settleEnd (putTarn s1 t1) t1
  | a :: _ => evictTarn (putTarn s1 t1) t1 a

/-- R377: a fill that faults leaves no tarn; a refill that faults leaves it EVICTED; the attaches that wait fail. -/
def fillFault (s : State) (t : Tarn) (f : Trap) : State :=
  let s0 := failWaiting s t f
  let s1 := match t.askedBy with | some a => failAsker s0 f a | none => s0
  if t.fresh then dropTarn s1 t
  else
    let t1 := t.waiting.foldl (fun t e => t.withdraw e.1) t
    evicted s1 { t1 with refillFault := some f }

/-- R382: the contents of a moved tarn, copied to the new domain. -/
def moveCopy (s : State) (t : Tarn) (home run : Nat) : State :=
  let s1 := (upTo 0 t.size).foldl (fun d u =>
    let ps := unitPieces s t.level home run u
    let qs := unitPieces s t.level t.home t.run u
    spreadRuns (rawWrite d qs (piecesBytes s ps)) (badRuns s 0 ps) 0 qs) s
  clearRun s1 t.level home run (t.size * 65536)

def execTarnFillComplete (ctx name : Nat) (s : State) : Host.Outcome State Fault Refusal :=
  match findTarn s ctx name with
  | none => .next s
  | some t =>
    if t.state ≠ .filling then .next s
    else match t.moveFrom with
      | some (h, r) => .next (fillDone (moveCopy s t h r) t)
      | none =>
        if t.fresh ∧ !t.fill then .next (fillDone s t)
        else match fillUnits s t (upTo 0 t.size) with
          | .ok s1 => .next (fillDone s1 t)
          | .error f => if f.code = 0 then .next s else .next (fillFault s t f)

/-- R379: whom a write-back's fault is reported to. -/
def writeBackFault (s : State) (t : Tarn) (f : Trap) : State :=
  match t.askedBy with
  | some (.auto (some l) _) =>
    reportFault s l { code := f.code, source := 9, statusOnly := true, status := f.sub, faddr := f.faddr
                      launchid := (s.launch l).map (·.launchid) |>.getD 0, tick := BitVec.ofNat 64 s.tick }
  | some a => failAsker s f a
  | none => s

/-- R379: a write-back has faulted: the tarn is RESIDENT, and automatic eviction skips it; the next eviction that was accepted, if
there is one, begins. -/
def writeBackOver (s : State) (t : Tarn) (f : Trap) : State :=
  let t1 := { t with state := .resident, askedBy := none, evicts := t.evicts.filter fun a => t.askedBy != some a
                     skipped := true }
  let s1 := writeBackFault (putTarn s t1) t f
  match t1.evicts with
  | [] => settleEnd s1 t1
  | a :: _ => evictTarn s1 t1 a

def execTarnWritebackComplete (ctx name : Nat) (s : State) : Host.Outcome State Fault Refusal :=
  match findTarn s ctx name with
  | none => .next s
  | some t =>
    if t.state ≠ .evicting then .next s
    else match writeBackUnits s t (sortNat t.dirty) with
      | .ok s1 => .next (evicted s1 t)
      | .error f => if f.code = 0 then .next s else .next (writeBackOver s t f)

/-- R382: the move that an attach asked for begins once the tarn has no other attachment and no other launch's hold. -/
def execTarnMigration (ctx name : Nat) (s : State) : Host.Outcome State Fault Refusal :=
  match findTarn s ctx name with
  | none => .next s
  | some t =>
    match t.mover with
    | none => .next s
    | some (g, w) =>
      let others := t.leave w
      let launch := (s.slot g.slot).launch
      if others.attached ∨ t.holds.any (· != launch) ∨ t.state = .filling ∨ t.state = .evicting then .next s
      else
        let home := domainOf t.level (slotCore g.slot)
        match allocRun s t.level home t.size (.auto (some launch) g.asker) with
        | (.busy, s1) => .next s1
        | (.full, s1) => .next (postFault (putTarn s1 (t.withdraw g)) g (trapOf Code.segQuota 1))
        | (.got r, s1) =>
          let from_ := if t.state = .resident then some (t.home, t.run) else none
          let t1 := { t with mover := none, state := .filling, home := home, run := r, moveFrom := from_, fresh := false }
          .next (putTarn (wipe s1 t1) t1)

end Sys2Proof.Machine
end

