-- ==== Sys2Proof/Machine/Engines.lean ====
section
/-!
DEFINITION. The copy and fabric engines: how a command starts (R164, R165, R168 to R173, R178), how its units land and it
completes (R166, R167, R193, R194), circuits (R172, R346 to R348), and the ends of fabric transactions (R183, R186).
-/

namespace Sys2Proof.Machine

/-! ## Units (R166) -/

/-- R166: a run cut at the 4 KiB blocks of its destination. -/
def cutRun : Nat → Run3 → List Run3
  | 0, _ => []
  | fuel + 1, r =>
    if r.len = 0 then []
    else
      let k := min r.len (4096 - r.dst.toNat % 4096)
      { r with len := k } :: cutRun fuel ⟨r.src + BitVec.ofNat 64 k, r.dst + BitVec.ofNat 64 k, r.len - k⟩

def cutRuns (rs : List Run3) : List Run3 := (rs.map fun r => cutRun (r.len / 4096 + 2) r).foldl (· ++ ·) []

/-- R349, R350: the pieces of a run of an engine's access. An element of a gather or scatter is one access, of which all parts are
checked before any performs. -/
def partPieces (s : State) (r : Req) (acc : Acc) (side : Run3 → Word) (p : Part) : Except Trap (List Piece) :=
  match p.elem.map fun e => resolveAccess s r acc (side e) (side e) e.len with
  | some (.error t) => .error t
  | _ => resolve s r acc (side p.run) (side p.run) p.run.len

/-- Whether the source of a run, or of the element that it is part of, has an empty line (R129, R349). -/
def partEmpty (s : State) (r : Req) (p : Part) (ps : List Piece) : Bool :=
  match p.elem with
  | none => ps.any (touchesEmpty s)
  | some e => match resolve s r .r e.src e.src e.len with
    | .ok qs => qs.any (touchesEmpty s)
    | .error _ => false

/-- R168, R349: a run as its source stands now; one whose source has an empty line, or lies in a channel that holds it, is read
later. -/
def readPart (s : State) (r : Req) (p : Part) : Except Trap Part :=
  match partPieces s r .r (·.src) p with
  | .error t => if t.code = 0 then .ok { p with late := true } else .error t
  | .ok ps => .ok (if partEmpty s r p ps then { p with late := true }
      else { p with data := piecesBytes s ps, poison := badRuns s 0 ps, late := false })

def readParts (s : State) (r : Req) : List Part → Except Trap (List Part)
  | [] => .ok []
  | p :: ps => match if p.late then readPart s r p else .ok p, readParts s r ps with
    | .ok q, .ok qs => .ok (q :: qs)
    | .error t, _ => .error t
    | _, .error t => .error t

/-- A unit with its runs read as far as they can be, or the fault that this meets. -/
def Unit4k.read (s : State) (r : Req) (u : Unit4k) : Unit4k :=
  match readParts s r u.parts with
  | .ok ps => { u with parts := ps }
  | .error t => { u with fault := some t }

/-- R335, R341: the reads that turned unit `u` into `v` reach the L2. -/
def noteReads (s : State) (r : Req) (u v : Unit4k) : State :=
  (u.parts.zip v.parts).foldl (fun s p =>
    if p.1.late && !p.2.late then match resolve s r .r p.2.run.src p.2.run.src p.2.run.len with
      | .ok ps => hinted (readUses s r p.2.run.src.toNat p.2.run.len ps) ((r.core.getD 0) / 96) ps
      | .error _ => s
    else s) s

/-- The units of a command, with all that can be read of them now, and the state that this leaves: an aligned doubleword of the
source is read at one time, whichever units it goes to (R354). -/
def readUnits (s : State) (r : Req) (us : List Unit4k) : State × List Unit4k :=
  let vs := us.map (·.read s r)
  ((us.zip vs).foldl (fun s p => noteReads s r p.1 p.2) s, vs)

def Unit4k.isLate (u : Unit4k) : Bool := u.parts.any (·.late)

/-- A run that is still to be read. -/
def unread (r : Run3) : Part := { run := r, late := true }

/-- The part of a run from an offset on, of at most `n` bytes. -/
def subRun (r : Run3) (o n : Nat) : Run3 := ⟨r.src + BitVec.ofNat 64 o, r.dst + BitVec.ofNat 64 o, min n (r.len - o)⟩

/-- R354: a run as parts to be read: the bytes of a doubleword of its source that it holds in part stand by themselves, so that they
can be read when the rest of the doubleword is. -/
def wordParts (r : Run3) : List Part :=
  let head := (8 - r.src.toNat % 8) % 8
  let tail := (r.src.toNat + r.len) % 8
  if r.len ≤ head + tail then [unread (subRun r 0 (min head r.len)), unread (subRun r head (r.len - head))].filter (·.run.len != 0)
  else ([subRun r 0 head, subRun r head (r.len - head - tail), subRun r (r.len - tail) tail].filter (·.len != 0)).map unread

/-- R166: units of single runs, each in a 4 KiB block of its own. -/
def plainUnits (rs : List Run3) : List Unit4k := (cutRuns rs).map fun r => { parts := wordParts r }

/-- R166: what is left to count of a block into which runs that overlap bring more than 4096 bytes: units without bytes of their own. -/
def restUnits : Nat → Nat → List Unit4k
  | 0, _ => []
  | fuel + 1, n => if n = 0 then [] else { parts := [], count := some (min 4096 n) } :: restUnits fuel (n - 4096)

/-- R166, R354, R367: units of many runs: the runs of one 4 KiB block make one unit, in their order, so that a doubleword or a line
that several of them write is written at once; each counts 4096 bytes at most (log 137). -/
def blockUnits (ps : List Part) : List Unit4k :=
  ((ps.foldl (fun m p => let k := p.run.dst.toNat / 4096; sput m k (sget m [] k ++ [p])) ([] : Sparse (List Part))).map fun e =>
    let n := (e.2.map (·.run.len)).foldr (· + ·) 0
    if n ≤ 4096 then [{ parts := e.2 }] else { parts := e.2, count := some 4096 } :: restUnits (n / 4096 + 1) (n - 4096)).foldl (· ++ ·) []

/-- R173: the elements of a gather or scatter, each cut at the 4 KiB blocks of its destination. -/
def elemParts (rs : List Run3) : List Part :=
  (rs.map fun r => (cutRuns [r]).map fun q => { unread q with elem := some r }).foldl (· ++ ·) []

/-- R166, R173: the units of a command's runs, unread. -/
def cmdUnits (c : Cmd) (rs : List Run3) : List Unit4k :=
  match c.op, c.fn with
  | 0x26, _ => blockUnits (elemParts rs)
  | 0x25, 1 => blockUnits (((cutRuns rs).map wordParts).foldl (· ++ ·) [])
  | 0x25, 2 => blockUnits (((cutRuns rs).map wordParts).foldl (· ++ ·) [])
  | _, _ => plainUnits rs

/-- R171: the bytes of a fill. -/
def fillUnit (pattern : Word) (u : Run3) : Unit4k :=
  { parts := [{ run := u, data := (upTo u.dst.toNat u.len).map fun d => BitVec.ofNat 8 (bits pattern (8 * (d % 8)) 8) }] }

/-! ## Runs of the copies (R168, R169, R173) -/

def scratch (off : Nat) : Word := BitVec.ofNat 64 (2 ^ 63 + off)

/-- R169: the runs of a shape descriptor; none for a field out of range. -/
def shapeRuns (d : List Byte) (src dst : Word) : Option (List Run3) :=
  let n0 := bnat d 0 4
  let n1 := bnat d 4 4
  let n2 := bnat d 8 4
  let n3 := bnat d 12 4
  let st (o : Nat) : Word := BitVec.ofNat 64 (bnat d o 8)
  let at_ (base : Word) (o i1 i2 i3 : Nat) : Word :=
    base + BitVec.ofNat 64 i1 * st o + BitVec.ofNat 64 i2 * st (o + 8) + BitVec.ofNat 64 i3 * st (o + 16)
  if 2 ^ 20 < n0 ∨ 65536 < n1 ∨ 65536 < n2 ∨ 65536 < n3 then none
  else if n0 = 0 then some []
  else some <| (upTo 0 n3).foldr (fun i3 l3 => (upTo 0 n2).foldr (fun i2 l2 => (upTo 0 n1).foldr (fun i1 l1 =>
    ⟨at_ src 16 i1 i2 i3, at_ dst 40 i1 i2 i3, n0⟩ :: l1) l2) l3) []

/-- R173: the runs of a gather or a scatter. -/
def gscRuns (scat : Bool) (idx : List Byte) (n esz : Nat) (a b : Word) : List Run3 :=
  (upTo 0 n).map fun i =>
    let far : Word := BitVec.ofNat 64 (bnat idx (4 * i) 4 * esz)
    let near : Word := BitVec.ofNat 64 (i * esz)
    if scat then ⟨a + near, b + far, esz⟩ else ⟨a + far, b + near, esz⟩

/-- What a command's start comes to: its runs, or the fault that it meets before any byte moves. -/
abbrev CmdRuns := Except Trap (List Run3)

/-- The runs of a command of the copy engine, given the addresses of its two sides. -/
def cmdRuns (s : State) (n : Nat) (c : Cmd) (a b : Word) : CmdRuns :=
  let r := slotReq s n
  match c.op, c.fn with
  | 0x25, 0 => .ok [⟨a, b, cwCount c.cw⟩]
  | 0x25, 3 => .ok [⟨0, b, cwCount c.cw⟩]
  | 0x26, f =>
    let cnt := bits c.cw 21 16
    if cnt = 0 then .ok []
    else (match loadAll s r (scratch (bits c.cw 0 21)) (4 * cnt) with
      | .error t => .error t
      | .ok (bs, _) => .ok (gscRuns (f == 1) bs cnt (2 ^ bits c.cw 37 3) a b))
  | 0x25, _ =>
    (match loadAll s r (scratch (bits c.cw 0 21)) 64 with
     | .error t => .error t
     | .ok (bs, _) =>
       match shapeRuns bs a b with
       | none => .error (trapOf Code.ringProtocol 5)
       | some rs => .ok rs)
  | _, _ => .ok [⟨a, b, bits c.cw 0 24⟩]

/-- Whether a read of an engine meets an empty line (R349). -/
def readsEmpty (s : State) (r : Req) (a : Word) (n : Nat) : Bool :=
  match resolve s r .r a a n with
  | .ok ps => ps.any (touchesEmpty s)
  | .error _ => false

/-- R169, R173, R349: whether the descriptor or index list that a command reads first has an empty line: it waits for it. -/
def descEmpty (s : State) (n : Nat) (c : Cmd) : Bool :=
  let a := scratch (bits c.cw 0 21)
  match c.op, c.fn with
  | 0x26, _ => readsEmpty s (slotReq s n) a (4 * bits c.cw 21 16)
  | 0x25, 1 => readsEmpty s (slotReq s n) a 64
  | 0x25, 2 => readsEmpty s (slotReq s n) a 64
  | _, _ => false

/-- R178: whether the ring side of every run lies within the slot. -/
def runsInside (rs : List Run3) (src : Bool) (base : Word) (bytes : Nat) : Bool :=
  rs.all fun r =>
    let o := ((if src then r.src else r.dst) - base).toNat
    r.len == 0 || decide (o + r.len ≤ bytes)

/-! ## Starting (R165, R170, R172, R178) -/

/-- R165: what starts only when every earlier command of its queue has completed. -/
def Cmd.waitsForAll (c : Cmd) : Bool :=
  !c.again && (cwOrder c.cw || cwCls c.cw == 15 || c.op == 0x2C || (c.op == 0x2B && c.fn == 2))

/-- The first command of a queue that has not started, with those before it. -/
def splitStarted : List Cmd → Option (List Cmd × Cmd)
  | [] => none
  | c :: cs => if c.started then (splitStarted cs).map fun p => (c :: p.1, p.2) else some ([], c)

/-- R275, R468: a retirement of a stopping job that goes to a reduction has yet to end: the commands of FQ up to it start
(log 149). -/
def reduceDue (s : State) (n : Nat) : Bool :=
  let t := s.slot n
  let reduces (r : Retire) : Bool := r.slot == n && t.nests.any fun e => e.id == r.nest && bits (mreg e.regs 0x39) 0 2 == 2
  (t.state == .stopping || t.state == .killing) &&
    (t.fq.any (·.handoff.isSome) || (s.core (slotCore n)).port.any reduces)

/-- R165, R194, R196: the command of a queue that may start now: in a job that stops or has trapped only a source record that runs
again (R275, R498), and what a reduction needs. -/
def startable (s : State) (n : Nat) (fq : Bool) : Option Cmd :=
  let t := s.slot n
  match splitStarted (t.cmds fq) with
  | none => none
  | some (before, c) =>
    if before.any (·.failed) ∨ (t.state ≠ .running ∧ !c.again ∧ !(fq && reduceDue s n)) ∨ (c.waitsForAll ∧ before ≠ []) then none
    else some c

/-- What a command's wait for its ring or operand slot comes to. -/
inductive Got where
  | ok   (s : State) (c : Cmd)
  | wait
  | fail (t : Trap)

/-- R178: the engine acquires its ring slot; a record that holds one already keeps it. -/
def ringStart (s : State) (n : Nat) (fq : Bool) (c : Cmd) : Got :=
  if !cwRingen c.cw ∨ c.slotNo.isSome then .ok s c
  else
    let t := s.slot n
    let k := cwRing c.cw
    let cons := cwRside c.cw
    let r := t.ring k
    if !t.ringMask.testBit k ∨ !r.enabled then .fail (trapOf Code.ringProtocol 1)
    else if r.agent cons ≠ (if fq then 4 else 3) then .fail (trapOf Code.ringProtocol 2)
    else match r.take cons with
      | none => .wait
      | some (slot, r1) =>
        let c1 := { c with slotNo := some slot }
        let r2 := if cons then r1 else { r1 with src := sput r1.src slot (some c1) }
        .ok (s.modSlot n (·.setRing k r2)) c1

/-- R170, R245: CPY.SLOT waits for its operand slot to be EMPTY, and takes it. -/
def slotStart (s : State) (n : Nat) (c : Cmd) : Got :=
  let t := s.slot n
  let k := bits c.opb 0 4
  if !c.slotCopy ∨ c.again then .ok s c
  else if !t.oslotMask.testBit k then .fail (trapOf Code.slotProtocol 1)
  else if (sget t.oslots {} k).state ≠ .empty then .wait
  else .ok (s.modSlot n fun t => { t with oslots := sput t.oslots k { state := .filling, src := some c } }) c

/-- R172: the peer of a circuit: its job slot and the first line of the destination. -/
def circPeer (n : Nat) (c : Cmd) : Nat × Nat :=
  (2 * (slotCore n / 96 * 96 + bits c.opb 24 7) + bits c.opb 31 1, bits c.opb 7 14)

/-- R172, R346: the byte that names a core and slot of a cluster. -/
def circByte (n : Nat) : Nat := slotCore n % 96 + 128 * (n % 2)

/-- R172: what a circuit requires. -/
def circFault (s : State) (n : Nat) (c : Cmd) : Option Trap :=
  let p := (circPeer n c).1
  let t := s.slot n
  match sfind s.circuits (slotCore n / 96) with
  | none => some (trapOf Code.slotProtocol 2)
  | some k =>
    if k.launch ≠ t.launch ∨ !k.table.any (fun e => e.2.1 == circByte n && e.2.2 == circByte p) ∨ 96 ≤ bits c.opb 24 7 then
      some (trapOf Code.slotProtocol 2)
    else if (s.slot p).state ≠ .running ∨ (s.slot p).launch ≠ t.launch then some (trapOf Code.slotProtocol 3)
    else none

/-- The address of a side of a command: an operand, or the slot's address plus it (R168). -/
def sideAddr (t : Slot) (c : Cmd) (src : Bool) (operand : Word) : Word :=
  match c.slotNo with
  | some k => if cwRingen c.cw ∧ cwRside c.cw = src then (t.ring (cwRing c.cw)).addrOf k + operand else operand
  | none => operand

/-- A started command with its units. -/
def putStarted (s : State) (n : Nat) (fq : Bool) (c : Cmd) (us : List Unit4k) : State :=
  s.modCmd n fq c.id fun _ => { c with started := true, units := us }

/-- R178: the check of the ring side. -/
def ringInside (t : Slot) (c : Cmd) (rs : List Run3) : Bool :=
  match c.slotNo with
  | some k =>
    !cwRingen c.cw || runsInside rs (cwRside c.cw) ((t.ring (cwRing c.cw)).addrOf k) (t.ring (cwRing c.cw)).slotBytes
  | none => true

/-- R180: the packets of a transfer: each a transaction, its unit marked with the tag. -/
def sendUnits (s : State) (n : Nat) (fq : Bool) (c : Cmd) (mk : Unit4k → State → FPkt) (kind : Unit4k → XKind) :
    List Unit4k → List Unit4k → State × List Unit4k
  | [], done => (s, done)
  | u :: us, done =>
    match u.fault with
    | some _ => (s, done ++ u :: us)
    | none =>
      let tag := s.fab.nextTag
      let s1 := transact s { slot := n, st := .a, cmd := some c.id, kind := kind u, at_ := s.tick } (mk u s)
      sendUnits s1 n fq c mk kind us (done ++ [{ u with tag := some tag }])

/-- R180, R454: a command of the fabric engine sends its packets. -/
def fabricStart (s : State) (n : Nat) (c : Cmd) (us : List Unit4k) : State :=
  let prio := (s.slot n).prio
  let finish (p : State × List Unit4k) : State :=
    let s1 := putStarted p.1 n true c p.2
    match (us.findSome? fun (u : Unit4k) => u.fault) with
    | some t => failCmd s1 n true c.id t
    | none => s1
  let data (u : Unit4k) : List Byte := (u.parts.map (·.data)).foldr (· ++ ·) []
  match c.op, c.fn with
  | 0x29, 0 =>
    finish (sendUnits s n true c (fun u s =>
        { request s Op.put prio u.dst (data u) (bits c.cw 24 16) with poison := (u.parts.map (·.poison)).foldr (· ++ ·) [] })
      (fun u => .put u.len) us [])
  | 0x29, _ =>
    finish (sendUnits s n true c (fun u s => request s Op.getreq prio ((u.parts.head?.map (·.run.src)).getD 0) [] u.len)
      (fun u => .get u.dst u.len (cwFull c.cw)) us [])
  | _, _ =>
    let u : Unit4k := { parts := [{ run := ⟨0, c.opa, 0⟩, data := natBytes 8 c.opb.toNat }] }
    finish (sendUnits s n true c (fun u s => request s Op.sig prio u.dst (data u) (if c.op = 0x2A then c.fn else 0))
      (fun _ => .sig) [u] [])

/-- A command's runs are known: it starts, with the units that it moves. -/
def beginUnits (s : State) (n : Nat) (fq : Bool) (c : Cmd) (rs : List Run3) : State :=
  let r := slotReq s n
  match c.op, c.fn with
  | 0x25, 3 => putStarted s n fq c ((cutRuns rs).map (fillUnit c.opa))
  | 0x29, 1 => fabricStart s n c (plainUnits rs)
  | 0x29, _ => let (s1, us) := readUnits s r (plainUnits rs); fabricStart s1 n c us
  | _, _ => let (s1, us) := readUnits s r (cmdUnits c rs); putStarted s1 n fq c us

/-- Whether the lines that an FPUT sends are all full (R349), as far as its reads meet no fault. -/
def fputReady (s : State) (n : Nat) (c : Cmd) (rs : List Run3) : Bool :=
  let ready (u : Unit4k) : Bool := u.fault.isSome || !u.isLate
  !(c.op == 0x29 && c.fn == 0) || (plainUnits rs).all fun u => ready (u.read s (slotReq s n))

/-- A command whose slots are acquired starts; none where it must wait for a line that it reads first, or for a channel. -/
def launchCmd (s : State) (n : Nat) (fq : Bool) (c : Cmd) : Option State :=
  let t := s.slot n
  let s1 := s.modCmd n fq c.id fun _ => c
  let fail (f : Trap) : State := failCmd (s1.modCmd n fq c.id ({ · with started := true })) n fq c.id f
  match c.op, c.fn with
  | 0x2A, _ => some (fabricStart s1 n c [])
  | 0x2B, _ => some (fabricStart s1 n c [])
  | 0x2C, _ => some (putStarted s1 n fq c [])
  | 0x2D, _ => some (putStarted s1 n fq c [])
  | 0x25, 4 => some (match circFault s n c with
    | some f => failCmd s1 n fq c.id f
    | none => putStarted s1 n fq c [])
  | _, _ =>
    let a := sideAddr t c true c.opa
    let b := if c.slotCopy then 0 else sideAddr t c false c.opb
    if descEmpty s n c then none
    else match cmdRuns s n c a b with
    | .error f => if f.code = 0 then none else some (fail f)
    | .ok rs =>
      if !ringInside t c rs then some (fail (trapOf Code.ringProtocol 4))
      else if !fputReady s n c rs then none
      else some (beginUnits s1 n fq c rs)

/-- R165: COMMAND_START; a command that must wait has not started, and holds neither ring nor operand slot. FCOLL and the hand-offs of retirements start by `collectiveStart`. -/
def execCommandStart (slot : Nat) (fq : Bool) (s : State) : Host.Outcome State Fault Refusal :=
  match startable s slot fq with
  | none => .next s
  | some c =>
    if (c.op = 0x2B ∧ c.fn = 3) ∨ c.handoff.isSome then .next s
    else match ringStart s slot fq c with
      | .wait => .next s
      | .fail f => .next (failCmd s slot fq c.id f)
      | .ok s1 c1 =>
        match slotStart s1 slot c1 with
        | .wait => .next s
        | .fail f => .next (failCmd s1 slot fq c1.id f)
        | .ok s2 c2 => .next (match launchCmd s2 slot fq c2 with
          | some t => noteEngine t slot fq
          | none => s)

/-! ## Landing (R166, R167, R194) -/

/-- R196: the length of a segment. -/
def segBytes : Nat := 2 ^ 20

/-- R196: the segment that a unit of CPY.LIN or CPY.FILL lies in, counted from the first unit. -/
def segmentOf (c : Cmd) (u : Unit4k) : Nat :=
  match c.units with
  | [] => 0
  | v :: _ => (u.dst - v.dst).toNat / segBytes

def Cmd.segmented (c : Cmd) : Bool := c.op == 0x25 && (c.fn == 0 || c.fn == 3)

/-- The first part of the element that a part ends: another unit's (R358). -/
def elemHead (c : Cmd) (e : Run3) : Option Unit4k := c.units.find? fun u => u.parts.any fun p => p.elem == some e && p.run.dst == e.dst

/-- Whether a unit must wait for earlier ones: segments go one by one (R196), and so do the two parts of an element (R349, R358). -/
def unitBlocked (c : Cmd) (i : Nat) (u : Unit4k) : Bool :=
  (c.segmented && (c.units.take i).any fun v => !v.landed && segmentOf c v != segmentOf c u) ||
    u.parts.any fun p => match p.elem with
      | some e => p.run.dst != e.dst && (match elemHead c e with | some v => !v.landed | none => false)
      | none => false

/-- R196: a stop lets the segment in progress complete, the first one of a started command, and begins no other. -/
def segmentHeld (t : Slot) (c : Cmd) (u : Unit4k) : Bool :=
  t.state != .running && !t.resuming && c.segmented && c.units.any (·.landed) &&
    !c.units.any fun v => v.landed && segmentOf c v == segmentOf c u

/-- Whether two lists of pieces have a byte in common. -/
def piecesMeet (ps qs : List Piece) : Bool :=
  ps.any fun p => qs.any fun q => decide (p.key < q.key + q.len) && decide (q.key < p.key + p.len)

/-- R168, R169: whether a unit of a copy would write what another unit of it, of `us`, has still to read. -/
def overUnread (s : State) (r : Req) (c : Cmd) (us : List Unit4k) (i : Nat) (dst : List Piece) : Bool :=
  let late := ((us.set i { parts := [] }).map fun u => u.parts.filter (·.late)).foldr (· ++ ·) []
  c.op != 0x26 && late.any fun p => match resolve s r .r p.run.src p.run.src p.run.len with
    | .ok ps => piecesMeet ps dst
    | .error _ => false

/-- R167, R367: the lines of spaces 0x8 and 0x9 that the command writes entirely in a unit. All that it writes of a line is in one
unit (`blockUnits`). -/
def wholeLines (u : Unit4k) : List Word :=
  let runs := (u.parts.map (·.run)).filter fun r => lineSpace r.dst
  let lines := (runs.map fun r => unitsOf 128 r.dst.toNat r.len).foldl (fun l m => m.foldl insertNat l) []
  (lines.filter fun l =>
    (upTo (128 * l) 128).all fun a => runs.any fun r => decide (r.dst.toNat ≤ a) && decide (a < r.dst.toNat + r.len)).map
    fun l => BitVec.ofNat 64 (128 * l)

/-- Sets the full bit of the lines at some addresses. -/
def fillLines (s : State) (r : Req) : List Word → State
  | [] => s
  | a :: as =>
    match resolve s r .w a a 128 with
    | .ok ps => fillLines (ps.foldl (fun s p => setFullLines s (padCore p.key) (unitsOf 128 (padOff p.key) p.len)) s) r as
    | .error _ => fillLines s r as

/-- R170: where the bytes of a run go in an operand slot. -/
def oslotPieces (n : Nat) (c : Cmd) (p : Part) : Except Trap (List Piece) :=
  let o := p.run.dst.toNat
  if 32768 < o + p.run.len then .error (trapOf Code.slotProtocol 4)
  else .ok [{ key := operandKey (slotCore n) (bits c.opb 0 4 * 32768 + o), len := p.run.len }]

/-- Where the bytes of a run go: an operand slot (R170) or memory. -/
def destPieces (s : State) (n : Nat) (c : Cmd) (p : Part) : Except Trap (List Piece) :=
  if c.slotCopy then oslotPieces n c p else partPieces s (slotReq s n) .w (·.dst) p

/-- The destinations of a unit's runs; the first fault. -/
def unitDest (s : State) (n : Nat) (c : Cmd) : List Part → Except Trap (List (Part × List Piece))
  | [] => .ok []
  | p :: ps => match destPieces s n c p, unitDest s n c ps with
    | .ok q, .ok qs => .ok ((p, q) :: qs)
    | .error t, _ => .error t
    | _, .error t => .error t

/-- The bytes of a run go to its pieces, their marks with them (R497). -/
def writePart (s : State) (n : Nat) (c : Cmd) (p : Part) (ps : List Piece) : State :=
  let r := slotReq s n
  let s1 := if c.slotCopy then rawWrite (ps.foldl healPoison s) ps p.data
    else hinted (writePieces (walked s r p.run.dst.toNat p.run.len) r ps p.data) (slotCore n / 96) ps
  spreadRuns s1 p.poison 0 ps

/-- The bytes of a unit go where they go, all of them or, where a run faults, none (R194, R350). -/
def writeUnit (s : State) (n : Nat) (c : Cmd) (u : Unit4k) : Except Trap State :=
  (unitDest s n c u.parts).map fun ds => ds.foldl (fun s d => writePart s n c d.1 d.2) s

/-- R166, R167: what a unit's landing does besides its bytes. -/
def unitLanded (s : State) (n : Nat) (fq : Bool) (id i : Nat) : State :=
  match (s.slot n).cmd fq id with
  | none => s
  | some c =>
    match c.units[i]? with
    | none => s
    | some u =>
      let us := c.units.set i { u with landed := true }
      let s1 := s.modCmd n fq id fun c => { c with units := us, bytes := c.bytes + u.len }
      let s2 := if cwFull c.cw ∧ !(cwRingen c.cw && !cwRside c.cw) then fillLines s1 (slotReq s n) (wholeLines u) else s1
      if cwDone c.cw = 2 then engineAdd s2 n fq id u.len else s2

/-- R166, R168: COMMAND_UNIT_LAND, for the copy engine's commands: what can be read now is read, and the unit lands, unless its source
is not read yet, it waits for another (R196, R358), or it would write what another has still to read. The fabric's units land by
their answers. -/
def execCommandUnitLand (slot : Nat) (fq : Bool) (idx unit : Nat) (s : State) : Host.Outcome State Fault Refusal :=
  match if fq then none else (s.slot slot).cq[idx]? with
  | none => .next s
  | some c =>
    match c.units[unit]? with
    | none => .next s
    | some u0 =>
      if c.failed ∨ u0.landed ∨ segmentHeld (s.slot slot) c u0 then .next s
      else
        let (s1, us) := readUnits s (slotReq s slot) c.units
        let u := us.getD unit u0
        let held := s1.modCmd slot fq c.id fun c => { c with units := us }
        let fail (f : Trap) : Host.Outcome State Fault Refusal := .next (if f.code = 0 then held else failCmd s slot fq c.id f)
        if unitBlocked c unit u then .next held
        else match u.fault, unitDest s slot c u.parts with
        | some f, _ => fail f
        | none, .error f => fail f
        | none, .ok ds =>
          if u.isLate ∨ overUnread s (slotReq s slot) c us unit ((ds.map (·.2)).foldl (· ++ ·) []) then .next held
          else .next (noteEngine (unitLanded (ds.foldl (fun s d => writePart s slot c d.1 d.2) held) slot fq c.id unit) slot fq)

/-! ## Cache maintenance (R193, R339) -/

/-- R193: the lines of cached pages that a range covers, as numbers of 32-byte sectors. -/
def cacheSectors (ps : List Piece) : List Nat :=
  (ps.map fun p => if p.attr ≤ 1 then
      ((unitsOf 128 p.key p.len).map fun l => [4 * l, 4 * l + 1, 4 * l + 2, 4 * l + 3]).foldl (· ++ ·) [] else []).foldl (· ++ ·) []

/-- R193: CPREF fetches line by line, and skips a line that it cannot fetch. -/
def prefetchLines (s : State) (r : Req) (a : BitVec 64) (len : Nat) : State :=
  (unitsOf 128 a.toNat len).foldl (fun s u =>
    let line := BitVec.ofNat 64 (128 * u)
    match resolve s r .r line line 128 with
    | .error _ => s
    | .ok ps => hinted (readUses s r (128 * u) 128 ps) ((r.core.getD 0) / 96) ps) s

/-- R193, R196: the effect of a segment of a CACHE command: the bytes from one that its earlier segments have dealt with. -/
def cacheEffect (s : State) (n : Nat) (c : Cmd) : Except Trap State :=
  let r := slotReq s n
  let a := c.opa + BitVec.ofNat 64 c.bytes
  let len := min segBytes (c.opb.toNat - c.bytes)
  if len = 0 then .ok s
  else if c.fn = 3 then .ok (prefetchLines s r a len)
  else
    match resolve s r (if c.fn = 1 then .w else .r) a a len with
    | .error t => .error t
    | .ok ps =>
      let us := cacheSectors ps
      let s1 := if c.fn = 1 then us.foldl dropSector s else cleanSectors s us.contains
      .ok (if c.fn = 2 then s1 else forgetLines s1 fun l => us.contains (4 * l.line))

/-- R166, R193, R196: a CACHE command deals with its next segment, and completes with its last; at a stop it begins no other. -/
def cacheStep (s : State) (n : Nat) (fq : Bool) (c : Cmd) : State :=
  let t := s.slot n
  if t.state ≠ .running ∧ !t.resuming ∧ c.bytes ≠ 0 then s
  else match cacheEffect s n c with
    | .error f => if f.code = 0 then s else failCmd s n fq c.id f
    | .ok s1 =>
      if c.opb.toNat ≤ c.bytes + segBytes then finishCmd (s1.modCmd n fq c.id ({ · with bytes := c.opb.toNat })) n fq c.id
      else s1.modCmd n fq c.id ({ · with bytes := c.bytes + segBytes })

/-! ## Completing (R166) -/

/-- R245: a CPY.SLOT that completes fills its operand slot. -/
def fillSlot (s : State) (n : Nat) (c : Cmd) : State :=
  if c.slotCopy ∧ !c.again then
    s.modSlot n fun t =>
      let k := bits c.opb 0 4
      { t with oslots := sput t.oslots k { sget t.oslots {} k with state := .full, src := some c } }
  else s

/-- R190, R191: a SEG command reaches the directory. -/
def segEffect (s : State) (n : Nat) (c : Cmd) : Seg :=
  let name := nameOf c.opa
  match c.fn with
  | 2 => segDet s n name
  | 3 => segEvict s (s.slot n).ctx name (.cmd n c.id)
  | _ => segDrop s (s.slot n).ctx name (.cmd n c.id)

/-- R166: COMMAND_COMPLETE. -/
def execCommandComplete (slot : Nat) (fq : Bool) (idx : Nat) (s : State) : Host.Outcome State Fault Refusal :=
  match ((s.slot slot).cmds fq)[idx]? with
  | none => .next s
  | some c =>
    if !c.started ∨ c.failed ∨ (c.op = 0x2B ∧ c.fn = 3) ∨ c.handoff.isSome then .next s
    else match c.op, c.fn with
      | 0x2C, _ =>
        (match segEffect s slot c with
         | .done s1 => .next (finishCmd s1 slot fq c.id)
         | .wait s1 => .next s1
         | .fail f => .next (failCmd s slot fq c.id f))
      | 0x2D, _ =>
        .next (cacheStep s slot fq c)
      | 0x25, 4 => if cwCount c.cw ≤ c.bytes then .next (finishCmd s slot fq c.id) else .next s
      | _, _ => if c.units.all (·.landed) then .next (finishCmd (fillSlot s slot c) slot fq c.id) else .next s

/-! ## Circuits (R172, R348) -/

/-- R172: one line of a CPY.CIRC arrives: whole, with its full bit set; its writer is the core that sends it (R484). -/
def circLine (s : State) (n : Nat) (c : Cmd) : State :=
  let (p, line) := circPeer n c
  let src := c.opa + BitVec.ofNat 64 c.bytes
  let dst := scratch (128 * line + c.bytes)
  match circFault s n c with
  | some f => failCmd s n false c.id f
  | none =>
    match resolve s (slotReq s n) .r src src 128 with
    | .error f => failCmd s n false c.id f
    | .ok ps =>
      if ps.any (touchesEmpty s) then s
      else
        let r := slotReq s p
        match resolve s r .w dst dst 128 with
        | .error f => failCmd s n false c.id f
        | .ok qs =>
          let by_ := { r with core := some (slotCore n) }
          let s1 := fillLines (writePieces (l2Uses s ps) by_ qs (piecesBytes s ps)) r [dst]
          let s2 := spreadRuns s1 (badRuns s 0 ps) 0 qs
          let s3 := s2.modCmd n false c.id fun c => { c with bytes := c.bytes + 128 }
          if cwDone c.cw = 2 then engineAdd s3 n false c.id 128 else s3

/-- R172, R348: CIRCUIT_SLOT: the entry of this cycle of the revolution sends. -/
def execCircuitSlot (cluster : Nat) (s : State) : Host.Outcome State Fault Refusal :=
  match sfind s.circuits cluster with
  | none => .next s
  | some k =>
    match k.table.find? (fun e => e.1 == (s.tick - k.since) % Nat.max 1 k.rev) with
    | none => .next s
    | some (_, a, b) =>
      if k.sentAt = some s.tick ∨ s.tick < k.since then .next s
      else
        let n := 2 * (96 * cluster + a % 128) + a / 128
        let s1 := { s with circuits := sput s.circuits cluster { k with sentAt := some s.tick } }
        match (s.slot n).cq.find? (fun c => c.op == 0x25 && c.fn == 4 && c.started && !c.failed &&
            decide (c.bytes < cwCount c.cw) && circByte (circPeer n c).1 == b) with
        | none => .next s1
        | some c => .next (circLine s1 n c)

/-! ## Transactions (R183, R186) -/

/-- R183: a reservation ends 100 µs after its FLL. -/
def execReservationExpire (s : State) : Host.Outcome State Fault Refusal :=
  .next { s with resv := s.resv.filter fun r => decide (s.tick - r.since < 100 * us) }

def dropXact (s : State) (tag : Nat) : State := { s with fab := { s.fab with xacts := sdel s.fab.xacts tag } }

/-- R186: a transaction ends in a fault: on the stream for FLL and FSC, under R201 for a command. -/
def xactFault (s : State) (tag : Nat) (f : Trap) : State :=
  match sfind s.fab.xacts tag with
  | none => s
  | some x =>
    match x.cmd with
    | none =>
      (dropXact s tag).modSlot x.slot fun t => if (t.reply x.st 0).isNone then t else t.setReply x.st 2 (BitVec.ofNat 64 f.code + f.sub * 256)
    | some id =>
      let s1 := { s with fab := { s.fab with xacts := s.fab.xacts.filter fun e => !(e.2.slot == x.slot && e.2.cmd == some id) } }
      failCmd s1 x.slot true id f

/-- R186: no answer within 200 µs of the last packet's injection. -/
def execFabricTimeout (tag : Nat) (s : State) : Host.Outcome State Fault Refusal :=
  match sfind s.fab.xacts tag with
  | none => .next s
  | some x => if 200 * us ≤ s.tick - x.at_ then .next (xactFault s tag (trapOf Code.fabricTimeout 0)) else .next s

end Sys2Proof.Machine
end

