-- ==== Sys2Proof/Machine/Functions.lean ====
section
/-!
DEFINITION. The functions of VCORD (R233 to R235) and the estimates (R220). A function whose error the spec bounds is a
reference value, computed in fixed point far more finely than any bound, plus a free part of that bound (log 3, log 45).
-/

namespace Sys2Proof.Machine

/-! ## Fixed point: an integer stands for its quotient by 2^fx -/

def fx : Nat := 128
def fxOne : Int := 2 ^ fx

def fxMul (a b : Int) : Int := a * b / fxOne
def fxDiv (a b : Int) : Int := if b = 0 then 0 else a * fxOne / b

/-- A finite value in fixed point, the bits below 2^-fx dropped. -/
def toFx (neg : Bool) (m : Nat) (e : Int) : Int :=
  let x := e + fx
  let v : Int := if 0 ≤ x then m * 2 ^ x.toNat else m / 2 ^ (-x).toNat
  if neg then -v else v

def fromFx (v : Int) : FVal := ofInt v (-(fx : Int))

/-- The largest r with r² ≤ n, by bits. -/
def isqrtFrom (n : Nat) : Nat → Nat → Nat
  | 0, r => r
  | k + 1, r => if (r + 2 ^ k) * (r + 2 ^ k) ≤ n then isqrtFrom n k (r + 2 ^ k) else isqrtFrom n k r

def isqrt (n : Nat) : Nat := isqrtFrom n (Nat.log2 n / 2 + 1) 0

/-- The sum of terms t, t·f(k), t·f(k)·f(k+1), …: `fuel` of them. -/
def series (step : Int → Nat → Int) : Nat → Nat → Int → Int
  | 0, _, _ => 0
  | fuel + 1, k, t => t + series step fuel (k + 1) (step t k)

def fxExp (x : Int) : Int := series (fun t k => fxMul t x / (k + 1)) 60 0 fxOne
def fxSin (x : Int) : Int := series (fun t k => -(fxMul (fxMul t x) x) / ((2 * k + 2) * (2 * k + 3))) 40 0 x
def fxCos (x : Int) : Int := series (fun t k => -(fxMul (fxMul t x) x) / ((2 * k + 1) * (2 * k + 2))) 40 0 fxOne

/-- The arc tangent by its own series, for |x| below 1/2. -/
def fxAtanSmall (x : Int) : Int :=
  let xx := fxMul x x
  (upTo 0 80).foldr (fun (k : Nat) acc => fxOne / (2 * (k : Int) + 1) - fxMul xx acc) 0 |> fxMul x

def fxSqrt (x : Int) : Int := isqrt (x.toNat * 2 ^ fx)

/-- atan x = 2 atan (x / (1 + √(1 + x²))). -/
def fxHalve (x : Int) : Int := fxDiv x (fxOne + fxSqrt (fxOne + fxMul x x))

def fxAtanUnit (x : Int) : Int := 4 * fxAtanSmall (fxHalve (fxHalve x))

/-- π from 16 atan(1/5) − 4 atan(1/239). -/
def fxPi : Int := 16 * fxAtanSmall (fxOne / 5) - 4 * fxAtanSmall (fxOne / 239)

def fxAtan (x : Int) : Int :=
  if -fxOne ≤ x ∧ x ≤ fxOne then fxAtanUnit x
  else if 0 < x then fxPi / 2 - fxAtanUnit (fxDiv fxOne x) else -(fxPi / 2) - fxAtanUnit (fxDiv fxOne x)

/-- ln 2 = 2 atanh(1/3). -/
def fxLn2 : Int := 2 * ((upTo 0 60).foldr (fun (k : Nat) acc => fxOne / (2 * (k : Int) + 1) + acc / 9) 0 / 3)

/-- log2 of y in [1, 2), bit by bit. -/
def fxLogBits : Nat → Int → Int → Int
  | 0, _, _ => 0
  | k + 1, w, y =>
    let z := fxMul y y
    if 2 * fxOne ≤ z then w + fxLogBits k (w / 2) (z / 2) else fxLogBits k (w / 2) z

def fxLog2 (m : Nat) (e : Int) : Int :=
  let k := Nat.log2 m
  let y : Int := toFx false m (-(k : Int))
  (e + k) * fxOne + fxLogBits 60 (fxOne / 2) y

/-! ## The free part (log 45) -/

/-- A part of `bound`, from −bound to bound, that a free value picks. -/
def freePart (free : Word) (bound : Int) : Int := bound * ((free.toNat % (2 ^ 20 + 1) : Nat) - 2 ^ 19) / 2 ^ 19

/-- 2^(−k), a little less than it, as the reference is not exact. -/
def bound2 (k : Nat) : Int := 2 ^ (fx - k) - 2 ^ (fx - k - 8)

/-- The reference with a relative free part of at most 2^(−k). -/
def relPart (free : Word) (v : Int) (k : Nat) : Int := v + freePart free v.natAbs / 2 ^ k * 255 / 256

/-! ## The functions (R234, R235) -/

/-- What a function gives: a value still to round, and flags. -/
abbrev FnRes := FVal × VFlags

def fOneVal (neg : Bool) : FVal := .fin neg 1 0

/-- R235: SIN and COS of a finite argument that is no zero: exact reduction by quarter turns. -/
def trigFn (cos : Bool) (n : Nat) (free : Word) (neg : Bool) (m : Nat) (e : Int) : FnRes :=
  if (FVal.fin false 65536 0).lt (.fin false m e) then (.nan, fRange)
  else
    let x := toFx neg m e
    let h := fxPi / 2
    let q := (2 * x + h) / (2 * h)
    let r := x - q * h
    let j := (q + (if cos then 1 else 0)) % 4
    let v := if j = 0 then fxSin r else if j = 1 then fxCos r else if j = 2 then -fxSin r else -fxCos r
    (fromFx (v + freePart free (bound2 (n - 1))), fNone)

/-- An integral value, if the finite value is one below 2^20. -/
def integral? (neg : Bool) (m : Nat) (e : Int) : Option Int :=
  let r : Option Nat :=
    if 0 ≤ e then (if e < 20 then some (m * 2 ^ e.toNat) else none)
    else if m % 2 ^ (-e).toNat = 0 then some (m / 2 ^ (-e).toNat) else none
  r.map fun k => if neg then -(k : Int) else k

def exp2Fn (n : Nat) (free : Word) (neg : Bool) (m : Nat) (e : Int) : FnRes :=
  match integral? neg m e with
  | some k => (.fin false 1 k, fNone)
  | none =>
    if (FVal.fin false 2048 0).lt (.fin false m e) then (.fin false 1 (if neg then -100000 else 100000), fNone)
    else
      let x := toFx neg m e
      let k := x / fxOne
      let v := fxExp (fxMul (x - k * fxOne) fxLn2)
      (match fromFx (relPart free v (n - 1)) with
       | .fin s a b => .fin s a (b + k)
       | y => y, fNone)

def log2Fn (n : Nat) (free : Word) (m : Nat) (e : Int) : FnRes :=
  let k := Nat.log2 m
  if m = 2 ^ k then (ofInt (e + k) 0, fNone)
  else
    let v := fxLog2 m e
    let near := -fxOne ≤ v ∧ v ≤ fxOne
    (fromFx (if near then v + freePart free (bound2 (n - 1)) else relPart free v (n - 1)), fNone)

/-- The square root with all bits that rounding needs: a root of 100 bits or more, its last bit marking inexactness. -/
def sqrtFn (n : Nat) (free : Word) (m : Nat) (e : Int) : FnRes :=
  let odd := e % 2 = 1
  let m1 := (if odd then 2 * m else m) * 2 ^ 200
  let e1 := (if odd then e - 1 else e) - 200
  let r := isqrt m1
  if 24 ≤ n then (.fin false (2 * r + (if r * r = m1 then 0 else 1)) (e1 / 2 - 1), fNone)
  else (ofInt (relPart free (r * 2 ^ 8) n) (e1 / 2 - 8), fNone)

def tanhFn (n : Nat) (free : Word) (neg : Bool) (m : Nat) (e : Int) : FnRes :=
  if !(FVal.fin false m e).lt (.fin false 10 0) then (fOneVal neg, fNone)
  else
    let x := toFx neg m e
    let t := series (fun t k => fxMul t (2 * x) / (k + 1)) 160 0 fxOne
    (fromFx (fxDiv (t - fxOne) (t + fxOne) + freePart free (bound2 (n - 1))), fNone)

def atanFn (n : Nat) (free : Word) (neg : Bool) (m : Nat) (e : Int) : FnRes :=
  let v := if e + Nat.log2 m > 100 then (if neg then -(fxPi / 2) else fxPi / 2) else fxAtan (toFx neg m e)
  (fromFx (v + freePart free (bound2 (n - 1))), fNone)

/-- R234: function `f` with `n` iterations. -/
def vcordFn (f n : Nat) (free : Word) (x : FVal) : FnRes :=
  match f, x with
  | _, .nan => (.nan, fNone)
  | 0, .inf _ => (.nan, fRange)
  | 1, .inf _ => (.nan, fRange)
  | 0, .fin s m e => if m = 0 then (.fin s 0 0, fNone) else trigFn false n free s m e
  | 1, .fin s m e => if m = 0 then (fOneVal false, fNone) else trigFn true n free s m e
  | 2, .inf s => (if s then .fin false 0 0 else .inf false, fNone)
  | 2, .fin s m e => exp2Fn n free s m e
  | 3, .inf s => if s then (.nan, fInv) else (.inf false, fNone)
  | 3, .fin s m e => if m = 0 then (.inf true, fNone) else if s then (.nan, fInv) else log2Fn n free m e
  | 4, .inf s => if s then (.nan, fInv) else (.inf false, fNone)
  | 4, .fin s m e => if m = 0 then (.fin s 0 0, fNone) else if s then (.nan, fInv) else sqrtFn n free m e
  | 5, .inf s => (fOneVal s, fNone)
  | 5, .fin s m e => if m = 0 then (.fin s 0 0, fNone) else tanhFn n free s m e
  | 6, .inf s => ((fp32.decode (if s then 0xBFC90FDB else 0x3FC90FDB)), fNone)
  | _, .fin s m e => if m = 0 then (.fin s 0 0, fNone) else atanFn n free s m e
  | _, .inf s => ((fp32.decode (if s then 0xBFC90FDB else 0x3FC90FDB)), fNone)

/-! ## The estimates (R220) -/

/-- R220: 1/a truncated to `p` significant bits. -/
def rcpEst (p : Nat) : FVal → FVal
  | .nan => .nan
  | .inf s => .fin s 0 0
  | .fin s m e =>
    if m = 0 then .inf s
    else
      let k := Nat.log2 m + p
      .fin s (2 ^ k / m) (-(k : Int) - e)

/-- R220: 1/√a truncated to `p` significant bits. -/
def rsqEst (p : Nat) : FVal → FVal × VFlags
  | .nan => (.nan, fNone)
  | .inf s => if s then (.nan, fInv) else (.fin false 0 0, fNone)
  | .fin s m e =>
    if m = 0 then (.inf s, fNone)
    else if s then (.nan, fInv)
    else
      let odd := e % 2 = 1
      let m1 := if odd then 2 * m else m
      let e1 := if odd then e - 1 else e
      let k := Nat.log2 m1 / 2 + p
      (.fin false (isqrt (4 ^ k / m1)) (-(k : Int) - e1 / 2), fNone)

end Sys2Proof.Machine
end

