-- ==== Sys2Proof/Machine/Vector.lean ====
section
/-!
DEFINITION. The vector words (chapter 06): the window (R202 to R206), ports (R211 to R218), element arithmetic (R219 to
R229), vector memory (R230 to R232), VCORD (R233) and VSTAT (R236).
-/

namespace Sys2Proof.Machine

/-! ## The window (R202, R203) -/

/-- R203: the element width in bits, and the floating-point format of a type. -/
def TType.width : TType → Nat | .fp32 => 32 | .int32 => 32 | _ => 16
def TType.lanes (t : TType) : Nat := 4096 / t.width
def TType.fmt : TType → Option Fmt
  | .fp32 => some Sys2Proof.Machine.fp32 | .bf16 => some Sys2Proof.Machine.bf16 | .fp16 => some Sys2Proof.Machine.fp16
  | _ => none
def TType.isInt (t : TType) : Bool := t.fmt.isNone

def Slot.tile (t : Slot) : Nat := bits t.vwin 0 2

/-- R202: the physical row (64 × tile + row) that Vn names. -/
def vrowNo (t : Slot) (rrb : BitVec 8) (n : Nat) : Nat :=
  64 * t.tile + 32 * bits t.vwin 2 1 + (if n < 16 then n else 16 + (n - 16 + 256 - rrb.toNat) % 16)

/-- R60: tiles and types as the words of the bundle read them. -/
def State.readTiles (s : State) : Sparse (BitVec 32) :=
  match s.issue.view with | some v => v.tiles | none => (s.core s.myCore).tiles
def State.readType (s : State) : TType :=
  let t := s.readSlot.tile
  match s.issue.view with | some v => sget v.ttype .fp32 t | none => s.tileType s.myCore t

def State.rowNo (s : State) (n : Nat) : Nat := vrowNo s.readSlot s.readStream.rrb n
def State.readV (s : State) (n : Nat) : Row := rowOf s.readTiles (s.rowNo n)

/-- Element `i` of a row, of width `w`. -/
def elem (r : Row) (w i : Nat) : Nat := (r.extractLsb' (w * i) w).toNat

/-- A row from its elements. -/
def rowFrom (w : Nat) (f : Nat → Nat) : Nat → Nat → Nat
  | 0, _ => 0
  | n + 1, i => f i % 2 ^ w + 2 ^ w * rowFrom w f n (i + 1)

def mkRow (w : Nat) (f : Nat → Nat) : Row := BitVec.ofNat 4096 (rowFrom w f (4096 / w) 0)

/-- R62, R203: the guard bit of element `i` of width `w`. -/
def laneOn (g : BitVec 256) (w i : Nat) : Bool := bit g (if w = 32 then 2 * i else i)

/-- The mask of the enabled elements. -/
def laneMask (g : BitVec 256) (w : Nat) : Row := mkRow w fun i => if laneOn g w i then 2 ^ w - 1 else 0

/-- R54, R205, R241: a vector result: it lands at once in an interlocked block, later in an exposed one, its flags with
it. -/
def State.writeRow (s : State) (n : Nat) (v en : Row) (lat : Nat) (flags : VFlags := 0) : State :=
  let r := s.rowNo n
  if s.myStream.exposed then s.modMyStream (·.result lat (.row r v en) flags)
  else
    let s1 := s.modCore s.myCore fun c => { c with tiles := setRow c.tiles r v en }
    if flags = 0 then s1 else s1.raise flags

/-- The flags of a list of element results that are enabled. -/
def flagsOf (w : Nat) (g : BitVec 256) (f : Nat → VFlags) : VFlags :=
  (upTo 0 (4096 / w)).foldl (fun a i => if laneOn g w i then a ||| f i else a) 0

/-- R204, R242: a window over a tile that the job does not hold. -/
def windowFault (s : State) : Option Trap :=
  if s.readSlot.holdsTile s.readSlot.tile then none else some (trapOf Code.tileType 1)

def wrongType : Trap := trapOf Code.tileType 2

/-- The type classes that a form takes (R210). -/
inductive Need where
  | any | fp | int
deriving DecidableEq, Repr

def Need.ok (k : Need) (t : TType) : Bool :=
  match k with | .any => true | .fp => !t.isInt | .int => t.isInt

/-- R62, R210: a vector-slot word: with no guard bit it does nothing, unless `always`; the window and the type are
checked when it executes. -/
def runVector (s : State) (i : Instr) (k : Need) (always : Bool) (e : State → BitVec 256 → TType → Eff) :
    Host.Outcome State Fault Refusal :=
  runWord s i fun s =>
    let g := s.guard i.hd
    if g = 0 ∧ !always then .ok s
    else match windowFault s with
      | some t => .trap t
      | none => if !k.ok s.readType then .trap wrongType else e s g s.readType

/-! ## Ports (R212 to R217) -/

def Slot.port (t : Slot) (n : Nat) : Port := sget t.ports {} n
def Slot.setPort (t : Slot) (n : Nat) (p : Port) : Slot := { t with ports := sput t.ports n p }

/-- R215: the address of the use that the indices name. -/
def Port.addr (p : Port) : Word :=
  (upTo 0 6).foldl (fun a k => a + BitVec.ofNat 64 (p.idx.getD k 0) * p.lstride.getD k 0) p.lbase

/-- R215: the indices after a use; the flag says that the last level wrapped. -/
def stepIdx (cnt : Vector Word 6) : Nat → Nat → Vector Nat 6 → Vector Nat 6 × Bool
  | 0, _, v => (v, true)
  | fuel + 1, k, v =>
    let i := v.getD k 0 + 1
    if i < max (bits (cnt.getD k 0) 0 32) 1 then (v.setIfInBounds k i, false)
    else stepIdx cnt fuel (k + 1) (v.setIfInBounds k 0)

/-- R215: a use has been consumed. -/
def Port.advance (p : Port) : Port :=
  let (v, isOver) := stepIdx p.lcnt 6 0 p.idx
  { p with idx := v, used := p.used + 1, exh := isOver && !bit p.ltype 12 }

def Port.splat (p : Port) : Bool := bit p.ltype 0
def Port.esz (p : Port) : Nat := if bit p.ltype 4 then 2 else 4

/-- The row that the bytes of a use give. -/
def Port.value (p : Port) (bs : List Byte) : Row :=
  if p.splat then mkRow (8 * p.esz) fun _ => bytesNat bs else BitVec.ofNat 4096 (bytesNat bs)

/-- R214: PGO latches the registers of `q` and starts; the port as it stands right after. -/
def Port.goFrom (p q : Port) : Port :=
  { p with run := true, exh := false, lbase := q.base, ltype := q.type, lcnt := q.cnt, lstride := q.stride
           idx := Vector.replicate 6 0, used := 0, ahead := [] }

/-- PGO of a port whose registers stand. -/
def Port.go (p : Port) : Port := p.goFrom p

/-- R241: the port that a use of the bundle at hand finds: a PGO or PSTOP of the same bundle is seen by the next one. -/
def State.usePort (s : State) (n : Nat) : Port :=
  match s.issue.view with
  | some v => sget v.ports {} n
  | none => s.mySlot.port n

/-- R216: the state that a port read of the bundle at hand reads: the one before the bundle. -/
def State.beforeBundle (s : State) : State :=
  match s.issue.view with
  | some v => { s with mem := v.mem, poison := v.poison, badLines := v.badLines }.modCore s.myCore ({ · with empty := v.empty })
  | none => s

/-- R215: a use has been taken, the port standing as `p`; one that a PGO of the bundle restarts keeps its start. -/
def State.tookUse (s : State) (n : Nat) (p : Port) : State :=
  let put (t : Slot) : Slot :=
    let c := t.port n
    t.setPort n { c with idx := p.idx, used := p.used, exh := p.exh, ahead := if c.run then p.ahead else [] }
  match s.issue.view with
  | none => s.modMySlot put
  | some v =>
    let s1 := if v.went.contains n then s else s.modMySlot put
    { s1 with issue := { s1.issue with view := some { v with ports := sput v.ports n p } } }

/-- A PGO of the bundle at hand. -/
def State.wentPort (s : State) (n : Nat) : State :=
  match s.issue.view with
  | none => s
  | some v => { s with issue := { s.issue with view := some { v with went := n :: v.went } } }

/-- R211, R215, R217: the consuming bundle takes the next use of a port. -/
def portUse (s : State) (n : Nat) (ty : TType) (k : State → Row → Eff) : Eff :=
  let p := s.usePort n
  if !s.mySlot.portMask.testBit n then .trap (trapOf Code.ringProtocol 6)
  else if !p.run ∨ p.exh then .trap (trapOf Code.ringProtocol 7)
  else if p.splat ∧ 8 * p.esz ≠ ty.width then .trap (trapOf Code.tileType 3)
  else
    let a := p.addr
    let take (s : State) (v : Row) (rest : List Prefetch) : Eff := k (s.tookUse n { p.advance with ahead := rest }) v
    if a.toNat % (ty.width / 8) ≠ 0 then .trap (trapOf Code.misalign 0 a)
    else match p.ahead with
      | f :: rest => (match f.fault with
        | some t => .trap t
        | none => take s f.value rest)
      | [] =>
        let n := if p.splat then p.esz else 512
        readEff s.beforeBundle (slotReq s s.me.slot) a n .r fun ps bs =>
          take (hinted (readUses s (slotReq s s.me.slot) a.toNat n ps) (s.myCore / 96) ps) (p.value bs) []

/-- The port as it will stand after the uses already read ahead. -/
def Port.afterAhead (p : Port) : Port := p.ahead.foldl (fun p _ => p.advance) p

/-- R216: PORT_PREFETCH: a running port reads one more use ahead, up to four; not from a device page, nor from an empty
line or data whose check fails, which its consumer will read. -/
def execPortPrefetch (slot : Nat) (port : Nat) (s : State) : Host.Outcome State Fault Refusal :=
  let t := s.slot slot
  let p := t.port port
  let q := p.afterAhead
  if t.state ≠ .running ∨ !p.run ∨ q.exh ∨ 4 ≤ p.ahead.length then .next s
  else
    let a := q.addr
    let put (s : State) (f : Prefetch) : Host.Outcome State Fault Refusal :=
      .next (s.modSlot slot (·.setPort port { p with ahead := p.ahead ++ [f] }))
    let n := if q.splat then q.esz else 512
    match resolveAccess s (slotReq s slot) .r a a n with
    | .error f => if f.code = 0 then .next s else put s { value := 0, fault := some f }
    | .ok ps =>
      if ps.any (fun x => x.attr == 3 || touchesEmpty s x || touchesPoison s x) then .next s
      else put (hinted (readUses s (slotReq s slot) a.toNat n ps) (slotCore slot / 96) ps) { value := q.value (piecesBytes s ps), fault := none }

/-- R212: an undeclared port. -/
def portFault (s : State) (n : Nat) : Option Trap :=
  if s.mySlot.portMask.testBit n then none else some (trapOf Code.ringProtocol 6)

def execPgo (h : Hd) (p : BitVec 3) (s : State) : Host.Outcome State Fault Refusal :=
  runGuarded s (.pgo h p) fun s =>
    match portFault s p.toNat with
    | some t => .trap t
    | none => .ok ((s.modMySlot fun t => t.setPort p.toNat ((t.port p.toNat).goFrom (s.readSlot.port p.toNat))).wentPort p.toNat)

def execPstop (h : Hd) (p : BitVec 3) (s : State) : Host.Outcome State Fault Refusal :=
  runGuarded s (.pstop h p) fun s =>
    match portFault s p.toNat with
    | some t => .trap t
    | none => .ok (s.modMySlot fun t => t.setPort p.toNat { t.port p.toNat with run := false, ahead := [] })

/-- R214: VSTP. -/
def Port.status (p : Port) : Word := BitVec.ofNat 64 (b2n p.run * 2 ^ 63 + b2n p.exh * 2 ^ 62 + p.used.toNat)

def execVstp (h : Hd) (d : BitVec 5) (p : BitVec 3) (s : State) : Host.Outcome State Fault Refusal :=
  runGuarded s (.vstp h d p) fun s =>
    match portFault s p.toNat with
    | some t => .trap t
    | none => .ok (s.writeX d (s.readSlot.port p.toNat).status)

/-- R211: the vb operand: a row, or the next use of a port. -/
def operandB (s : State) (b : BitVec 5) (m : BitVec 1) (ty : TType) (k : State → Row → Eff) : Eff :=
  if m = 0 then k s (s.readV b.toNat) else portUse s b.toNat ty k

/-! ## Element operations (R210) -/

/-- An element operation gives a code and flags. -/
abbrev ElemOp := Nat × VFlags

/-- R62: writes the results of the enabled elements. -/
def writeElems (s : State) (d : BitVec 5) (g : BitVec 256) (w lat : Nat) (f : Nat → ElemOp) : Eff :=
  .ok (s.writeRow d.toNat (mkRow w fun i => if laneOn g w i then (f i).1 else 0) (laneMask g w) lat (flagsOf w g fun i => (f i).2))

/-- A word of two operands and the old destination. -/
def vec3 (s : State) (i : Instr) (k : Need) (lat : Nat) (d a b : BitVec 5) (m : BitVec 1)
    (op : TType → Nat → Nat → Nat → State → Nat → ElemOp) : Host.Outcome State Fault Refusal :=
  runVector s i k false fun s g ty =>
    let w := ty.width
    let ra := s.readV a.toNat
    let rd := s.readV d.toNat
    operandB s b m ty fun s rb => writeElems s d g w lat fun n => op ty (elem ra w n) (elem rb w n) (elem rd w n) s n

/-- A word of one operand. -/
def vec1 (s : State) (i : Instr) (k : Need) (lat : Nat) (d a : BitVec 5) (op : TType → Nat → State → ElemOp) :
    Host.Outcome State Fault Refusal :=
  runVector s i k false fun s g ty =>
    let w := ty.width
    let ra := s.readV a.toNat
    writeElems s d g w lat fun n => op ty (elem ra w n) s

/-! ## Floating point (R219, R220) -/

def State.vmode (s : State) : RMode := rmOf s.readSlot.vrm.toNat
def isRdn : RMode → Bool | .rdn => true | _ => false

/-- A binary operation on exact values, rounded once by VSTAT.RM (R97). -/
def fpOp (f : Fmt) (mode : RMode) (r : FVal × VFlags) : ElemOp :=
  let (c, fl) := f.round mode false r.1
  (c, fl ||| r.2)

/-- The format of a type, FP32 for an integer type (which R210 has refused). -/
def TType.fmtD (t : TType) : Fmt := t.fmt.getD Sys2Proof.Machine.fp32

def fpAdd (f : Fmt) (mode : RMode) (a b : Nat) : ElemOp := fpOp f mode ((f.decode a).add (isRdn mode) (f.decode b))
def fpSub (f : Fmt) (mode : RMode) (a b : Nat) : ElemOp := fpOp f mode ((f.decode a).add (isRdn mode) (f.decode b).neg)
def fpMul (f : Fmt) (mode : RMode) (a b : Nat) : ElemOp := fpOp f mode ((f.decode a).mul (f.decode b))

/-- R219: ±(a × b) + c, one rounding; `neg` negates the product, `out` the sum. -/
def fpFma (f : Fmt) (mode : RMode) (neg out : Bool) (a b c : Nat) : ElemOp :=
  let (p, f1) := (f.decode a).mul (f.decode b)
  let (r, f2) := (if neg then p.neg else p).add (isRdn mode) (f.decode c)
  fpOp f mode (if out then r.neg else r, f1 ||| f2)

/-- R219: VMAX and VMIN. -/
def fpMinMax (max : Bool) (f : Fmt) (a b : Nat) : Nat :=
  let x := f.decode a
  let y := f.decode b
  if x.isNan ∨ y.isNan then f.nanCode
  else if x.lt y then (if max then b else a)
  else if y.lt x then (if max then a else b)
  else if x.sign = max then b else a

def execVadd (h : Hd) (d a b : BitVec 5) (m : BitVec 1) (s : State) : Host.Outcome State Fault Refusal :=
  vec3 s (.vadd h d a b m) .fp 4 d a b m fun ty x y _ s _ => fpAdd ty.fmtD s.vmode x y
def execVsub (h : Hd) (d a b : BitVec 5) (m : BitVec 1) (s : State) : Host.Outcome State Fault Refusal :=
  vec3 s (.vsub h d a b m) .fp 4 d a b m fun ty x y _ s _ => fpSub ty.fmtD s.vmode x y
def execVmul (h : Hd) (d a b : BitVec 5) (m : BitVec 1) (s : State) : Host.Outcome State Fault Refusal :=
  vec3 s (.vmul h d a b m) .fp 4 d a b m fun ty x y _ s _ => fpMul ty.fmtD s.vmode x y
def execVfma (h : Hd) (d a b : BitVec 5) (m : BitVec 1) (s : State) : Host.Outcome State Fault Refusal :=
  vec3 s (.vfma h d a b m) .fp 4 d a b m fun ty x y z s _ => fpFma ty.fmtD s.vmode false false x y z
def execVfms (h : Hd) (d a b : BitVec 5) (m : BitVec 1) (s : State) : Host.Outcome State Fault Refusal :=
  vec3 s (.vfms h d a b m) .fp 4 d a b m fun ty x y z s _ => fpFma ty.fmtD s.vmode true false x y z
def execVfnma (h : Hd) (d a b : BitVec 5) (m : BitVec 1) (s : State) : Host.Outcome State Fault Refusal :=
  vec3 s (.vfnma h d a b m) .fp 4 d a b m fun ty x y z s _ => fpFma ty.fmtD s.vmode false true x y z
def execVmax (h : Hd) (d a b : BitVec 5) (m : BitVec 1) (s : State) : Host.Outcome State Fault Refusal :=
  vec3 s (.vmax h d a b m) .fp 2 d a b m fun ty x y _ _ _ => (fpMinMax true ty.fmtD x y, 0)
def execVmin (h : Hd) (d a b : BitVec 5) (m : BitVec 1) (s : State) : Host.Outcome State Fault Refusal :=
  vec3 s (.vmin h d a b m) .fp 2 d a b m fun ty x y _ _ _ => (fpMinMax false ty.fmtD x y, 0)

def execVabs (h : Hd) (d a : BitVec 5) (s : State) : Host.Outcome State Fault Refusal :=
  vec1 s (.vabs h d a) .fp 2 d a fun ty x _ => (x % 2 ^ (ty.width - 1), 0)
def execVneg (h : Hd) (d a : BitVec 5) (s : State) : Host.Outcome State Fault Refusal :=
  vec1 s (.vneg h d a) .fp 2 d a fun ty x _ => (x ^^^ 2 ^ (ty.width - 1), 0)

/-- R220: the significant bits of the estimates. -/
def estBits (f : Fmt) : Nat := min 12 (f.m + 1)

def execVrcpe (h : Hd) (d a : BitVec 5) (s : State) : Host.Outcome State Fault Refusal :=
  vec1 s (.vrcpe h d a) .fp 6 d a fun ty x _ =>
    fpOp ty.fmtD .rtz (rcpEst (estBits ty.fmtD) (ty.fmtD.decode x), fNone)
def execVrsqe (h : Hd) (d a : BitVec 5) (s : State) : Host.Outcome State Fault Refusal :=
  vec1 s (.vrsqe h d a) .fp 6 d a fun ty x _ => fpOp ty.fmtD .rtz (rsqEst (estBits ty.fmtD) (ty.fmtD.decode x))

/-- R220: an integral value, with no flag. -/
def fpIntegral (f : Fmt) (mode : RMode) (x : Nat) : Nat := (f.round .rne false (toIntegral mode (f.decode x))).1

def execVfloor (h : Hd) (d a : BitVec 5) (s : State) : Host.Outcome State Fault Refusal :=
  vec1 s (.vfloor h d a) .fp 3 d a fun ty x _ => (fpIntegral ty.fmtD .rdn x, 0)
def execVrnd (h : Hd) (d a : BitVec 5) (s : State) : Host.Outcome State Fault Refusal :=
  vec1 s (.vrnd h d a) .fp 3 d a fun ty x s => (fpIntegral ty.fmtD s.vmode x, 0)

/-- The signed value of a w-bit element. -/
def signedElem (w x : Nat) : Int := if x < 2 ^ (w - 1) then x else (x : Int) - 2 ^ w
def wrapElem (w : Nat) (v : Int) : Nat := (v % 2 ^ w).toNat

def fpScale (f : Fmt) (mode : RMode) (x : Nat) (k : Int) : ElemOp :=
  fpOp f mode (match f.decode x with | .fin s m e => .fin s m (e + k) | y => y, fNone)

def execVscale (h : Hd) (d a b : BitVec 5) (m : BitVec 1) (s : State) : Host.Outcome State Fault Refusal :=
  vec3 s (.vscale h d a b m) .fp 3 d a b m fun ty x y _ s _ => fpScale ty.fmtD s.vmode x (signedElem ty.width y)

/-! ## Integers and moves (R221, R222) -/

def execViadd (h : Hd) (d a b : BitVec 5) (m : BitVec 1) (s : State) : Host.Outcome State Fault Refusal :=
  vec3 s (.viadd h d a b m) .int 2 d a b m fun ty x y _ _ _ => ((x + y) % 2 ^ ty.width, 0)
def execVisub (h : Hd) (d a b : BitVec 5) (m : BitVec 1) (s : State) : Host.Outcome State Fault Refusal :=
  vec3 s (.visub h d a b m) .int 2 d a b m fun ty x y _ _ _ => (wrapElem ty.width ((x : Int) - y), 0)
def execVimul (h : Hd) (d a b : BitVec 5) (m : BitVec 1) (s : State) : Host.Outcome State Fault Refusal :=
  vec3 s (.vimul h d a b m) .int 3 d a b m fun ty x y _ _ _ => (x * y % 2 ^ ty.width, 0)
def execVand (h : Hd) (d a b : BitVec 5) (m : BitVec 1) (s : State) : Host.Outcome State Fault Refusal :=
  vec3 s (.vand h d a b m) .any 2 d a b m fun _ x y _ _ _ => (x &&& y, 0)
def execVor (h : Hd) (d a b : BitVec 5) (m : BitVec 1) (s : State) : Host.Outcome State Fault Refusal :=
  vec3 s (.vor h d a b m) .any 2 d a b m fun _ x y _ _ _ => (x ||| y, 0)
def execVxor (h : Hd) (d a b : BitVec 5) (m : BitVec 1) (s : State) : Host.Outcome State Fault Refusal :=
  vec3 s (.vxor h d a b m) .any 2 d a b m fun _ x y _ _ _ => (x ^^^ y, 0)
def execVshl (h : Hd) (d a b : BitVec 5) (m : BitVec 1) (s : State) : Host.Outcome State Fault Refusal :=
  vec3 s (.vshl h d a b m) .any 2 d a b m fun ty x y _ _ _ => (x * 2 ^ (y % ty.width) % 2 ^ ty.width, 0)
def execVsar (h : Hd) (d a b : BitVec 5) (m : BitVec 1) (s : State) : Host.Outcome State Fault Refusal :=
  vec3 s (.vsar h d a b m) .any 2 d a b m fun ty x y _ _ _ =>
    (wrapElem ty.width (signedElem ty.width x / 2 ^ (y % ty.width)), 0)
def execVshr (h : Hd) (d a b : BitVec 5) (m : BitVec 1) (s : State) : Host.Outcome State Fault Refusal :=
  vec3 s (.vshr h d a b m) .any 2 d a b m fun ty x y _ _ _ => (x / 2 ^ (y % ty.width), 0)

def execVmov (h : Hd) (d b : BitVec 5) (m : BitVec 1) (s : State) : Host.Outcome State Fault Refusal :=
  vec3 s (.vmov h d b m) .any 2 d 0 b m fun _ _ y _ _ _ => (y, 0)

/-- R222: VSEL writes every element; its guard selects. -/
def execVsel (h : Hd) (d a b : BitVec 5) (m : BitVec 1) (s : State) : Host.Outcome State Fault Refusal :=
  runVector s (.vsel h d a b m) .any true fun s g ty =>
    let w := ty.width
    let ra := s.readV a.toNat
    operandB s b m ty fun s rb =>
      writeElems s d (BitVec.allOnes 256) w 2 fun n => (if laneOn g w n then elem ra w n else elem rb w n, 0)

/-- R222: Min(Max(d, a), b). -/
def clampElem (ty : TType) (x y z : Nat) : Nat :=
  match ty.fmt with
  | some f => fpMinMax false f (fpMinMax true f z x) y
  | none =>
    let w := ty.width
    wrapElem w (min (max (signedElem w z) (signedElem w x)) (signedElem w y))

def execVclamp (h : Hd) (d a b : BitVec 5) (m : BitVec 1) (s : State) : Host.Outcome State Fault Refusal :=
  vec3 s (.vclamp h d a b m) .any 2 d a b m fun ty x y z _ _ => (clampElem ty x y z, 0)

/-! ## Conversions (R223, R224, R102) -/

/-- R223: the mode of a conversion, its stochastic word given. -/
def cvtMode (s : State) (r : BitVec 3) (u : Nat) : RMode :=
  match r.toNat with
  | 0 => s.vmode | 1 => .rne | 2 => .rtz | 3 => .rup | 4 => .rdn | _ => .sr u

/-- R102, R103: generator `i` as the words before this one in its bundle have left it (log 133). -/
def State.gen (s : State) (i : Nat) : BitVec 32 := sget s.mySlot.gens (genOf s.mySlot.rndseed i) i

/-- R102: the generators of the enabled elements advance by 16 steps. -/
def advanceGens (s : State) (on : Nat → Bool) : State :=
  s.modMySlot fun t => { t with gens := (upTo 0 128).map fun i =>
    (i, if on i then lfsrSteps 16 (sget t.gens (genOf t.rndseed i) i) else sget t.gens (genOf t.rndseed i) i) }

/-- R224: one element of a narrowing conversion from FP32. -/
def narrow (f : Fmt) (mode : RMode) (sat : Bool) (x : Nat) : ElemOp := f.round mode sat (fp32.decode x)

/-- R90: FP32 to E8M0. -/
def toE8m0 (x : Nat) : Nat :=
  let e := x / 2 ^ 23 % 256
  if e = 255 then 0xFF else e

/-- R100: FP32 to a 32-bit integer. -/
def f32ToInt (mode : RMode) (lo hi : Int) (x : Nat) : ElemOp :=
  let (v, f) := toInteger mode lo hi (fp32.decode x)
  (wrapElem 32 v, f)

/-- R223, R224: VCVT. The destination of a narrowing conversion is the elements of one half. The widenings of codes 4 to 7 are exact
and set no flag whatever SAT says (R99; log 132). -/
def execVcvt (h : Hd) (d a : BitVec 5) (t : BitVec 1) (c : BitVec 4) (r : BitVec 3) (s : State) : Host.Outcome State Fault Refusal :=
  runVector s (.vcvt h d a t c r) .any false fun s g _ =>
    let ra := s.readV a.toNat
    let sat := t == 1
    let half := c.toNat % 2
    let nar (f : Fmt) : Eff :=
      let on (i : Nat) : Bool := bit g (2 * i + half)
      let res (i : Nat) : ElemOp := narrow f (cvtMode s r (bits (s.gen i) 0 16)) sat (elem ra 32 i)
      let v := mkRow 16 fun j => if j % 2 = half ∧ on (j / 2) then (res (j / 2)).1 else 0
      let en := mkRow 16 fun j => if j % 2 = half ∧ on (j / 2) then 0xFFFF else 0
      let fl := (upTo 0 128).foldl (fun x i => if on i then x ||| (res i).2 else x) (0 : VFlags)
      let s1 := s.writeRow d.toNat v en 3 fl
      .ok (if r = 5 then advanceGens s1 on else s1)
    let to32 (f : Nat → ElemOp) : Eff := writeElems s d g 32 3 f
    let to16 (f : Nat → ElemOp) : Eff := writeElems s d g 16 3 f
    let mode := cvtMode s r 0
    match c.toNat with
    | 0 => nar bf16 | 1 => nar bf16
    | 2 => nar fp16 | 3 => nar fp16
    | 4 => to32 fun i => fp32.round .rne false (bf16.decode (elem ra 16 (2 * i)))
    | 5 => to32 fun i => fp32.round .rne false (bf16.decode (elem ra 16 (2 * i + 1)))
    | 6 => to32 fun i => fp32.round .rne false (fp16.decode (elem ra 16 (2 * i)))
    | 7 => to32 fun i => fp32.round .rne false (fp16.decode (elem ra 16 (2 * i + 1)))
    | 8 => to32 fun i => f32ToInt mode (-(2 ^ 31)) (2 ^ 31 - 1) (elem ra 32 i)
    | 9 => to32 fun i => f32ToInt mode 0 (2 ^ 32 - 1) (elem ra 32 i)
    | 10 => to32 fun i => fp32.round mode false (ofInt (signedElem 32 (elem ra 32 i)) 0)
    | 11 => to32 fun i => fp32.round mode false (ofInt (elem ra 32 i) 0)
    | 12 => to16 fun j => fp16.round mode sat (bf16.decode (elem ra 16 j))
    | 13 => to16 fun j => bf16.round mode sat (fp16.decode (elem ra 16 j))
    | _ => to32 fun i => (toE8m0 (elem ra 32 i), 0)

/-! ## Compares (R225) -/

/-- R225: the condition of one element; none where the type has no such condition. -/
def vecCond (ty : TType) (cc x y : Nat) : Option Bool :=
  let w := ty.width
  match ty.fmt with
  | some f =>
    let a := f.decode x
    let b := f.decode y
    let un := a.isNan || b.isNan
    (match cc with
     | 0 => some (a.eq b)
     | 1 => some (un || !a.eq b)
     | 2 => some (a.lt b)
     | 3 => some (!un && !a.lt b)
     | 4 => some un
     | 5 => some (!un)
     | 6 => some (!un && !b.lt a)
     | 7 => some (b.lt a)
     | _ => none)
  | none =>
    let a := signedElem w x
    let b := signedElem w y
    (match cc with
     | 0 => some (x == y)
     | 1 => some (x != y)
     | 2 => some (decide (a < b))
     | 3 => some (decide (b ≤ a))
     | 4 => some (decide (x < y))
     | 5 => some (decide (y ≤ x))
     | 6 => some (decide (a ≤ b))
     | 7 => some (decide (b < a))
     | 8 => some (decide (x ≤ y))
     | 9 => some (decide (y < x))
     | 10 => some (x.testBit (y % w))
     | 11 => some (!x.testBit (y % w))
     | _ => none)

/-- The bits of a predicate, from a function of the bit's element. -/
def predFrom (w : Nat) (f : Nat → Bool) : BitVec 256 :=
  BitVec.ofNat 256 ((upTo 0 256).foldr (fun i n => b2n (f (if w = 32 then i / 2 else i)) + 2 * n) 0)

def execVcmp (h : Hd) (p : BitVec 3) (a b : BitVec 5) (c : BitVec 4) (k : BitVec 2) (s : State) :
    Host.Outcome State Fault Refusal :=
  runVector s (.vcmp h p a b c k) .any false fun s g ty =>
    let w := ty.width
    if (vecCond ty c.toNat 0 0).isNone then .trap wrongType
    else
      let ra := s.readV a.toNat
      let rb := s.readV b.toNat
      let cv := predFrom w fun i => (vecCond ty c.toNat (elem ra w i) (elem rb w i)).getD false
      let en := predFrom w fun i => laneOn g w i
      let new := combineKind k.toNat (s.readStream.readP (2 * p.toNat)) cv
      .ok ((s.writeP (2 * p.toNat) new en 2).writeP (2 * p.toNat + 1) (~~~new) en 2)

/-! ## Reductions (R226, R227) -/

/-- R226: one level of the tree, absent elements passing the other. -/
def pairUp (op : Nat → Nat → ElemOp) : List (Option ElemOp) → List (Option ElemOp)
  | some x :: some y :: t =>
    let r := op x.1 y.1
    some (r.1, r.2 ||| x.2 ||| y.2) :: pairUp op t
  | some x :: none :: t => some x :: pairUp op t
  | none :: y :: t => y :: pairUp op t
  | l => l

def treeFold (op : Nat → Nat → ElemOp) : Nat → List (Option ElemOp) → List (Option ElemOp)
  | 0, l => l
  | n + 1, l => treeFold op n (pairUp op l)

/-- R226: the result of the tree, +0 with no contributor. -/
def treeResult (op : Nat → Nat → ElemOp) (w : Nat) (g : BitVec 256) (r : Row) : ElemOp :=
  let leaves := (upTo 0 (4096 / w)).map fun i => if laneOn g w i then some (elem r w i, (0 : VFlags)) else none
  match treeFold op 8 leaves with
  | some x :: _ => x
  | _ => (0, 0)

/-- A reduction: its result goes to every element. -/
def reduce (s : State) (i : Instr) (lat : TType → Nat) (d a : BitVec 5) (f : TType → State → BitVec 256 → Row → ElemOp) :
    Host.Outcome State Fault Refusal :=
  runVector s i .any true fun s g ty =>
    let r := f ty s g (s.readV a.toNat)
    .ok (s.writeRow d.toNat (mkRow ty.width fun _ => r.1) (BitVec.allOnes 4096) (lat ty) r.2)

def redLat (ty : TType) : Nat := if ty.width = 32 then 8 else 9

def redAdd (ty : TType) (mode : RMode) (x y : Nat) : ElemOp :=
  match ty.fmt with
  | some f => fpAdd f mode x y
  | none => ((x + y) % 2 ^ ty.width, 0)

def redMinMax (max : Bool) (ty : TType) (x y : Nat) : ElemOp :=
  match ty.fmt with
  | some f => (fpMinMax max f x y, 0)
  | none => (if decide (signedElem ty.width x < signedElem ty.width y) = max then y else x, 0)

def execVradd (h : Hd) (d a : BitVec 5) (s : State) : Host.Outcome State Fault Refusal :=
  reduce s (.vradd h d a) redLat d a fun ty s g r => treeResult (redAdd ty s.vmode) ty.width g r
def execVrmax (h : Hd) (d a : BitVec 5) (s : State) : Host.Outcome State Fault Refusal :=
  reduce s (.vrmax h d a) redLat d a fun ty _ g r => treeResult (redMinMax true ty) ty.width g r
def execVrmin (h : Hd) (d a : BitVec 5) (s : State) : Host.Outcome State Fault Refusal :=
  reduce s (.vrmin h d a) redLat d a fun ty _ g r => treeResult (redMinMax false ty) ty.width g r

/-- R227: the exact sum, rounded once; the same whatever the order. -/
def exactSum (f : Fmt) (mode : RMode) (xs : List Nat) : ElemOp :=
  let vs := xs.map f.decode
  if vs.any (·.isNan) then (f.nanCode, fNone)
  else match vs with
    | [] => (0, fNone)
    | v :: t => fpOp f mode (t.foldl (fun a x => ((a.1.add (isRdn mode) x).1, a.2 ||| (a.1.add (isRdn mode) x).2)) (v, fNone))

/-- R227: the clamped sum of an integer type. -/
def clampSum (w : Nat) (xs : List Nat) : ElemOp :=
  let v := xs.foldl (fun a x => a + signedElem w x) 0
  let lo : Int := -(2 ^ (w - 1))
  let hi : Int := 2 ^ (w - 1) - 1
  if v < lo then (wrapElem w lo, fSat) else if hi < v then (wrapElem w hi, fSat) else (wrapElem w v, 0)

def execVraddx (h : Hd) (d a : BitVec 5) (s : State) : Host.Outcome State Fault Refusal :=
  reduce s (.vraddx h d a) (fun _ => 10) d a fun ty s g r =>
    let xs := ((upTo 0 ty.lanes).filter (laneOn g ty.width)).map (elem r ty.width)
    match ty.fmt with
    | some f => exactSum f s.vmode xs
    | none => clampSum ty.width xs

/-! ## Permutations and broadcasts (R228, R229) -/

/-- A permutation: element `i` of Vd from Va and the index row. -/
def permute (s : State) (i : Instr) (d a b : BitVec 5) (m : BitVec 1) (f : Nat → Nat → (Nat → Nat) → (Nat → Nat) → Nat → Nat) :
    Host.Outcome State Fault Refusal :=
  runVector s i .any false fun s g ty =>
    let w := ty.width
    let ra := s.readV a.toNat
    operandB s b m ty fun s rb => writeElems s d g w 3 fun n => (f w ty.lanes (elem ra w) (elem rb w) n, 0)

def execVperm (h : Hd) (d a b : BitVec 5) (m : BitVec 1) (s : State) : Host.Outcome State Fault Refusal :=
  permute s (.vperm h d a b m) d a b m fun _ l x y i => x (y i % l)
def execVrot (h : Hd) (d a b : BitVec 5) (m : BitVec 1) (s : State) : Host.Outcome State Fault Refusal :=
  permute s (.vrot h d a b m) d a b m fun _ l x y i => x ((i + y 0 % l) % l)
def execVshft (h : Hd) (d a b : BitVec 5) (m : BitVec 1) (s : State) : Host.Outcome State Fault Refusal :=
  permute s (.vshft h d a b m) d a b m fun w l x y i =>
    let j : Int := i + signedElem w (y 0)
    if 0 ≤ j ∧ j < l then x j.toNat else 0
def execVdup (h : Hd) (d a b : BitVec 5) (m : BitVec 1) (s : State) : Host.Outcome State Fault Refusal :=
  permute s (.vdup h d a b m) d a b m fun _ l x y _ => x (y 0 % l)

def execVbc (h : Hd) (d a : BitVec 5) (s : State) : Host.Outcome State Fault Refusal :=
  runVector s (.vbc h d a) .any false fun s g ty =>
    writeElems s d g ty.width 2 fun _ => (bits (s.readX a) 0 ty.width, 0)

/-- R229: VEXT executes when guard bit 0 is 1. -/
def execVext (h : Hd) (d a b : BitVec 5) (s : State) : Host.Outcome State Fault Refusal :=
  runGuarded s (.vext h d a b) fun s =>
    match windowFault s with
    | some t => .trap t
    | none =>
      let ty := s.readType
      .ok (s.writeX d (BitVec.ofNat 64 (elem (s.readV a.toNat) ty.width ((s.readX b).toNat % ty.lanes))) 3)

/-! ## Vector memory (R230 to R232) -/

/-- R230: the element accesses of a vector load or store, in rising order: the lane and its pieces, or the first fault. -/
def vecPieces (s : State) (acc : Acc) (ea : Word) (w : Nat) : List Nat → Except Trap (List (Nat × List Piece))
  | [] => .ok []
  | i :: is =>
    let a := ea + BitVec.ofNat 64 (w / 8 * i)
    match resolveAccess s (myReq s) acc a a (w / 8) with
    | .error t => .error t
    | .ok ps => (vecPieces s acc ea w is).map ((i, ps) :: ·)

def lanesOn (g : BitVec 256) (w : Nat) : List Nat := (upTo 0 (4096 / w)).filter (laneOn g w)

def vecAddr (s : State) (a : BitVec 5) (o : BitVec 5) : Word := s.readX a + BitVec.ofNat 64 (512 * o.toNat)

/-- R230: VLD. -/
def execVld (h : Hd) (d a : BitVec 5) (c : BitVec 4) (o : BitVec 5) (s : State) : Host.Outcome State Fault Refusal :=
  runVector s (.vld h d a c o) .any false fun s g ty =>
    let w := ty.width
    let ea := vecAddr s a o
    if ea.toNat % (w / 8) ≠ 0 then .trap (trapOf Code.misalign 0 ea)
    else match vecPieces s .r ea w (lanesOn g w) with
      | .error t => .trap t
      | .ok l =>
        match l.find? (fun e => e.2.any (touchesEmpty s)) with
        | some (i, _) => .wait 4 0 ((ea + BitVec.ofNat 64 (w / 8 * i)).setWidth 32)
        | none =>
          if l.any (fun e => e.2.any (touchesPoison s)) then .poison
          else
            let vals : Sparse Nat := l.map fun e => (e.1, bytesNat (piecesBytes s e.2))
            let use (s : State) (e : Nat × List Piece) : State := readUses s (myReq s) (ea.toNat + w / 8 * e.1) (w / 8) e.2
            writeElems (l.foldl use s) d g w 6 fun i => (sget vals 0 i, 0)

/-- R230: VST. -/
def execVst (h : Hd) (d a : BitVec 5) (c : BitVec 4) (o : BitVec 5) (s : State) : Host.Outcome State Fault Refusal :=
  runVector s (.vst h d a c o) .any false fun s g ty =>
    let w := ty.width
    let ea := vecAddr s a o
    let r := s.readV d.toNat
    if ea.toNat % (w / 8) ≠ 0 then .trap (trapOf Code.misalign 0 ea)
    else match vecPieces s .w ea w (lanesOn g w) with
      | .error t => .trap t
      | .ok l => .ok (l.foldl (fun s e =>
          writePieces (walked s (myReq s) (ea.toNat + w / 8 * e.1) (w / 8)) (myReq s) e.2 (natBytes (w / 8) (elem r w e.1))) s)

/-- R232: the offset within the job's half of a slice, or the fault. -/
def laneAddr (s : State) (a : BitVec 5) (o : BitVec 8) : Except Trap Nat :=
  let x := s.readX a
  let off := bits x 0 9 + 4 * o.toNat
  if bits x 60 4 ≠ 0xB ∨ bits x 9 51 ≠ 0 then .error (trapOf Code.space 0 x)
  else if off % 4 ≠ 0 then .error (trapOf Code.misalign 0 (x + BitVec.ofNat 64 (4 * o.toNat)))
  else if 512 < off + 4 then .error (trapOf Code.space 0 (x + BitVec.ofNat 64 (4 * o.toNat)))
  else .ok (off + 512 * (s.me.slot % 2))

/-- R232: VLDL. -/
def execVldl (h : Hd) (d a : BitVec 5) (o : BitVec 8) (s : State) : Host.Outcome State Fault Refusal :=
  runVector s (.vldl h d a o) .any false fun s g _ =>
    match laneAddr s a o with
    | .error t => .trap t
    | .ok off => writeElems s d g 32 3 fun i => (memNat s (laneKey s.myCore i off) 4, 0)

/-- R232: VSTL. -/
def execVstl (h : Hd) (d a : BitVec 5) (o : BitVec 8) (s : State) : Host.Outcome State Fault Refusal :=
  runVector s (.vstl h d a o) .any false fun s g _ =>
    match laneAddr s a o with
    | .error t => .trap t
    | .ok off =>
      let r := s.readV d.toNat
      .ok ((lanesOn g 32).foldl (fun s i =>
        { s with mem := writeBytes s.mem (laneKey s.myCore i off) (natBytes 4 (elem r 32 i)) }) s)

/-! ## VCORD (R233, R234) -/

/-- R233: each enabled element takes a free part of its own. -/
def execVcord (h : Hd) (d a n : BitVec 5) (f : BitVec 3) (s : State) : Host.Outcome State Fault Refusal :=
  runVector s (.vcord h d a n f) .fp false fun s g ty =>
    let w := ty.width
    let iters := if n = 0 then 24 else n.toNat
    let ra := s.readV a.toNat
    let first := s.freeCount
    let s1 := { s with freeCount := s.freeCount + ty.lanes }
    writeElems s1 d g w (4 + (iters + 1) / 2) fun i =>
      let r := fpOp ty.fmtD s.vmode (vcordFn f.toNat iters (Config.freeWord (first + i)) (ty.fmtD.decode (elem ra w i)))
      if f = 2 ∧ r.2 &&& fOvf ≠ 0 then (ty.fmtD.infCode, r.2) else r

/-! ## VWIN and VSTAT (R204, R236) -/

def typeOfCode : Nat → Option TType
  | 1 => some .fp32 | 2 => some .int32 | 3 => some .bf16 | 4 => some .fp16 | 5 => some .int16 | _ => none

/-- R206: whether an issued and incomplete nest-queue entry of the job names a tile. -/
def entryNames (t : Slot) (tile : Nat) : Bool := t.nests.any fun e => e.tiles.contains tile

/-- R206, R256: whether a started, incomplete entry of the job holds a tile. -/
def nestHolds (t : Slot) (tile : Nat) : Bool := t.nests.any fun e => e.started && e.tiles.contains tile

def execVwin (h : Hd) (t : BitVec 2) (u : BitVec 1) (k : BitVec 3) (s : State) : Host.Outcome State Fault Refusal :=
  runGuarded s (.vwin h t u k) fun s =>
    if !s.mySlot.holdsTile t.toNat then .trap (trapOf Code.tileType 1)
    else if k ≠ 0 ∧ entryNames s.mySlot t.toNat then .wait 11 t.toNat 0
    else
      let s1 := s.modMySlot fun sl => { sl with vwin := BitVec.ofNat 3 (u.toNat * 4 + t.toNat) }
      .ok (match typeOfCode k.toNat with
        | some ty => s1.modCore s.myCore fun c => { c with ttype := sput c.ttype t.toNat ty }
        | none => s1)

def execVstat (h : Hd) (d a : BitVec 5) (s : State) : Host.Outcome State Fault Refusal :=
  runGuarded s (.vstat h d a) fun s =>
    let clear : VFlags := BitVec.ofNat 5 (bits (s.readX a) 8 5)
    let s1 := s.modMySlot fun t => { t with vflags := (t.vflags &&& ~~~clear) ||| s.issue.flags }
    .ok (s1.writeX d s.readSlot.vstat)

/-- R206: the tile that holds a bundle of the V stream; a VWIN whose guard is false does not wait (R109). -/
def bundleHeld (s : State) (ws : List Instr) : Option (Nat × Nat) :=
  let t := s.mySlot
  if !isJob s.me.slot ∨ s.me.st ≠ .v then none
  else
    let win := ws.findSome? fun i => match i with
      | .vwin h t' _ k => if s.on h ∧ k ≠ 0 ∧ entryNames t t'.toNat then some (11, t'.toNat) else none
      | _ => none
    if ws.any (fun i => vregs i != []) && nestHolds t t.tile then some (11, t.tile) else win

end Sys2Proof.Machine
end

