-- ==== Sys2Proof/Machine/Matrix.lean ====
section
/-!
DEFINITION. The matrix engine (chapter 07): formats and nests (R84 to R95, R250 to R257), the nest queue and the array (R254 to
R258, R269 to R272), retirements (R259 to R263), tile operations (R266, R267), and operand slots (R245 to R248).
-/

namespace Sys2Proof.Machine

/-! ## The format table (R84, R86 to R88) -/

/-- R84: a shape as a format entry names it: element width in storage and group size, with the format of a
floating-point one. -/
structure Shape where
  int    : Bool
  signed : Bool
  mx     : Bool
  fmt    : Fmt
  width  : Nat
  group  : Nat
deriving DecidableEq, Repr

/-- R84: storage width and group size of a floating-point shape. -/
def fpShape (e m : Nat) : Option (Nat × Nat) :=
  match e, m with
  | 8, 10 => some (32, 4) | 8, 7 => some (16, 4) | 5, 10 => some (16, 4) | 6, 9 => some (16, 4)
  | 5, 2 => some (8, 8) | 4, 3 => some (8, 8) | 3, 4 => some (8, 8)
  | 3, 2 => some (6, 8) | 2, 3 => some (6, 8) | 2, 1 => some (4, 16)
  | _, _ => none

/-- R86, R87: the shape of an entry, or none where the entry is not accepted. -/
def shapeOf (w : BitVec 32) : Option Shape :=
  let bias := (w.extractLsb' 24 8).toInt
  let ew := bits w 20 4
  let mw := bits w 16 4
  let sp := bits w 14 2
  let sc := bits w 10 2
  if bits w 0 10 ≠ 0 ∨ sp = 3 ∨ 2 ≤ sc then none
  else if bit w 13 then
    if ew ≠ 0 ∨ bias ≠ 0 ∨ sp ≠ 0 ∨ sc ≠ 0 ∨ (mw ≠ 7 ∧ mw ≠ 3) then none
    else some { int := true, signed := bit w 12, mx := false, fmt := ⟨0, 0, 0, 0⟩, width := mw + 1,
                group := if mw = 7 then 8 else 16 }
  else match fpShape ew mw with
    | none => none
    | some (b, g) =>
      if !bit w 12 ∨ (sc = 1 ∧ 16 ≤ b) then none
      else some { int := false, signed := true, mx := sc == 1, fmt := ⟨ew, mw, bias, sp⟩, width := b, group := g }

/-- R88: the table at reset and at job start. -/
def fmtTable : List (BitVec 32) :=
  [0x7F871000, 0x0F5A1000, 0x1F691000, 0x7F8A1000, 0x07435000, 0x0F521000, 0x03345000, 0x03329000,
   0x01239000, 0x01219000, 0x00073000, 0x00033000, 0x07435400, 0x0F521400, 0x01219400, 0x03329400]

def Slot.fmtEntry (t : Slot) (e : Nat) : BitVec 32 := sget t.fmt (fmtTable.getD e 0) e

/-! ## What a nest reaches (R250 to R254, R257) -/

/-- R254: the number of K levels, and D. -/
def nestR (m : MRegs) : Nat := ((upTo 0 6).filter (lvlK m)).length
def nestD (m : MRegs) : Nat := ((upTo 0 6).filter (lvlK m)).foldl (fun d j => d * lvlCount m j) 1

/-- The number of retirement points of a nest. -/
def nestPoints (m : MRegs) : Nat := ((upTo 0 6).filter (!lvlK m ·)).foldl (fun d j => d * lvlCount m j) 1

/-- R252: bytes of an A group, and the groups per slot, for elements of width `b` in groups of `g`. -/
def groupBytes (b g : Nat) : Nat := 8 * g * b
def groupsPerSlot (size : Nat) : Nat := 32768 / size

/-- R251: the start position of ASLOT or BSLOT. -/
def startPos (v : Word) (per : Nat) : Nat := bits v 0 4 * per + bits v 4 7

/-- The least and the greatest value of an affine position. -/
def affineSpan (p0 : Int) (cnt : Nat → Nat) (inc : Nat → Int) : Int × Int :=
  (upTo 0 6).foldl (fun s j =>
    let d := ((cnt j : Int) - 1) * inc j
    (s.1 + min 0 d, s.2 + max 0 d)) (p0, p0)

/-- R253: the byte of operand memory where the scales of a position start; `per` is 64 for A and 128 for B. -/
def scaleAt (base : Word) (p : Nat) (g per : Nat) : Nat := bits base 0 19 + p * g / 32 * per

/-- One operand of a nest: its shape, the bytes of a group, the groups per slot, where its positions start and step, and
where its scales lie. -/
structure Operand where
  shape : Shape
  size  : Nat
  per   : Nat
  p0    : Nat
  goff  : Nat
  inc   : Nat → Int
  sbase : Word
  srow  : Nat

/-- The operands of a nest whose formats are accepted, with the group size Gx. -/
def nestOperands (m : MRegs) (a b : Shape) : Nat × Operand × Operand :=
  let g := min a.group b.group
  let sa := groupBytes a.width g
  let sb := 2 * groupBytes b.width g
  (g, { shape := a, size := sa, per := groupsPerSlot sa, p0 := startPos (mreg m 0x30) (groupsPerSlot sa),
        goff := bits (mreg m 0x30) 4 7, inc := lvlA m, sbase := mreg m 0x3C, srow := 64 },
   { shape := b, size := sb, per := groupsPerSlot sb, p0 := startPos (mreg m 0x31) (groupsPerSlot sb),
     goff := bits (mreg m 0x31) 4 7, inc := lvlB m, sbase := mreg m 0x3D, srow := 128 })

/-- R257: whether every position and scale of an operand lies in slots 0 to 15. -/
def Operand.spanOk (o : Operand) (m : MRegs) (g : Nat) : Bool :=
  let (lo, hi) := affineSpan o.p0 (lvlCount m) o.inc
  decide (0 ≤ lo) && decide (hi < 16 * o.per) &&
    (!o.shape.mx || decide (scaleAt o.sbase hi.toNat g o.srow + o.srow ≤ 16 * 32768))

/-- R257: the slots that an operand's positions and scales touch. -/
def Operand.slots (o : Operand) (m : MRegs) (g : Nat) : List Nat :=
  let (lo, hi) := affineSpan o.p0 (lvlCount m) o.inc
  let span (a b : Nat) : List Nat := upTo a (b - a + 1)
  span (lo.toNat / o.per) (hi.toNat / o.per) ++
    (if o.shape.mx then
      span (scaleAt o.sbase lo.toNat g o.srow / 32768) ((scaleAt o.sbase hi.toNat g o.srow + o.srow - 1) / 32768)
     else [])

/-! ## Tile types that issue checks test (R262) -/

def ctypeOf (m : MRegs) : TType := if bit (mreg m 0x35) 0 then .int32 else .fp32

/-- R260: the fields of RETFLAGS. -/
def retDest (m : MRegs) : Nat := bits (mreg m 0x39) 0 2
def retCvt (m : MRegs) : Nat := bits (mreg m 0x39) 2 2
def cvtType (c : Nat) : TType := if c = 1 then .bf16 else .fp16

/-- The type that a retirement leaves. -/
def retType (m : MRegs) (ty : TType) : TType := if retDest m = 1 ∧ retCvt m ≠ 0 then cvtType (retCvt m) else ty

/-- R262: the types of the tiles once an entry has run, from those before it; what a tile operation that has done its work left is
the type that the tile has now. -/
def Nest.typesAfter (e : Nest) (now ty : Nat → TType) : Nat → TType :=
  match e.kind with
  | .mma | .mmac =>
    let left := if bit (mreg e.regs 0x37) 0 then retType e.regs (ctypeOf e.regs) else ctypeOf e.regs
    fun t => if e.tiles.contains t then left else ty t
  | .trn | .prm | .rred => fun t => if t = e.td then (if e.worked then now t else ty e.ts) else ty t
  | .mret => fun t => if t = e.td then retType e.regs (ty t) else ty t
  | .zero => ty

/-- R262: the type that a tile will have when an entry issued now runs. -/
def State.tileTypeThen (s : State) (n tile : Nat) : TType :=
  let now (t : Nat) : TType := s.tileType (slotCore n) t
  (s.slot n).nests.foldl (fun ty e => e.typesAfter now ty) now tile

/-! ## Issue checks (R257, R262, R266, R267) -/

def nestBad (sub : Nat) : Trap := trapOf Code.nestInvalid sub

/-- R263: the bytes of a SCRATCH retirement. -/
def retBytes (m : MRegs) : Nat := if retCvt m = 0 then 32768 else 16384

/-- R263: the address of retirement `i`. -/
def retAddr (m : MRegs) (i : Nat) : Word :=
  mreg m 0x38 + BitVec.ofNat 64 i * ((mreg m 0x37).extractLsb' 32 32).signExtend 64

/-- R262: a SCRATCH destination must lie in the job's part, or in shared or chip scratchpad that the job may write. -/
def scratchFault (s : State) (n : Nat) (m : MRegs) (a : Word) : Option Trap :=
  let o := a.toNat % 2 ^ 60
  match a.toNat / 2 ^ 60 with
  | 8 => if o + retBytes m ≤ (s.slot n).partLen then none else some (trapOf Code.space 0 a)
  | 9 | 10 => (match resolve s (slotReq s n) .w a a (retBytes m) with
    | .error t => if t.code = 0 then none else some t
    | .ok _ => none)
  | _ => some (trapOf Code.space 0 a)

/-- R262: the first range of the retirements from number `i` on, `fuel` of them at most, that lies outside what the job may write. -/
def rangesFault (s : State) (n : Nat) (m : MRegs) : Nat → Nat → Option Trap
  | 0, _ => none
  | fuel + 1, i => (scratchFault s n m (retAddr m i)).orElse fun _ => rangesFault s n m fuel (i + 1)

/-- R262: how many retirements are looked at: all, but where STRIDE is 0 they are one range, and no more than 2^28 different ranges lie
in a scratchpad. -/
def rangesOf (m : MRegs) (points : Nat) : Nat := if bits (mreg m 0x37) 32 32 = 0 then min points 1 else min points (2 ^ 28 + 1)

/-- R262: the retirement checks, for `points` retirements of tiles of type `ty`. -/
def retFault (s : State) (n : Nat) (m : MRegs) (points : Nat) (ty : TType) : Option Trap :=
  let d := retDest m
  let c := retCvt m
  let a := mreg m 0x38
  let sp := a.toNat / 2 ^ 60
  if d = 3 ∨ c = 3 ∨ (c ≠ 0 ∧ ty = .int32) ∨ (c ≠ 0 ∧ d = 2) then some (nestBad 6)
  else if d = 0 then
    if sp ≠ 8 ∧ sp ≠ 9 ∧ sp ≠ 10 then some (trapOf Code.space 0 a)
    else if a.toNat % 128 ≠ 0 then some (trapOf Code.misalign 0 a)
    else rangesFault s n m (rangesOf m points) 0
  else if d = 2 then
    if sp ≠ 8 then some (trapOf Code.space 0 a) else if a.toNat % 64 ≠ 0 then some (trapOf Code.misalign 0 a) else none
  else none

/-- R257: what a nest whose formats are accepted fails on, given its operands. -/
def nestFault (s : State) (n : Nat) (e : Nest) (a b : Shape) : Option Trap :=
  let t := s.slot n
  let m := e.regs
  let (g, oa, ob) := nestOperands m a b
  let r := nestR m
  let empty := nestEmpty m
  let ct := ctypeOf m
  let touched := oa.slots m g ++ ob.slots m g
  if r = 0 ∨ !(upTo 0 6).all (fun j => lvlK m j == decide (j < r)) ∨ (upTo 0 6).any (fun j => lvlK m j && lvlC m j != 0) then
    some (nestBad 1)
  else if t.maxDepth < nestD m then some (nestBad 2)
  else if oa.per ≤ oa.goff ∨ ob.per ≤ ob.goff ∨ (!empty ∧ (!oa.spanOk m g ∨ !ob.spanOk m g)) then some (nestBad 3)
  else if a.int ≠ (ct == .int32) then some (nestBad 4)
  else if empty then none
  else if !e.tiles.all t.holdsTile then some (trapOf Code.tileType 1)
  else if e.kind = .mmac ∧ !e.tiles.all (fun x => s.tileTypeThen n x == ct) then some wrongType
  else
    match (if bit (mreg m 0x37) 0 then retFault s n m (nestPoints m) ct else none) with
    | some f => some f
    | none =>
      if !touched.all t.oslotMask.testBit then some (trapOf Code.slotProtocol 1)
      else if !touched.all (fun k => (sget t.oslots {} k).state == .claimed) then some (trapOf Code.slotProtocol 5)
      else none

/-- R257, R262, R266, R267: what an entry fails on at its issue; the first of several in this order (log 155). -/
def entryFault (s : State) (n : Nat) (e : Nest) : Option Trap :=
  let t := s.slot n
  match e.kind with
  | .mma | .mmac =>
    (match shapeOf e.fmtA, shapeOf e.fmtB with
     | some a, some b => if a.int ≠ b.int then some (trapOf Code.formatInvalid 0) else nestFault s n e a b
     | _, _ => some (trapOf Code.formatInvalid 0))
  | .trn | .prm => if t.holdsTile e.td ∧ t.holdsTile e.ts then none else some (trapOf Code.tileType 1)
  | .rred =>
    if !t.holdsTile e.td ∨ !t.holdsTile e.ts then some (trapOf Code.tileType 1)
    else if s.tileTypeThen n e.ts ≠ .fp32 ∧ s.tileTypeThen n e.ts ≠ .int32 then some wrongType
    else if bits (mreg e.regs 0x3B) 8 3 = 0 ∨ bits (mreg e.regs 0x3B) 8 3 = 7 then some (nestBad 5)
    else none
  | .zero => if e.tiles.all t.holdsTile then none else some (trapOf Code.tileType 1)
  | .mret =>
    (retFault s n e.regs 1 (s.tileTypeThen n e.td)).orElse fun _ =>
      if t.holdsTile e.td then none else some (trapOf Code.tileType 1)

/-! ## Issue (R250, R258, R271) -/

/-- R250, R271: an entry as it latches the staging registers and the two format entries. -/
def latchEntry (s : State) (k : NestKind) (td ts : Nat) : Nest :=
  let t := s.mySlot
  { id := s.cmdCount, kind := k, regs := t.mregs, td := td, ts := ts, cmdidx := s.readStream.cmdidx
    fmtA := t.fmtEntry (bits (mreg t.mregs 0x33) 0 4), fmtB := t.fmtEntry (bits (mreg t.mregs 0x34) 0 4)
    prio := max (bits (mreg t.mregs 0x3A) 0 2) t.prio, issued := s.tick }

/-- R258: issues an entry to the nest queue of 8. -/
def issueEntry (s : State) (i : Instr) (k : NestKind) (td ts : Nat) : Host.Outcome State Fault Refusal :=
  runGuarded s i fun s =>
    let e := latchEntry s k td ts
    if 8 ≤ s.mySlot.nests.length then .wait 12 1 0
    else match entryFault s s.me.slot e with
      | some f => .trap f
      | none => .ok ({ s with cmdCount := s.cmdCount + 1 }.modMySlot fun t => { t with nests := t.nests ++ [e] })

def execMma (h : Hd) (s : State) : Host.Outcome State Fault Refusal := issueEntry s (.mma h) .mma 0 0
def execMmac (h : Hd) (s : State) : Host.Outcome State Fault Refusal := issueEntry s (.mmac h) .mmac 0 0
def execTrn (h : Hd) (d t : BitVec 2) (s : State) : Host.Outcome State Fault Refusal := issueEntry s (.trn h d t) .trn d.toNat t.toNat
def execPrm (h : Hd) (d t : BitVec 2) (s : State) : Host.Outcome State Fault Refusal := issueEntry s (.prm h d t) .prm d.toNat t.toNat
def execRred (h : Hd) (d t : BitVec 2) (s : State) : Host.Outcome State Fault Refusal := issueEntry s (.rred h d t) .rred d.toNat t.toNat
def execZero (h : Hd) (m : BitVec 4) (s : State) : Host.Outcome State Fault Refusal := issueEntry s (.zero h m) .zero m.toNat 0
def execMret (h : Hd) (t : BitVec 2) (s : State) : Host.Outcome State Fault Refusal := issueEntry s (.mret h t) .mret t.toNat 0

/-- R250: MCFG writes a staging register whole. -/
def execMcfg (h : Hd) (c : BitVec 8) (a : BitVec 5) (s : State) : Host.Outcome State Fault Refusal :=
  runGuarded s (.mcfg h c a) fun s => .ok (s.modMySlot fun t => { t with mregs := sput t.mregs c.toNat (s.readX a) })

/-- R268: MFMT writes an entry of the format table. -/
def execMfmt (h : Hd) (e : BitVec 4) (a : BitVec 5) (s : State) : Host.Outcome State Fault Refusal :=
  runGuarded s (.mfmt h e a) fun s =>
    .ok (s.modMySlot fun t => { t with fmt := sput t.fmt e.toNat ((s.readX a).setWidth 32) })

/-- R271: MPRI. -/
def execMpri (h : Hd) (a : BitVec 5) (s : State) : Host.Outcome State Fault Refusal :=
  runGuarded s (.mpri h a) fun s =>
    let p := max (bits (s.readX a) 0 2) s.mySlot.prio
    .ok (s.modMySlot fun t =>
      { t with mregs := sput t.mregs 0x3A (BitVec.ofNat 64 p), nests := t.nests.map ({ · with prio := p }) })

/-! ## Operand slots (R245 to R248) -/

/-- R245: the operand slot that a word names must be declared. -/
def oslotEff (s : State) (n : Nat) (k : OSlot → Eff) : Eff :=
  if s.mySlot.oslotMask.testBit n then k (sget s.mySlot.oslots {} n) else .trap (trapOf Code.slotProtocol 1)

def State.setOslot (s : State) (n : Nat) (o : OSlot) : State :=
  s.modMySlot fun t => { t with oslots := sput t.oslots n o }

/-- R245, R246: MCLAIM. -/
def execMclaim (h : Hd) (n : BitVec 4) (s : State) : Host.Outcome State Fault Refusal :=
  runGuarded s (.mclaim h n) fun s => oslotEff s n.toNat fun o =>
    match o.state with
    | .full => .ok (s.setOslot n.toNat { o with state := .claimed, cancels := 0 })
    | .claimed => .trap (trapOf Code.slotProtocol 6)
    | _ => .wait 5 (0x10 + n.toNat) 0

/-- R247: MREL: the slot is RELEASING until every entry issued before has completed. -/
def execMrel (h : Hd) (n : BitVec 4) (s : State) : Host.Outcome State Fault Refusal :=
  runGuarded s (.mrel h n) fun s => oslotEff s n.toNat fun o =>
    if o.state ≠ .claimed then .trap (trapOf Code.slotProtocol 5)
    else
      let k := s.mySlot.nests.length
      .ok (s.setOslot n.toNat (if k = 0 then {} else { o with state := .releasing, waitFor := k }))

/-- R272: MWAITN. -/
def execMwaitn (h : Hd) (a : BitVec 5) (s : State) : Host.Outcome State Fault Refusal :=
  runGuarded s (.mwaitn h a) fun s =>
    let c := s.readX a
    if s.mySlot.nests.length ≤ c.toNat then .ok s else .wait 12 0 (c.setWidth 32)

/-! ## MSTAT (R273) -/

/-- The nest-queue entry that is at work on the array or overtaken. -/
def Slot.worker (t : Slot) : Option Nest := t.nests.find? fun e => e.started && !e.worked

def State.mstat (s : State) (n : Nat) : Word :=
  let t := s.slot n
  let held := match t.worker with | some e => e.overtaken | none => false
  BitVec.ofNat 64 (t.mretired.toNat * 2 ^ 32 + t.nests.length * 2 ^ 12 + b2n held * 2 ^ 9 +
    b2n ((s.core (slotCore n)).arrayBy == some n) * 2 ^ 8 + b2n t.msat)

def execMstat (h : Hd) (c : BitVec 1) (d : BitVec 5) (s : State) : Host.Outcome State Fault Refusal :=
  runGuarded s (.mstat h c d) fun s =>
    let v := s.mstat s.me.slot
    let s1 := if c = 1 then s.modMySlot ({ · with msat := false }) else s
    .ok (s1.writeX d v 2)

/-! ## Tiles as a whole -/

/-- The words of a tile, from a function of row and lane; a word of 0 is not listed. -/
def tileWords (tile : Nat) (f : Nat → Nat → BitVec 32) : Sparse (BitVec 32) :=
  ((upTo 0 8192).map fun i => (8192 * tile + i, f (i / 128) (i % 128))).filter fun e => e.2 != 0

def setTile (ts : Sparse (BitVec 32)) (tile : Nat) (f : Nat → Nat → BitVec 32) : Sparse (BitVec 32) :=
  ts.filter (fun e => decide (e.1 < 8192 * tile)) ++ tileWords tile f ++
    ts.filter (fun e => decide (8192 * (tile + 1) ≤ e.1))

def tileWord (ts : Sparse (BitVec 32)) (tile r l : Nat) : BitVec 32 := sget ts 0 (8192 * tile + 128 * r + l)

def State.modTiles (s : State) (core : Nat) (f : Sparse (BitVec 32) → Sparse (BitVec 32)) : State :=
  s.modCore core fun c => { c with tiles := f c.tiles }

def State.setTypes (s : State) (core : Nat) (ts : List Nat) (ty : TType) : State :=
  s.modCore core fun c => { c with ttype := ts.foldl (fun m t => sput m t ty) c.ttype }

/-! ## A k-step (R91 to R95, R252 to R254) -/

/-- R83: element `i` of a group, as its value. -/
def Shape.value (sh : Shape) (group i : Nat) : FVal ⊕ Int :=
  let v := group / 2 ^ (sh.width * i) % 2 ^ sh.width
  if sh.int then .inr (if sh.signed then signedElem sh.width v else v)
  else .inl (sh.fmt.decode (if sh.width = 32 then v / 2 ^ 13 else v))

/-- R89: the value of an E8M0 scale. -/
def e8m0 (x : Nat) : FVal := if x = 255 then .nan else .fin false 1 ((x : Int) - 127)

/-- The floating-point and the integer view of a value. -/
def asF : FVal ⊕ Int → FVal | .inl x => x | .inr v => ofInt v 0
def asI : FVal ⊕ Int → Int | .inl _ => 0 | .inr v => v

/-- R93: FTZ. -/
def ftzCode (ftz : Bool) (c : Nat) : Nat := if ftz ∧ c / 2 ^ 23 % 256 = 0 then c / 2 ^ 31 * 2 ^ 31 else c

/-- R91, R92: the exact sum of products of a group, −0 only when every product is. -/
def dotF (xs : List (FVal × FVal)) : FVal :=
  match xs.map fun p => (p.1.mul p.2).1 with
  | [] => .fin false 0 0
  | p :: ps => ps.foldl (fun a x => (a.add false x).1) p

/-- R91 to R93: one addition into an FP32 accumulator. -/
def accF (ftz : Bool) (acc : Nat) (p : FVal) : Nat :=
  ftzCode ftz (toFp32 ((fp32.decode (ftzCode ftz acc)).add false p).1)

/-- R95: one addition into an INT32 accumulator, and whether it clamped. -/
def accI (acc : Nat) (p : Int) : Nat × Bool :=
  let v := signedElem 32 acc + p
  let w := max (-(2 ^ 31)) (min (2 ^ 31 - 1) v)
  (wrapElem 32 w, v != w)

/-- What a k-step reads: the bytes of its groups and scales, as numbers. -/
structure Groups where
  a  : Nat
  b  : Nat
  sa : List Byte
  sb : List Byte
deriving DecidableEq, Repr

/-- R91: the new accumulator of element (i, j), and whether it clamped. -/
def kElem (int ftz : Bool) (g : Nat) (a b : Shape) (gr : Groups) (i j acc : Nat) : Nat × Bool :=
  let ps := (upTo 0 g).map fun k => (a.value gr.a (i * g + k), b.value gr.b (k * 128 + j))
  if int then accI acc (ps.foldl (fun v p => v + asI p.1 * asI p.2) 0)
  else
    let p0 := dotF (ps.map fun p => (asF p.1, asF p.2))
    let p1 := if a.mx then (p0.mul (e8m0 (gr.sa.getD i 0).toNat)).1 else p0
    let p2 := if b.mx then (p1.mul (e8m0 (gr.sb.getD j 0).toNat)).1 else p1
    (accF ftz acc p2, false)

/-- The sum of an affine position at the indices of a nest. -/
def posAt (p0 : Nat) (inc : Nat → Int) (idx : List Nat) : Nat :=
  ((upTo 0 6).foldl (fun p j => p + (idx.getD j 0 : Int) * inc j) (p0 : Int)).toNat

/-- The runs of operand memory that a k-step reads: address and length. -/
def Operand.runs (o : Operand) (g : Nat) (idx : List Nat) : List (Nat × Nat) :=
  let p := posAt o.p0 o.inc idx
  (p / o.per * 32768 + p % o.per * o.size, o.size) ::
    (if o.shape.mx then [(scaleAt o.sbase p g o.srow, o.srow)] else [])

def opPiece (core : Nat) (r : Nat × Nat) : Piece := { key := operandKey core r.1, len := r.2 }

/-- R254: the tile of a k-step. -/
def Nest.tileAt (e : Nest) : Nat :=
  (bits (mreg e.regs 0x32) 0 2 + (upTo 0 6).foldl (fun p j => p + e.idx.getD j 0 * lvlC e.regs j) 0) % 4

/-- R254: whether the k-step at the indices begins a reduction, and whether it is a retirement point. -/
def Nest.begins (e : Nest) : Bool := (upTo 0 (nestR e.regs)).all fun j => e.idx.getD j 0 == 0
def Nest.atPoint (e : Nest) : Bool :=
  (upTo 0 (nestR e.regs)).all fun j => e.idx.getD j 0 + 1 == lvlCount e.regs j

/-- R254: the next indices; none after the last k-step. -/
def nextIdx (cnt : Nat → Nat) : Nat → Nat → List Nat → Option (List Nat)
  | 0, _, _ => none
  | fuel + 1, j, l =>
    if l.getD j 0 + 1 < cnt j then some (l.set j (l.getD j 0 + 1)) else nextIdx cnt fuel (j + 1) (l.set j 0)

/-- The shapes of an entry that issue has accepted. -/
def Nest.shapes (e : Nest) : Shape × Shape :=
  let d : Shape := { int := false, signed := true, mx := false, fmt := bf16, width := 16, group := 4 }
  ((shapeOf e.fmtA).getD d, (shapeOf e.fmtB).getD d)

/-- R254: the cycles of a k-step. -/
def Nest.cycles (e : Nest) : Nat := if e.shapes.1.width = 32 ∨ e.shapes.2.width = 32 then 8 else 4

/-- R497: the runs of a k-step, those that meet data whose check fails first. -/
def Nest.runs (e : Nest) : List (Nat × Nat) :=
  let (g, oa, ob) := nestOperands e.regs e.shapes.1 e.shapes.2
  oa.runs g e.idx ++ ob.runs g e.idx

/-- R254: the tile after a k-step, and whether an element clamped. -/
def kStepTile (s : State) (n : Nat) (e : Nest) : State :=
  let c := slotCore n
  let (a, b) := e.shapes
  let (g, oa, ob) := nestOperands e.regs a b
  let read (r : Nat × Nat) : List Byte := readBytes s.mem (operandKey c r.1) r.2
  let ra := oa.runs g e.idx
  let rb := ob.runs g e.idx
  let gr : Groups := { a := bytesNat (read (ra.getD 0 (0, 0))), b := bytesNat (read (rb.getD 0 (0, 0)))
                       sa := read (ra.getD 1 (0, 0)), sb := read (rb.getD 1 (0, 0)) }
  let t := e.tileAt
  let ts := (s.core c).tiles
  let fresh := e.kind == .mma && e.begins
  let ftz := bit (mreg e.regs 0x36) 0
  let el (i j : Nat) : Nat × Bool := kElem a.int ftz g a b gr i j (if fresh then 0 else (tileWord ts t i j).toNat)
  let clamped := a.int && (upTo 0 8192).any fun k => (el (k / 128) (k % 128)).2
  let s1 := s.modTiles c fun ts => setTile ts t fun i j => BitVec.ofNat 32 (el i j).1
  if clamped then s1.modSlot n ({ · with msat := true }) else s1

/-! ## Tile operations (R266, R267) -/

/-- R266: PRM's permutation. -/
def permRow (p i : Nat) : Nat :=
  match p with
  | 0 => 63 - i
  | 1 => if i < 32 then 2 * i else 2 * (i - 32) + 1
  | 2 => (upTo 0 6).foldl (fun n k => n + b2n (i.testBit k) * 2 ^ (5 - k)) 0
  | _ => i ^^^ 32

/-- R266: one sum of RRED, and whether it clamped. -/
def rredSum (int ftz : Bool) (xs : List Nat) : Nat × Bool :=
  if int then
    let v := xs.foldl (fun a x => a + signedElem 32 x) 0
    let w := max (-(2 ^ 31)) (min (2 ^ 31 - 1) v)
    (wrapElem 32 w, v != w)
  else
    match xs.map fun x => fp32.decode (ftzCode ftz x) with
    | [] => (0, false)
    | v :: vs => (ftzCode ftz (toFp32 (vs.foldl (fun a x => (a.add false x).1) v)), false)

/-- R266, R267: the effect of a tile operation. -/
def tileOp (s : State) (n : Nat) (e : Nest) : State :=
  let c := slotCore n
  let ts := (s.core c).tiles
  let cs := mreg e.regs 0x3B
  let src := fun r l => tileWord ts e.ts r l
  let ty := s.tileType c e.ts
  match e.kind with
  | .trn =>
    let dh := bits cs 1 1
    let sh := bits cs 0 1
    (s.modTiles c fun t => setTile t e.td fun i l =>
      if l / 64 = dh then src (l % 64) (64 * sh + i) else tileWord ts e.td i l).setTypes c [e.td] ty
  | .prm => (s.modTiles c fun t => setTile t e.td fun i l => src (permRow (bits cs 4 2) i) l).setTypes c [e.td] ty
  | .rred =>
    let g := 2 ^ bits cs 8 3
    let int := ty == .int32
    let sum (r l : Nat) : Nat × Bool :=
      rredSum int (bit (mreg e.regs 0x36) 0) ((upTo (g * r) g).map fun i => (src i l).toNat)
    let clamped := int && (upTo 0 (64 / g)).any fun r => (upTo 0 128).any fun l => (sum r l).2
    let s1 := (s.modTiles c fun t => setTile t e.td fun r l =>
      if r < 64 / g then BitVec.ofNat 32 (sum r l).1 else 0).setTypes c [e.td] ty
    if clamped then s1.modSlot n ({ · with msat := true }) else s1
  | .zero => s.modTiles c fun t => e.tiles.foldl (fun t x => setTile t x fun _ _ => 0) t
  | _ => s

def Nest.isOp (e : Nest) : Bool := e.kind == .trn || e.kind == .prm || e.kind == .rred || e.kind == .zero
def Nest.isMm (e : Nest) : Bool := e.kind == .mma || e.kind == .mmac

/-- R266, R267: the cycles that a tile operation holds the array. -/
def Nest.opCycles (e : Nest) : Nat := if e.kind = .zero then 16 else 96

/-! ## Starting and arbitration (R255, R256, R269, R270, R275) -/

def Slot.nest (t : Slot) (id : Nat) : Option Nest := t.nests.find? (·.id == id)
def State.modNest (s : State) (n id : Nat) (f : Nest → Nest) : State :=
  s.modSlot n fun t => { t with nests := t.nests.map fun e => if e.id = id then f e else e }

/-- Whether a retirement of a tile by a nest-queue entry is on the retire port or waits for it. -/
def retiringTile (s : State) (n id tile : Nat) : Bool :=
  (s.core (slotCore n)).port.any fun r => r.slot == n && r.nest == id && r.tile == tile

/-- R255: whether an entry has yet to finish with a tile. -/
def entryHolds (s : State) (n : Nat) (e : Nest) (tile : Nat) : Bool :=
  (!e.worked && e.tiles.contains tile) || retiringTile s n e.id tile

/-- R256: V-stream results in flight to a tile. -/
def rowsInFlight (t : Slot) (tiles : List Nat) : Bool :=
  t.v.pend.any fun p => match p.val with | .row r _ _ => tiles.contains (r / 64) | _ => false

/-- The entries that have started, and the first that has not. -/
def splitNests : List Nest → Option (List Nest × Nest)
  | [] => none
  | e :: es => if e.started then (splitNests es).map fun p => (e :: p.1, p.2) else some ([], e)

/-- R255, R275: the next entry of a slot, where it may start now as far as its tiles go. -/
def nextEntry (s : State) (n : Nat) : Option Nest :=
  let t := s.slot n
  if t.state ≠ .running then none
  else match splitNests t.nests with
    | none => none
    | some (before, e) =>
      if before.any (fun b => e.tiles.any (entryHolds s n b)) ∨ rowsInFlight t e.tiles then none else some e

/-- Whether an entry does its work without the array: an MRET, or an entry that has nothing to do. -/
def Nest.offArray (e : Nest) : Bool :=
  e.kind == .mret || (e.isMm && nestEmpty e.regs) || (e.kind == .zero && e.td == 0)

/-- R275: a nest of a job that stops stands at a retirement point, or has failed: it takes the array no more. -/
def parked (t : Slot) (e : Nest) : Bool := t.state != .running && e.started && (e.failed || (e.isMm && e.begins))

/-- The entry of a slot that wants the array: the one at work, or the next to start. -/
def candidate (s : State) (n : Nat) : Option Nest :=
  let t := s.slot n
  match t.worker with
  | some e => if parked t e then none else some e
  | none => match nextEntry s n with
    | some e => if e.offArray then none else some e
    | none => none

/-- R269: the key of a candidate: saturated first, then the lower class, then the older; a stopping job's nest goes
first (R275). A saturated entry precedes a running nest of its own class too (log 174). -/
def arrayKey (s : State) (n : Nat) (e : Nest) : Nat × Nat :=
  if (s.slot n).state ≠ .running then (0, 0) else (if 255 ≤ e.age then 1 else 2, e.prio)

def keyLt (a b : Nat × Nat) : Bool := decide (a.1 < b.1) || (a.1 == b.1 && decide (a.2 < b.2))

/-- R269, R270: the slot that takes the array: `cur` is the slot whose nest has just run, with whether it stands at a
retirement point. -/
def arrayWinner (s : State) (core : Nat) (cur : Option (Nat × Bool)) : Option Nat :=
  match candidate s (2 * core), candidate s (2 * core + 1) with
  | none, none => none
  | some _, none => some (2 * core)
  | none, some _ => some (2 * core + 1)
  | some e0, some e1 =>
    let k0 := arrayKey s (2 * core) e0
    let k1 := arrayKey s (2 * core + 1) e1
    if keyLt k0 k1 then some (2 * core)
    else if keyLt k1 k0 then some (2 * core + 1)
    else match cur with
      | some (n, point) => some (if point then 4 * core + 1 - n else n)
      | none => some (if e1.issued < e0.issued then 2 * core + 1 else 2 * core)

/-- R206, R254: an entry takes the array: it starts, or goes on. -/
def giveArray (s : State) (core n : Nat) : State :=
  match candidate s n with
  | none => s
  | some e =>
    let s1 := if e.isMm ∧ !e.started then s.setTypes core e.tiles (ctypeOf e.regs) else s
    (s1.modNest n e.id ({ · with started := true, overtaken := false, stepAt := s.tick })).modCore core
      ({ · with arrayBy := some n })

/-- R269: the array is given to the winner, or left idle; the nest that had it is overtaken. -/
def arbitrate (s : State) (core : Nat) (cur : Option (Nat × Bool)) : State :=
  match arrayWinner s core cur with
  | none => s.modCore core ({ · with arrayBy := none })
  | some n =>
    let s1 := match cur with
      | some (m, _) => if m = n then s else s.modSlot m fun t =>
          { t with nests := t.nests.map fun e => if e.started ∧ !e.worked then { e with overtaken := true } else e }
      | none => s
    giveArray s1 core n

/-- R259: a retirement goes to the retire port, behind those that are there. -/
def toPort (s : State) (r : Retire) : State :=
  s.modCore (slotCore r.slot) fun c =>
    { c with port := c.port ++ [{ r with since := if c.port = [] then some s.tick else none }] }

/-- An entry that needs no array starts. -/
def startOffArray (s : State) (n : Nat) (e : Nest) : State :=
  let s1 := s.modNest n e.id ({ · with started := true, worked := true })
  if e.kind = .mret then toPort s1 { slot := n, nest := e.id, tile := e.td, n := 0 } else s1

/-- R255: NEST_START: the entries that need no array go first; the array is given when it is idle. -/
def execNestStart (core : Nat) (s : State) : Host.Outcome State Fault Refusal :=
  let off (n : Nat) : Option Nest := (nextEntry s n).filter (·.offArray)
  match off (2 * core), off (2 * core + 1) with
  | some e, _ => .next (startOffArray s (2 * core) e)
  | none, some e => .next (startOffArray s (2 * core + 1) e)
  | none, none => if (s.core core).arrayBy = none then .next (arbitrate s core none) else .next s

/-! ## The k-step event (R254, R269, R270, R498) -/

/-- R498: the first operand slot of a k-step whose data fails its check. -/
def badSlot (s : State) (n : Nat) (e : Nest) : Option Nat :=
  (e.runs.find? fun r => touchesPoison s (opPiece (slotCore n) r)).map fun r => r.1 / 32768

/-- R498, R499: a k-step reads bad data: the slot's source record runs again, or the consumption is uncontained. -/
def refetchSlot (s : State) (n : Nat) (e : Nest) (k : Nat) : State :=
  let t := s.slot n
  let o := sget t.oslots {} k
  let bad (sub : Nat) : State :=
    let s1 := asyncFault (s.modNest n e.id ({ · with failed := true })) n t.launch
      (engineRecord s n 5 e.cmdidx (BitVec.ofNat 64 sub) 0 Code.uncontained)
    arbitrate s1 (slotCore n) none
  if o.state ≠ .claimed then bad 1
  else match o.src with
    | none => bad 4
    | some cmd =>
      if 2 ≤ o.cancels then bad 3
      else
        let redo : Cmd := { cmd with id := s.cmdCount, started := false, units := [], bytes := 0, failed := false, again := true }
        let s1 := { s with cmdCount := s.cmdCount + 1 }.modSlot n fun t =>
          { t with cq := redo :: t.cq, oslots := sput t.oslots k { o with cancels := o.cancels + 1 } }
        reportFault (s1.modNest n e.id ({ · with refetch := some redo.id })) t.launch
          { engineRecord s n 5 e.cmdidx 2 0 Code.uncorrectable with statusOnly := true }

/-- Whether the source record that a k-step waits for still runs. -/
def refetching (t : Slot) (e : Nest) : Bool :=
  match e.refetch with
  | some id => t.cq.any (·.id == id)
  | none => false

/-- R254: the nest moves past a k-step: its retirement point, its next indices. -/
def afterStep (s : State) (n : Nat) (e : Nest) : State :=
  let point := e.atPoint
  let auto := point && bit (mreg e.regs 0x37) 0
  let s1 := if point then s.modSlot n fun t => { t with mretired := t.mretired + 1 } else s
  let s2 := if auto then toPort s1 { slot := n, nest := e.id, tile := e.tileAt, n := e.retired } else s1
  s2.modNest n e.id fun e =>
    let e1 := { e with retired := e.retired + b2n auto, stepAt := s.tick, refetch := none }
    match nextIdx (lvlCount e.regs) 6 0 e.idx with
    | some l => { e1 with idx := l }
    | none => { e1 with worked := true }

/-- R254: KSTEP. A k-step that begins a reduction waits for the retirements of its tile. -/
def execKstep (core : Nat) (s : State) : Host.Outcome State Fault Refusal :=
  match (s.core core).arrayBy with
  | none => .next s
  | some n =>
    match (s.slot n).worker with
    | none => .next s
    | some e =>
      if !e.isMm then .next s
      else if e.begins ∧ (s.core core).port.any (fun r => r.slot == n && r.tile == e.tileAt) then
        .next (s.modNest n e.id ({ · with stepAt := s.tick }))
      else if s.tick < e.stepAt + e.cycles ∨ refetching (s.slot n) e then .next s
      else match badSlot s n e with
        | some k => .next (refetchSlot s n e k)
        | none =>
          let s1 := afterStep (kStepTile s n e) n e
          .next (arbitrate s1 core (some (n, e.atPoint)))

/-- R266, R267: TILE_OP_COMPLETE. -/
def execTileOpComplete (core : Nat) (s : State) : Host.Outcome State Fault Refusal :=
  match (s.core core).arrayBy with
  | none => .next s
  | some n =>
    match (s.slot n).worker with
    | none => .next s
    | some e =>
      if !e.isOp ∨ s.tick < e.stepAt + e.opCycles then .next s
      else .next (arbitrate ((tileOp s n e).modNest n e.id ({ · with worked := true })) core none)

/-! ## Retirement (R259, R263) -/

/-- R263: Convert. A word is read as FP32, that of a 16-bit tile too (log 173). -/
def convertWord (cvt : Nat) (w : BitVec 32) : Nat :=
  ((if cvt = 1 then bf16 else fp16).round .rne false (fp32.decode w.toNat)).1

/-- R263: the bytes of a SCRATCH retirement. -/
def retireBytes (s : State) (c tile cvt : Nat) : List Byte :=
  let ts := (s.core c).tiles
  (upTo 0 8192).foldr (fun i l =>
    let w := tileWord ts tile (i / 128) (i % 128)
    (if cvt = 0 then natBytes 4 w.toNat else natBytes 2 (convertWord cvt w)) ++ l) []

/-- R263: SCRATCH: the bytes, then the full bits of the lines of spaces 0x8 and 0x9. -/
def retireScratch (s : State) (n : Nat) (m : MRegs) (r : Retire) : Except Trap State :=
  let a := retAddr m r.n
  let bs := retireBytes s (slotCore n) r.tile (retCvt m)
  match resolve s (slotReq s n) .w a a bs.length with
  | .error t => .error t
  | .ok ps =>
    let s1 := writePieces (walked s (slotReq s n) a.toNat bs.length) (slotReq s n) ps bs
    .ok (if lineSpace a then ps.foldl (fun s p => setFullLines s (padCore p.key) (unitsOf 128 (padOff p.key) p.len)) s1 else s1)

/-- R263: WINDOW. -/
def retireWindow (s : State) (c : Nat) (m : MRegs) (tile : Nat) : State :=
  if retCvt m = 0 then s
  else
    let ts := (s.core c).tiles
    (s.modTiles c fun t => setTile t tile fun r l =>
      if l < 64 then BitVec.ofNat 32 (convertWord (retCvt m) (tileWord ts tile r (2 * l)) +
        65536 * convertWord (retCvt m) (tileWord ts tile r (2 * l + 1)))
      else 0).setTypes c [tile] (cvtType (retCvt m))

/-- R263, R265: the buckets of a REDUCE retirement; in one-bit mode the error memory, in space 0x0 or 0x8, is written first. -/
def retireBuckets (s : State) (n : Nat) (r : Retire) (d : Desc) : Except Trap (State × List (List Byte)) :=
  let ts := (s.core (slotCore n)).tiles
  let row (i : Nat) : List Nat := (upTo 0 128).map fun l => (tileWord ts r.tile i l).toNat
  match d.mode with
  | 0 => .ok (s, (upTo 0 64).map fun i => fp32Bucket (row i) 64)
  | 1 => .ok (s, (upTo 0 64).map fun i => exrBucket (row i) d.scale 64)
  | 2 =>
    let err : Word := BitVec.ofNat 64 (d.errmem + 32768 * r.n)
    if err.toNat / 2 ^ 60 ≠ 0 ∧ err.toNat / 2 ^ 60 ≠ 8 then .error (trapOf Code.space 0 err)
    else if readsEmpty s (slotReq s n) err 32768 then .error (trapOf 0 4 err)
    else (match fetchAll s (slotReq s n) err 32768 with
     | .error t => .error t
     | .ok (s, bs, _) =>
       let es (i : Nat) : List Nat := (upTo 0 128).map fun l => recNat bs (512 * i + 4 * l) 4
       let out := (upTo 0 64).map fun i => oneBit (row i) (es i) 64
       match storeAll s (slotReq s n) err (numsBytes 4 ((out.map (·.2)).foldr (· ++ ·) [])) with
       | .error t => .error t
       | .ok s1 => .ok (s1, out.map (·.1)))
  | _ => .ok (s, [])

/-- R263: a REDUCE retirement enters FQ as one collective on GROUP, under the command index of its entry. -/
def handOff (s : State) (n : Nat) (e : Nest) (r : Retire) (d : List Byte) (bs : List (List Byte)) : State :=
  let cmd : Cmd := { id := s.cmdCount, cw := 0, opa := mreg e.regs 0x38, opb := BitVec.ofNat 64 (bits (mreg e.regs 0x39) 48 16),
                     op := 0x2B, fn := 3, cmdidx := e.cmdidx, handoff := some { nest := e.id, n := r.n, desc := d, buckets := bs } }
  ({ s with cmdCount := s.cmdCount + 1 }.modSlot n fun t => { t with fq := t.fq ++ [cmd] }).modNest n e.id
    fun e => { e with reducing := e.reducing ++ [r.n] }

/-- R255: the port goes to the next retirement. -/
def freePort (s : State) (core : Nat) : State :=
  s.modCore core fun c => { c with port := match c.port with
    | _ :: r :: t => { r with since := some s.tick } :: t
    | _ => [] }

/-- R259: the signal of a retirement that ends; an overflow is the entry's fault. -/
def retireSignal (s : State) (n : Nat) (e : Nest) : State :=
  let f := mreg e.regs 0x39
  if !bit f 23 then s
  else match (s.slot n).addSem (bits f 16 6) 1 with
    | some t => engineSem (s.setSlot n t) n
    | none => asyncFault s n (s.slot n).launch (engineRecord s n 5 e.cmdidx 0 0 Code.semOverflow)

/-- A retirement that faults while it runs (R201, R262). -/
def retireFails (s : State) (n : Nat) (e : Nest) (t : Trap) : State :=
  asyncFault s n (s.slot n).launch (engineRecord s n 5 e.cmdidx t.sub t.faddr t.code)

/-- R263: a REDUCE retirement leaves the port: it waits while FQ is full, unless FQ starts nothing more (R200), and, as every read,
while a line that it reads is empty (R349). -/
def retireReduce (s : State) (core n : Nat) (e : Nest) (r : Retire) : State :=
  let t := s.slot n
  if (32 ≤ t.fq.length ∧ t.state ≠ .trapped ∧ !t.fq.any (·.failed)) ∨ readsEmpty s (slotReq s n) (mreg e.regs 0x38) 64 then s
  else
    match fetchAll s (slotReq s n) (mreg e.regs 0x38) 64 with
    | .error t => if t.code = 0 then s else retireFails (freePort s core) n e t
    | .ok (s0, bs, _) =>
      match retireBuckets s0 n r (descOf bs) with
      | .error t => if t.code = 0 then s else retireFails (freePort s0 core) n e t
      | .ok (s1, b) => handOff (freePort s1 core) n e r bs b

/-- R259: RETIREMENT_COMPLETE: the retirement on the port has had its 96 cycles. A REDUCE retirement that has been
handed off ends when its status word is written (`endReduce`). -/
def execRetirementComplete (core : Nat) (s : State) : Host.Outcome State Fault Refusal :=
  match (s.core core).port with
  | [] => .next s
  | r :: _ =>
    match r.since, (s.slot r.slot).nest r.nest with
    | some t0, some e =>
      if s.tick < t0 + 96 then .next s
      else
        let n := r.slot
        (match retDest e.regs with
         | 0 => (match retireScratch s n e.regs r with
           | .error t => if t.code = 0 then .next s else .next (retireFails (freePort s core) n e t)
           | .ok s1 => .next (retireSignal (freePort s1 core) n e))
         | 1 => .next (retireSignal (freePort (retireWindow s core e.regs r.tile) core) n e)
         | _ => .next (retireReduce s core n e r))
    | _, _ => .next (freePort s core)

/-- R259, R263: the collective of a REDUCE retirement has written its status word. -/
def endReduce (s : State) (n : Nat) (h : Handoff) : State :=
  match (s.slot n).nest h.nest with
  | none => s
  | some e => retireSignal (s.modNest n e.id fun e => { e with reducing := e.reducing.filter (· != h.n) }) n e

/-! ## Completion (R247, R255) -/

/-- Whether an entry has done all its work and its retirements have ended. -/
def entryDone (s : State) (n : Nat) (e : Nest) : Bool :=
  e.worked && e.reducing == [] && !(s.core (slotCore n)).port.any fun r => r.slot == n && r.nest == e.id

/-- R247: one entry fewer for each RELEASING slot to wait for. -/
def releaseOslots (m : Sparse OSlot) : Sparse OSlot :=
  m.map fun e =>
    if e.2.state = .releasing then (e.1, if e.2.waitFor ≤ 1 then {} else { e.2 with waitFor := e.2.waitFor - 1 }) else e

/-- R255: NEST_ENTRY_COMPLETE: entries complete in issue order. -/
def execNestEntryComplete (slot : Nat) (s : State) : Host.Outcome State Fault Refusal :=
  match (s.slot slot).nests with
  | [] => .next s
  | e :: es =>
    if entryDone s slot e then .next (s.modSlot slot fun t => { t with nests := es, oslots := releaseOslots t.oslots })
    else .next s

/-- R269: an entry's age counts 1 µs ticks and saturates at 255. -/
def ageNests (s : State) : State :=
  ageTick s 1 fun s =>
    { s with slots := s.slots.map fun e => (e.1, { e.2 with nests := e.2.nests.map fun q => { q with age := min 255 (q.age + 1) } }) }

/-- R269: NEST_AGE_TICK. -/
def execNestAgeTick (s : State) : Host.Outcome State Fault Refusal := .next (ageNests s)

end Sys2Proof.Machine
end

