-- ==== Sys2Proof/Machine/Governor.lean ====
section
/-!
DEFINITION. The load-step governor (chapter 13): its limits (R393, R394), the ramp slots that admission takes (R396 to R399), and
the ballast of each cycle (R395, R404 to R406).
-/

namespace Sys2Proof.Machine

/-! ## Limits (R393, R394) -/

/-- R394: the budget of a ramp slot, in mW. -/
def Gov.budget (g : Gov) : Nat := g.rise * 256000 / 850

/-- R394: the fall step of a cycle, in units of 1/1024 mW. -/
def Gov.fallStep (g : Gov) : Nat := g.fall * 1000 * 1024 / 850

def inLimits (n : Nat) : Bool := decide (50 ≤ n) && decide (n ≤ 2000)

/-- R393: only the management plane writes GOV.LIMITS; a write out of range sets REJECT. It waits through a switch of
the governor controller, or of the management controller (R523, R527). -/
def execGovLimitsWrite (m : Master) (d : Word) (s : State) : Host.Outcome State Fault Refusal :=
  if !hedgeMaster m ∨ !barWritable s m 0x160000 then .next s
  else if classPaused s 3 ∨ mgmtWaits s m then .next s.stall
  else
    let rise := bits d 0 11
    let fall := bits d 16 11
    let g := s.gov
    let g1 := if inLimits rise && inLimits fall then { g with rise := rise, fall := fall, reject := g.reject && !bit d 32 }
              else { g with reject := true }
    .next { s with gov := g1 }

/-! ## Ramp slots (R396 to R399, R403) -/

/-- R396: the power that a start is charged. -/
def rampPower (cls : Nat) : Nat := match cls with | 0 => 250 | 1 => 800 | 2 => 1600 | _ => 2000

def reservedIn (g : Gov) (n : Nat) : Nat := sget g.reserved 0 n

/-- R398: whether a ramp slot has room for a start of power `p`. -/
def Gov.room (g : Gov) (n p : Nat) : Bool := decide (reservedIn g n + p ≤ g.budget)

/-- The first ramp slot from `n` on with room; `fuel` slots are tried. -/
def Gov.firstRoom (g : Gov) (p : Nat) : Nat → Nat → Nat
  | 0, n => n
  | fuel + 1, n => if g.room n p then n else g.firstRoom p fuel (n + 1)

/-- Every reserved slot may be full; one that is not reserved has room (R394, R396). -/
def Gov.slotFrom (g : Gov) (n p : Nat) : Nat := g.firstRoom p (g.reserved.length + 1) n

/-- R398: one start takes its budget in a slot; the cycle at which it is ready. -/
def Gov.take (g : Gov) (n p : Nat) : Gov × Nat :=
  let u := reservedIn g n
  ({ g with reserved := sput g.reserved n (u + p) }, 256 * n + 256 * u / g.budget)

/-- R398: the starts of a launch, from slot `n` on. -/
def Gov.assign (g : Gov) (p : Nat) : Nat → Nat → Gov × List (Nat × Nat)
  | 0, _ => (g, [])
  | j + 1, n =>
    let m := g.slotFrom n p
    let (g1, cycle) := g.take m p
    let (g2, rest) := Gov.assign g1 p j m
    (g2, (m, cycle) :: rest)

/-- R403: the reservations of a launch are released. -/
def Gov.release (g : Gov) (p : Nat) (l : List (Nat × Nat)) : Gov :=
  { g with reserved := l.foldl (fun r e => sput r e.1 (sget r 0 e.1 - p)) g.reserved }

/-- R398: the starts that a launch makes at admission: RAMPFIRST and RAMPSLOTS, the list, and the governor after. -/
def rampAssign (s : State) (p jobs : Nat) : Gov × List (Nat × Nat) := s.gov.assign p (min jobs 3072) (s.tick / 256 + 1)

def rampSpan (l : List (Nat × Nat)) : Nat × Nat :=
  match l with
  | [] => (0, 0)
  | (a, _) :: t => (a, (t.getLast?.map (·.1)).getD a - a + 1)

/-- R399: a start that admission has not assigned takes its budget now: its slot and the cycle at which it is ready. -/
def rampNow (s : State) (p : Nat) : State × Nat × Nat :=
  let n := s.gov.slotFrom (s.tick / 256) p
  let (g, cycle) := s.gov.take n p
  ({ s with gov := g }, n, max cycle s.tick)

/-! ## Estimates (R395) -/

def actPower (kind : Nat) : Nat :=
  match kind with
  | 0 => 25 | 1 => 25 | 2 => 1500 | 3 => 1900 | 4 => 600 | _ => 150

/-- R395: a core's estimate in a cycle. -/
def Core.estimate (c : Core) (tick : Nat) : Nat :=
  min 2000 (c.acts.foldl (fun e a => if tick < a.2 + 16 then e + actPower a.1 else e) 100)

/-- The units of a core that are at work without a bundle: those of its commands, entries and retirements; and, under Coppice's
scan, those that the scan's patterns run on (R482; log 145). -/
def unitsAtWork (s : State) (c : Nat) : List Nat :=
  let k := s.core c
  let cmds (fq : Bool) : Bool := [2 * c, 2 * c + 1].any fun n => ((s.slot n).cmds fq).any fun x => x.started && !x.failed
  let array := match k.arrayBy.bind fun n => (s.slot n).worker with
    | some e => if e.isOp then [4]
      else if (e.begins && k.port.any (fun r => r.tile == e.tileAt)) || refetching ((k.arrayBy.map s.slot).getD {}) e then [] else [3]
    | none => []
  if k.scanning.isSome then [0, 2, 3, 5, 6]
  else array ++ (if k.port = [] then [] else [4]) ++ (if cmds false then [5] else []) ++ (if cmds true then [6] else [])

/-- The cores that hold anything: those listed, and those of the listed job slots. -/
def busyCores (s : State) : List Nat :=
  s.slots.foldl (fun l e => if e.1 < 3072 then insertNat l (e.1 / 2) else l) (s.cores.map (·.1))

/-- R395: the estimates of a cycle. -/
def estimateAll (s : State) (cs : List Nat) : State :=
  cs.foldl (fun s c =>
    let s1 := (unitsAtWork s c).foldl (fun s k => noteAct s c k) s
    s1.modCore c fun k => { k with estPrev := k.est, est := k.estimate s.tick }) s

/-! ## Ballast (R404) -/

/-- A rise takes from the core's own entries, newest first (the list is given newest first). -/
def cutNewest (core : Nat) : Nat → List (Nat × Nat) → List (Nat × Nat)
  | _, [] => []
  | d, (c, a) :: t =>
    if c ≠ core ∨ d = 0 then (c, a) :: cutNewest core d t
    else if a ≤ d then cutNewest core (d - a) t
    else (c, a - d) :: cutNewest core 0 t

/-- The fall step takes from the oldest entries first. -/
def spendOldest : Nat → List (Nat × Nat) → List (Nat × Nat)
  | _, [] => []
  | r, (c, a) :: t => if a ≤ r then spendOldest (r - a) t else (c, a - r) :: t

/-- R404: the list after a core's change of estimate. -/
def ballastCore (s : State) (l : List (Nat × Nat)) (c : Nat) : List (Nat × Nat) :=
  let k := s.core c
  if k.est < k.estPrev then l ++ [(c, 1024 * (k.estPrev - k.est))]
  else if k.estPrev < k.est then (cutNewest c (1024 * (k.est - k.estPrev)) l.reverse).reverse
  else l

/-- R404, R406: one cycle; TICK advances. -/
def execBallastStep (s : State) : Host.Outcome State Fault Refusal :=
  let cs := busyCores s
  let s1 := estimateAll s cs
  let l := spendOldest s1.gov.fallStep (cs.foldl (ballastCore s1) s1.gov.ballast)
  let s2 := { s1 with gov := { s1.gov with ballast := l } }
  let s3 := (l.foldl (fun cs e => insertNat cs e.1) []).foldl (fun s c => s.modCore c fun k => { k with ballast := k.ballast + 1 }) s2
  .next { s3 with tick := s3.tick + 1 }

end Sys2Proof.Machine
end

