-- ==== Sys2Proof/Machine/Tasks.lean ====
section
/-!
DEFINITION. The task queue (chapter 09): instances and placement (R297 to R299, R309), continuation records and their banks (R300 to
R302, R306, R307), pops (R308, R312, R313), TASKADD, TASKJOIN and TASKGET (R154, R155), pre-emption (R316) and the queue's
registers (R311, R317).
-/

namespace Sys2Proof.Machine

/-! ## Code objects (R76, R78) -/

/-- The loaded header of a code object, as a unit class reads it. -/
def readHeader (s : State) (cls ctx : Nat) (code : Word) : Except Trap (List Byte) :=
  (loadAll s (engineReq cls ctx) code 256).map (·.1)

/-- R335, R343: what such a read does to the L2; and the read of a list of a code object, unless it is empty. -/
def headerRead (s : State) (cls ctx : Nat) (code : Word) : State := readied s (engineReq cls ctx) code 256
def listRead (s : State) (cls ctx : Nat) (a : Word) (n : Nat) : State := if n = 0 then s else readied s (engineReq cls ctx) a n

def isUzo (h : List Byte) : Bool := recNat h 0 4 == 0x314F5A55
def hdrTiles (h : List Byte) : Nat := recNat h 120 1 % 16
def hdrOslots (h : List Byte) : Nat := recNat h 122 2
def hdrRings (h : List Byte) : Nat := recNat h 124 2
def hdrPorts (h : List Byte) : Nat := recNat h 126 1

/-- R312: the quota in bytes, rounded up to 64 KiB. -/
def hdrQuota (h : List Byte) : Nat := (recNat h 128 4 * 1024 + 65535) / 65536 * 65536

/-- The address and the size of a section. -/
def hdrSect (h : List Byte) (i : Nat) : Word × Nat := (BitVec.ofNat 64 (recNat h (24 + 16 * i) 8), recNat h (32 + 16 * i) 8)

/-! ## Instances (R298, R299) -/

def instCount (d : Nat) : Nat :=
  match d with | 0 => 1 | 1 => 8 | 2 => 16 | 3 => 64 | 4 => 1536 | _ => 3072

/-- The instance of a domain that a job slot lies in. -/
def slotInst (d n : Nat) : Nat := n / (3072 / instCount d)

/-- PLACE and AFFINITY: a domain code and an instance. -/
def placeWord' (d i : Nat) : Word := BitVec.ofNat 64 (i * 65536 + d)
def inPlace (w : Word) (n : Nat) : Bool := slotInst (bits w 0 8) n == bits w 16 16

/-- R297: the instance that a level node, given by its path, is bound to. -/
def bindPath (l : Launch) : List Nat → Nat
  | [] => match l.levels with
    | [] => 0
    | v :: _ => l.launchid.toNat % instCount v.domain
  | p => (p.foldl (fun (acc : Nat × Nat) c =>
      let up := (l.levels.getD acc.1 ⟨0, 0, 1⟩).domain
      let dn := (l.levels.getD (acc.1 + 1) ⟨0, 0, 1⟩).domain
      let k := Nat.max 1 (instCount dn / instCount up)
      (acc.1 + 1, acc.2 * k + (c + l.launchid.toNat) % k))
      (0, match l.levels with | [] => 0 | v :: _ => l.launchid.toNat % instCount v.domain)).2

/-! ## The hierarchy (R292, R303) -/

def Launch.jobs (l : Launch) : Nat := l.levels.foldl (fun n e => n * e.fanout) 1

/-- The level indices of a leaf ordinal. -/
def leafPath : List Level → Nat → List Nat
  | [], _ => []
  | _ :: ls, n =>
    let below := ls.foldl (fun k e => k * e.fanout) 1
    n / below :: leafPath ls (n % below)

/-- R299: a leaf's placement: the instance of its parent. -/
def leafPlace (l : Launch) (leaf : Nat) : Word :=
  placeWord' ((l.levels.getLast?.map (·.domain)).getD 0) (bindPath l ((leafPath l.levels leaf).dropLast))

/-! ## Records (R300, R301) -/

def recOf (bs : List Byte) : TaskRec :=
  let w (o : Nat) : Word := BitVec.ofNat 64 (recNat bs o 8)
  let f := recNat bs 31 1
  { code := w 0, frame := w 8, join := w 16, key := BitVec.ofNat 32 (recNat bs 24 4), kind := recNat bs 28 1
    prio := recNat bs 29 1 % 4, affkind := recNat bs 30 1, affinity := w 32, place := w 40
    resume := f.testBit 0, waitjoin := f.testBit 1, leafv := f.testBit 2, waiton := w 48
    launchid := BitVec.ofNat 32 (recNat bs 56 4), leaf := BitVec.ofNat 32 (recNat bs 60 4) }

def TaskRec.bytes (r : TaskRec) : List Byte :=
  natBytes 8 r.code.toNat ++ natBytes 8 r.frame.toNat ++ natBytes 8 r.join.toNat ++ natBytes 4 r.key.toNat ++
  natBytes 1 r.kind ++ natBytes 1 r.prio ++ natBytes 1 r.affkind ++
  natBytes 1 (b2n r.resume + 2 * b2n r.waitjoin + 4 * b2n r.leafv) ++ natBytes 8 r.affinity.toNat ++
  natBytes 8 r.place.toNat ++ natBytes 8 r.waiton.toNat ++ natBytes 4 r.launchid.toNat ++ natBytes 4 r.leaf.toNat

/-- R301: what TASKADD rejects in the record itself. -/
def recBad (bs : List Byte) : Bool :=
  let r := recOf bs
  decide (1 < r.kind) || decide (2 < r.affkind) || recNat bs 31 1 / 8 != 0 || recNat bs 29 1 / 4 != 0 ||
    (r.kind == 0 && r.join.toNat % 8 != 0) || (r.waitjoin && r.waiton.toNat % 8 != 0)

/-! ## Banks and the spill region (R306, R307) -/

def TaskRec.bank (r : TaskRec) : Nat := (r.key.toNat + r.launchid.toNat) % 8
def bankCount (s : State) (b : Nat) : Nat := (s.tq.records.filter fun e => !e.2.spilled && e.2.bank == b).length
def heldCount (s : State) : Nat := (s.tq.records.filter fun e => !e.2.spilled && e.2.held).length
def spilledCount (s : State) : Nat := (s.tq.records.filter fun e => e.2.spilled).length

/-- R317: the records that the spill region holds. -/
def spillSize (t : TaskQ) : Nat :=
  let n := bits t.spillbase 0 5
  if 16 ≤ n ∧ n ≤ 24 then 2 ^ n else 0

/-- Whether a record has no place on chip. -/
def mustSpill (s : State) (r : TaskRec) : Bool :=
  decide (16384 ≤ bankCount s r.bank) || (r.held && decide (4096 ≤ heldCount s))

/-- R307, R317: the first free place of the spill region, and the bytes of memory that it stands for. -/
def spillPlace (s : State) : Nat :=
  ((upTo 0 (spilledCount s + 1)).find? fun i => !s.tq.records.any fun e => e.2.spilled && e.2.spillAt == i).getD 0

def spillPiece (t : TaskQ) (i : Nat) : Piece := { key := bits t.spillbase 12 52 * 4096 + 64 * i, len := 64, attr := 2 }

/-- R307: a spilled record's bytes are written to its place in the spill region (log 77). -/
def spillWrite (s : State) (r : TaskRec) (i : Nat) : State :=
  let p := spillPiece s.tq i
  if !isHbm p.key then s
  else if !chanReady s p.key 64 then s.stall
  else writePieces s (engineReq 4 r.ctx) [p] r.bytes

/-- R306, R307: a record enters the queue, on chip or spilled; none where the spill region would overflow. -/
def enqueue (s : State) (r : TaskRec) : Option State :=
  let sp := mustSpill s r
  let i := if sp then spillPlace s else 0
  if sp ∧ spillSize s.tq ≤ spilledCount s then none
  else
    let s1 := if sp then spillWrite s r i else s
    some { s1 with tq := { s1.tq with
      records := sput s1.tq.records s1.tq.nextRec { r with spilled := sp, spillAt := i }, nextRec := s1.tq.nextRec + 1 } }

def State.modRec (s : State) (id : Nat) (f : TaskRec → TaskRec) : State :=
  match sfind s.tq.records id with
  | some r => { s with tq := { s.tq with records := sput s.tq.records id (f r) } }
  | none => s

/-- R464: a record becomes ready; KILL writes the class that it had then. -/
def TaskRec.nowReady (r : TaskRec) : TaskRec := { r with ready := true, age := 0, prioAt := if r.resume then r.prioAt else r.prio }

/-- R399: a record would become ready: a WORK record is; a JOB record takes its ramp budget, and is when its cycle
comes. -/
def readyNow (s : State) (id : Nat) : State :=
  match sfind s.tq.records id with
  | none => s
  | some r =>
    if r.kind = 1 then s.modRec id fun r => { r with held := false, readyAt := s.tick, fitAt := s.tick }.nowReady
    else
      let p := rampPower ((s.launch r.launch).map (·.rampclass) |>.getD 0)
      let (s1, n, cycle) := rampNow s p
      s1.modRec id fun r =>
        { r.nowReady with held := false, ready := decide (cycle ≤ s.tick), readyAt := cycle, fitAt := cycle, rampN := n }

/-- R302: the records held on a counter become ready. -/
def wakeHeld (s : State) (key : Nat) : State :=
  (s.tq.records.filter fun e => e.2.held && e.2.waitKey == key).foldl (fun s e => readyNow s e.1) s

/-- The record with the smallest KEY. -/
def smallestKey : List (Nat × TaskRec) → Option (Nat × TaskRec)
  | [] => none
  | e :: t => match smallestKey t with
    | none => some e
    | some f => if f.2.key.toNat < e.2.key.toNat then some f else some e

/-- R307: SPILL_REFILL: of the spilled records of a bank that there is room for, the one with the smallest KEY moves on chip. -/
def execSpillRefill (bank : Nat) (s : State) : Host.Outcome State Fault Refusal :=
  match smallestKey (s.tq.records.filter fun e => e.2.spilled && e.2.bank == bank && !mustSpill s e.2) with
  | none => .next s
  | some (id, _) => .next (s.modRec id ({ · with spilled := false, spillAt := 0 }))

/-! ## Counters (R155, R303) -/

/-- R155: a counter that has come down to 0 makes its continuation ready. -/
def wokenBy (s : State) (ps : List Piece) (old new : Nat) : State :=
  if old ≠ 0 ∧ new = 0 then wakeHeld s ((ps.head?.map (·.key)).getD 0) else s

/-- R155: takes `v` from the counter at an address; the new value, or all ones where it holds less. -/
def takeFrom (s : State) (r : Req) (ps : List Piece) (old : Nat) (v : Nat) : State × Word :=
  if old < v then (l2Uses s ps, BitVec.allOnes 64)
  else
    (wokenBy (writePieces s r ps (natBytes 8 (old - v))) ps old (old - v), BitVec.ofNat 64 (old - v))

/-- R155: TASKJOIN. -/
def execTaskjoin (h : Hd) (d a b : BitVec 5) (s : State) : Host.Outcome State Fault Refusal :=
  runGuarded s (.taskjoin h d a b) fun s =>
    let addr := s.readX a
    if addr.toNat % 8 ≠ 0 then .trap (trapOf Code.misalign 0 addr)
    else readEff s (myReq s) addr 8 .rw fun ps bs =>
      let old := bytesNat bs
      let x := (s.readX b).toNat
      match (myReq s).ctl with
      | none => let (s1, v) := takeFrom (walked s (myReq s) addr.toNat 8) (myReq s) ps old x; .ok (s1.writeX d v 4)
      | some cn =>
        if old < x then .ok (s.writeX d (BitVec.allOnes 64) 4)
        else match ctlWrite s cn addr (natBytes 8 (old - x)) with
          | .ok s1 => .ok ((wokenBy s1 ps old (old - x)).writeX d (BitVec.ofNat 64 (old - x)) 4)
          | .error t => .trap t

/-! ## TASKADD (R154, R301, R302, R465) -/

/-- The launch of a LAUNCHID that firmware names (R465). -/
def launchById (s : State) (id : BitVec 32) : Option Launch := (s.launches.find? fun e => e.2.launchid == id).map (·.2)

/-- R301: an accepted record as it is queued: a job's own, or one that firmware adds back as it stands (R465). -/
def ownRec (l : Launch) (t : Slot) (fw : Bool) (r : TaskRec) : TaskRec :=
  if fw then { r with launch := l.id, ctx := l.ctx }
  else { r with launchid := l.launchid, launch := l.id, ctx := t.ctx, place := t.job.place
                prio := max r.prio l.prio, resume := false, leafv := false, leaf := 0 }

/-- R129: the mark of a counter whose line is empty: the TASKADD that reads it waits. -/
def emptyLine (addr : Word) : Trap := trapOf 0 4 addr

/-- R129, R302: the counter that a record is held on, and what it holds now; none where it is not to be held. -/
def waitCounter (s : State) (r : TaskRec) : Except Trap (Option Nat) :=
  if !r.waitjoin then .ok none
  else match resolveAccess s (myReq s) .r r.waiton r.waiton 8 with
    | .error t => .error t
    | .ok ps => if ps.any (touchesEmpty s) then .error (emptyLine r.waiton)
      else .ok (if bytesNat (piecesBytes s ps) = 0 then none else ps.head?.map (·.key))

/-- R301: the checks of one record, and the record as it is queued. -/
def acceptRec (s : State) (bs : List Byte) : Except Trap TaskRec :=
  let fw := !isJob s.me.slot
  let r := recOf bs
  let bad : Trap := trapOf Code.illegalOp 0x0D
  let owner := if fw then launchById s r.launchid else s.launch s.mySlot.launch
  match recBad bs, owner with
  | false, some l =>
    let q := ownRec l s.mySlot fw r
    let code : Except Trap Bool := if r.kind = 0 then
        (match loadAll s { cls := 0, ctx := q.ctx } r.code 256 with
         | .error t => .error { t with faddr := r.code }
         | .ok (h, _) => .ok (isUzo h))
      else .ok true
    (match code with
     | .error t => .error t
     | .ok false => .error bad
     | .ok true => (waitCounter s r).map fun k =>
       match k with
       | some key => { q with held := true, waitKey := key }
       | none => q)
  | _, _ => .error bad

def acceptAll (s : State) : List (List Byte) → Except Trap (List TaskRec)
  | [] => .ok []
  | b :: bs => match acceptRec s b with
    | .error t => .error t
    | .ok r => (acceptAll s bs).map (r :: ·)

/-- The records enter the queue together; none where one would overflow the spill region. -/
def addRecs (s : State) : List TaskRec → Option State
  | [] => some s
  | r :: rs =>
    match enqueue s r with
    | none => none
    | some s1 =>
      let s2 := if r.held then s1 else readyNow s1 s.tq.nextRec
      addRecs (if r.kind = 0 ∧ isJob s.me.slot then s2.modLaunch r.launch (fun l => { l with added := l.added + 1 }) else s2) rs

def chunks64 : Nat → List Byte → List (List Byte)
  | 0, _ => []
  | n + 1, bs => bs.take 64 :: chunks64 n (bs.drop 64)

/-- R154, R349: the records of a TASKADD, each an access of its own. -/
def recPieces (s : State) (addr : Word) : Nat → Except Trap (List Piece)
  | 0 => .ok []
  | n + 1 =>
    match resolveAccess s (myReq s) .r addr addr 64 with
    | .error t => .error t
    | .ok ps => (recPieces s (addr + 64) n).map (ps ++ ·)

/-- R335: the reads of code objects and counters that accepted records take. -/
def recReads (s : State) (rs : List TaskRec) : State :=
  rs.foldl (fun s r =>
    let s1 := if r.kind = 0 then readied s { cls := 0, ctx := r.ctx } r.code 256 else s
    if r.waitjoin then readied s1 (myReq s1) r.waiton 8 else s1) s

/-- R154, R301: TASKADD. -/
def execTaskadd (h : Hd) (d a b : BitVec 5) (s : State) : Host.Outcome State Fault Refusal :=
  runGuarded s (.taskadd h d a b) fun s =>
    let addr := s.readX a
    let n := min (s.readX b).toNat 16
    if n = 0 then .ok (s.writeX d 0 4)
    else if addr.toNat % 64 ≠ 0 then .trap (trapOf Code.misalign 0 addr)
    else
      let add (ps : List Piece) (bs : List Byte) : Eff :=
        match acceptAll s (chunks64 n bs) with
        | .error t => if t.code = 0 ∧ t.sub = 4 then .wait 4 0 (t.faddr.setWidth 32) else .trap t
        | .ok rs => match addRecs (recReads (readUses s (myReq s) addr.toNat (64 * n) ps) rs) rs with
          | none => .trap (trapOf Code.segQuota 3)
          | some s1 => .ok (s1.writeX d (BitVec.ofNat 64 n) 4)
      if (myReq s).ctl.isSome then readEff s (myReq s) addr (64 * n) .r add else piecesEff s addr add (recPieces s addr n)

/-! ## Eligibility (R309) -/

/-- R309, R317: AFFWAIT has passed since the record became ready, by the setting that stands. -/
def affinityLate (s : State) (r : TaskRec) : Bool := decide (max 1 s.tq.affwait.toNat * us ≤ s.tick - r.readyAt)

/-- R309: whether the slot lies where the record's affinity wants it, or the affinity no longer counts. -/
def affinityOk (s : State) (r : TaskRec) (n : Nat) : Bool :=
  let late := affinityLate s r
  match r.affkind with
  | 1 => (match findTarn s r.ctx (bits r.affinity 0 48) with
    | none => true
    | some t => late || t.home == domainOf t.level (n / 2))
  | 2 => late || inPlace r.affinity n
  | _ => true

def eligible (s : State) (r : TaskRec) (n : Nat) : Bool := inPlace r.place n && affinityOk s r n

/-- R309: AFFINITY_RELAX: the record's mark; each evaluation tests the time by the AFFWAIT that stands then (R317). -/
def execAffinityRelax (record : Nat) (s : State) : Host.Outcome State Fault Refusal :=
  match sfind s.tq.records record with
  | none => .next s
  | some r =>
    .next (s.modRec record ({ · with relaxed := r.ready && affinityLate s r }))

/-! ## Fitting (R312, R483, R504) -/

/-- R483, R504: whether a core takes new jobs: its cluster is not down, and no scan is within 200 µs, due or under way. -/
def coreOpen (s : State) (c : Nat) : Bool :=
  !s.ckpt.down.contains (c / 96) && (s.core c).scan == .run && (s.core c).scanning.isNone && !nearScan s c

/-- R312, R315: whether the resources of a code object are free beside another slot's: those of its job, or those that a
reservation keeps for it. -/
def masksFree (h : List Byte) (o : Slot) : Bool :=
  (o.state == .free && o.reserved.isNone) ||
    (hdrTiles h &&& o.tilesMask == 0 && hdrOslots h &&& o.oslotMask == 0 && hdrRings h &&& o.ringMask == 0 &&
      hdrPorts h &&& o.portMask == 0)

/-- The other job slot of a core. -/
def otherSlot (n : Nat) : Nat := if n % 2 = 0 then n + 1 else n - 1

/-- R312: the part that a job would get in a slot: its start, or none where the job does not fit. -/
def fitHeader (s : State) (n : Nat) (h : List Byte) : Option Nat :=
  if (s.slot n).state ≠ .free ∨ !masksFree h (s.slot (otherSlot n)) then none
  else if hdrQuota h = 0 then some 0
  else lowestRun (takenRuns (s.setSlot n {}) 0 (n / 2)) (levelSize s 0 (n / 2)) (hdrQuota h)

/-- R479: the header that a record's resources come from: its code object's. A RESUME record holds the save area's address
in FRAME. -/
def fitWith (s : State) (n : Nat) (r : TaskRec) (h : List Byte) : Option Nat :=
  let home := if r.resume then
      (sfind s.saves r.frame.toNat).all fun v => v.slot.attach.all fun a =>
        (findTarn s r.ctx a.name).all fun t => t.level != 0 || t.home == n / 2
    else true
  if isUzo h ∧ home then fitHeader s n h else none

def fitRec (s : State) (n : Nat) (r : TaskRec) : Option Nat :=
  match readHeader s 4 r.ctx r.code with
  | .error _ => none
  | .ok h => fitWith s n r h

/-! ## Pops (R308, R313) -/

abbrev Cand := List (Nat × TaskRec)

/-- The oldest record of a list. -/
def oldestRec : Cand → Option (Nat × TaskRec)
  | [] => none
  | e :: t => match oldestRec t with
    | none => some e
    | some f => if f.2.readyAt < e.2.readyAt then some f else some e

/-- The 16th smallest of a list of keys, the largest where there are fewer. -/
def key16 (ks : List Nat) : Nat :=
  let sorted := ks.foldl (fun l k => (l.filter (· ≤ k)) ++ [k] ++ l.filter (k < ·)) []
  match sorted[15]? with
  | some k => k
  | none => sorted.getLast?.getD 0

/-- R308: the records from which a pop may choose. -/
def popWindow (e : Cand) : Cand :=
  match oldestRec (e.filter fun x => 255 ≤ x.2.age) with
  | some x => [x]
  | none =>
    let c := e.foldl (fun m x => min m x.2.prio) 4
    let l := e.filter (·.2.prio == c)
    l.filter fun x => x.2.key.toNat ≤ key16 (l.map (·.2.key.toNat))

/-- R315: a reserved slot takes only the records of its launch, and a CORESIDENT launch's jobs take only its slots, but for one that
was stopped and goes on; a slot that a RESUME holds takes none. -/
def reservationOk (s : State) (n : Nat) (r : TaskRec) : Bool :=
  !s.resumeHeld n && match (s.slot n).reserved with
  | some l => r.launch == l && r.leafv
  | none => !(((s.launch r.launch).map (·.coresident)).getD false && r.leafv && !r.resume)

/-- R308: the JOB records that a free slot may take. -/
def jobCands (s : State) (n : Nat) : Cand :=
  s.tq.records.filter fun e =>
    e.2.kind == 0 && e.2.ready && reservationOk s n e.2 && eligible s e.2 n && (fitRec s n e.2).isSome

/-- R313: the oldest saturated JOB record that is eligible to a core and does not fit it. -/
def blockedBy (s : State) (n : Nat) : Option Nat :=
  match oldestRec (s.tq.records.filter fun e => e.2.kind == 0 && e.2.ready && decide (255 ≤ e.2.age) &&
      (eligible s e.2 n || eligible s e.2 (otherSlot n))) with
  | some (id, r) => if (fitRec s n r).isSome ∨ (fitRec s (otherSlot n) r).isSome then none else some id
  | none => none

def dropRec (s : State) (id : Nat) : State := { s with tq := { s.tq with records := sdel s.tq.records id } }

/-- R312, R329: a job is admitted to a slot: it holds its resources, and its part reads 0 in full lines. -/
def admitJob (s : State) (n : Nat) (r : TaskRec) (h : List Byte) (start : Nat) : State :=
  let l := s.launch r.launch
  let get {α : Type} (d : α) (f : Launch → α) : α := (l.map f).getD d
  let s1 := clearRun s 0 (n / 2) start (hdrQuota h)
  s1.setSlot n { ({} : Slot) with
    state := .starting, ctx := r.ctx, job := r, launch := r.launch, prio := r.prio
    levels := get 1 (·.levels.length), coresident := get false (·.coresident), migrate := get false (·.migrate)
    maxDepth := get 4096 (·.maxDepth), rampSlot := BitVec.ofNat 32 r.rampN
    levelIdx := if r.leafv then (leafPath (get [] (·.levels)) r.leaf.toNat).map (BitVec.ofNat 64 ·)
                else List.replicate 8 (BitVec.allOnes 64)
    tilesMask := hdrTiles h, oslotMask := hdrOslots h, ringMask := hdrRings h, portMask := hdrPorts h
    partStart := start, partLen := hdrQuota h }

/-- R308: TASK_POP by a free job slot. -/
def execTaskPop (slot pick : Nat) (s : State) : Host.Outcome State Fault Refusal :=
  if 3072 ≤ slot ∨ (s.slot slot).state ≠ .free ∨ !coreOpen s (slot / 2) ∨ (blockedBy s slot).isSome then .next s
  else
    let w := popWindow (jobCands s slot)
    match w[pick % Nat.max 1 w.length]? with
    | none => .next s
    | some (id, r) =>
      match readHeader s 4 r.ctx r.code, fitRec s slot r with
      | .ok h, some start => .next (admitJob (dropRec (headerRead s 4 r.ctx r.code) id) slot r h start)
      | _, _ => .next s

/-! ## TASKGET (R154, R308) -/

/-- The WORK records of its own launch that a job may take. -/
def workCands (s : State) : Cand :=
  s.tq.records.filter fun e =>
    e.2.kind == 1 && e.2.ready && e.2.launch == s.mySlot.launch && eligible s e.2 s.me.slot

/-- Slot.replies: 5 says that the TASKGET at hand has waited its time out. -/
def taskgetDue (s : State) (n : Nat) (limit : Nat) : Bool :=
  match (s.slot n).a.wait with
  | some w => w.kind == 9 && decide (limit * us ≤ s.tick - w.since)
  | none => limit == 0

/-- R154: TASKGET takes a record of the window, which one being open (log 3), or waits its time out. -/
def execTaskget (h : Hd) (d a b : BitVec 5) (s : State) : Host.Outcome State Fault Refusal :=
  runGuarded s (.taskget h d a b) fun s =>
    let addr := s.readX a
    let flagged := (sfind s.mySlot.replies 5).isSome
    let done (s : State) (v : Word) : Eff := .ok ((s.modMySlot fun t => { t with replies := sdel t.replies 5 }).writeX d v 4)
    if addr.toNat % 64 ≠ 0 then .trap (trapOf Code.misalign 0 addr)
    else match if (myReq s).ctl.isSome then .ok [] else resolveAccess s (myReq s) .w addr addr 64 with
      | .error t => .trap t
      | .ok ps =>
        let w := if isJob s.me.slot ∧ !flagged then popWindow (workCands s) else []
        let (v, s1) := if 1 < w.length then s.drawFree else (0, s)
        match w[v.toNat % Nat.max 1 w.length]? with
        | some (id, r) => done (writePieces (walked (dropRec s1 id) (myReq s1) addr.toNat 64) (myReq s1) ps r.bytes) 1
        | none => if flagged ∨ taskgetDue s s.me.slot (bits (s.readX b) 0 16) then done s 0 else .wait 9 0 0

/-- R154: TASKGET_TIMEOUT. -/
def execTaskgetTimeout (slot : Nat) (s : State) : Host.Outcome State Fault Refusal :=
  let t := s.slot slot
  match t.a.wait, t.a.blk.bind fun b => decodeParcels <$> b.body[b.pos]? <*> (b.body[b.pos + 1]?.orElse fun _ => some 0) with
  | some w, some (.ok (.taskget _ _ _ b)) =>
    if w.kind = 9 ∧ bits (if b = 0 then 0 else t.a.x[b.toFin]) 0 16 * us ≤ s.tick - w.since then
      .next (s.setSlot slot { t with replies := sput t.replies 5 0 })
    else .next s
  | _, _ => .next s

/-! ## Readiness and ages (R310, R398) -/

def execRecordReady (record : Nat) (s : State) : Host.Outcome State Fault Refusal :=
  match sfind s.tq.records record with
  | none => .next s
  | some r =>
    if !r.held ∧ !r.ready ∧ r.readyAt ≤ s.tick then .next (s.modRec record (·.nowReady)) else .next s

/-- R310: the ages of the ready records move. -/
def ageRecords (s : State) : State :=
  ageTick s 2 fun s => { s with tq := { s.tq with
    records := s.tq.records.map fun e => if e.2.ready then (e.1, { e.2 with age := min 255 (e.2.age + 1) }) else e } }

def execRecordAgeTick (s : State) : Host.Outcome State Fault Refusal := .next (ageRecords s)

/-! ## Pre-emption (R315, R316, R474) -/

/-- R316: whether a slot's job could be stopped for a record of class `c`. -/
def stoppable (s : State) (c n : Nat) : Bool :=
  let t := s.slot n
  t.state == .running && decide (c < t.prio) && !t.coresident && (sfind s.tq.stopReqs n).isNone

/-- Whether the release of a slot's job would let a record, or a code object, fit there. -/
def recFitsWithout (s : State) (n : Nat) (r : TaskRec) (h : List Byte) : Bool := (fitWith (s.setSlot n {}) n r h).isSome
def fitsWithout (s : State) (n : Nat) (h : List Byte) : Bool := (fitHeader (s.setSlot n {}) n h).isSome

/-- R316: the highest class value, then the job that started latest. -/
def isVictim (s : State) (cands : List Nat) (n : Nat) : Bool :=
  cands.contains n && cands.all fun m =>
    decide ((s.slot m).prio < (s.slot n).prio) ||
      ((s.slot m).prio == (s.slot n).prio && decide ((s.slot m).startAt ≤ (s.slot n).startAt))

/-- R474: STOPREQ is set on the victim's core. -/
def requestStop (s : State) (n who : Nat) : State :=
  { s with tq := { s.tq with stopReqs := sput s.tq.stopReqs n who } }.modCore (n / 2) fun c =>
    { c with fw := { c.fw with event := c.fw.event ||| (if n % 2 = 0 then 8#5 else 16#5) } }

/-- R474: the request for a slot goes. -/
def clearStop (s : State) (n : Nat) : State :=
  { s with tq := { s.tq with stopReqs := sdel s.tq.stopReqs n } }.modCore (n / 2) fun c =>
    { c with fw := { c.fw with event := c.fw.event &&& (if n % 2 = 0 then 0x17#5 else 0x0F#5) } }

/-- R315: the instance of the last level that a job slot lies in, and how many jobs of a launch each such instance takes. -/
def Launch.lastDomain (l : Launch) : Nat := (l.levels.getLast?.map (·.domain)).getD 0
def Launch.fanoutLast (l : Launch) : Nat := (l.levels.getLast?.map (·.fanout)).getD 1

/-- The instances that the parents of a launch's jobs are bound to, one entry for each parent. -/
def parentInsts (l : Launch) : List Nat :=
  (upTo 0 (l.jobs / Nat.max 1 l.fanoutLast)).map fun i => bindPath l ((leafPath l.levels (i * l.fanoutLast)).dropLast)

def needIn (l : Launch) (inst : Nat) : Nat := ((parentInsts l).filter (· == inst)).length * l.fanoutLast

/-- The slots that a launch has reserved in an instance. -/
def reservedBy (s : State) (l : Launch) : List Nat := (s.slots.filter fun e => e.2.reserved == some l.id).map (·.1)
def haveIn (s : State) (l : Launch) (inst : Nat) : Nat :=
  ((reservedBy s l).filter fun n => slotInst l.lastDomain n == inst).length

/-- R308, R312: whether a record fits some free slot that may take it. -/
def freeSlotFor (s : State) (r : TaskRec) (h : List Byte) : Bool :=
  (upTo 0 3072).any fun n =>
    (s.slot n).state == .free && reservationOk s n r && eligible s r n && coreOpen s (n / 2) &&
      (fitWith s n r h).isSome

/-- R316: the ready JOB records for which a free slot fits at this TICK. -/
def noteFits (s : State) : State :=
  if s.tq.records.all (fun e => e.2.kind != 0 || !e.2.ready) then s
  else
    let note (e : Nat × TaskRec) : Nat × TaskRec :=
      if e.2.kind ≠ 0 ∨ !e.2.ready then e
      else match readHeader s 4 e.2.ctx e.2.code with
        | .error _ => e
        | .ok h => if freeSlotFor s e.2 h then (e.1, { e.2 with fitAt := s.tick }) else e
    { s with tq := { s.tq with records := s.tq.records.map note } }

/-- The slots for which a record, or a launch's reservation, may ask for a stop. -/
def victimsOf (s : State) (id : Nat) : List Nat :=
  let slots := s.slots.map (·.1)
  if id % 2 = 0 then
    match sfind s.tq.records (id / 2) with
    | none => []
    | some r => match readHeader s 4 r.ctx r.code with
      | .error _ => []
      | .ok h =>
        if r.kind ≠ 0 ∨ !r.ready ∨ s.tq.prewait = 0 ∨ s.tick - r.fitAt < s.tq.prewait.toNat * us ∨
            s.tq.stopReqs.any (·.2 == id) ∨ freeSlotFor s r h then []
        else slots.filter fun n => n < 3072 && eligible s r n && reservationOk s n r && stoppable s r.prio n && recFitsWithout s n r h
  else
    match sfind s.launches (id / 2) with
    | none => []
    | some l => match readHeader s 3 l.ctx l.code with
      | .error _ => []
      | .ok h =>
        if l.phase ≠ .reserve ∨ s.tq.prewait = 0 ∨ s.tick - l.openedAt < s.tq.prewait.toNat * us then []
        else slots.filter fun n =>
          let i := slotInst l.lastDomain n
          let asked := (s.tq.stopReqs.filter fun e => e.2 == id && slotInst l.lastDomain e.1 == i).length
          n < 3072 && decide (haveIn s l i + asked < needIn l i) && stoppable s l.prio n && fitsWithout s n h

/-- R315, R316: PREEMPTION_REQUEST by record id / 2, or, for an odd id, by the reservation of launch id / 2. -/
def execPreemptionRequest (id victim : Nat) (s : State) : Host.Outcome State Fault Refusal :=
  if isVictim s (victimsOf s id) victim then .next (requestStop s victim id) else .next s

/-! ## Registers (R311, R317) -/

/-- R311: the class of a launch's records, jobs and nest-queue entries. -/
def reprio (s : State) (id : BitVec 32) (c : Nat) : State :=
  let job (t : Slot) : Slot :=
    if t.state ≠ .free ∧ t.job.launchid = id then
      { t with prio := c, nests := t.nests.map fun e => { e with prio := max e.prio c } }
    else t
  { s with
    tq := { s.tq with records := s.tq.records.map fun e => if e.2.launchid = id then (e.1, { e.2 with prio := c }) else e }
    launches := s.launches.map fun e => if e.2.launchid = id then (e.1, { e.2 with prio := c }) else e
    slots := s.slots.map fun e => if e.1 < 3072 then (e.1, job e.2) else e }

def execTqReprio (m : Master) (d : Word) (s : State) : Host.Outcome State Fault Refusal :=
  if !barWritable s m 0x120010 then .next s
  else if mgmtWaits s m then .next s.stall
  else .next (reprio s (d.setWidth 32) (bits d 32 2))

/-- R317: a write of TQ.CFG or TQ.SPILLBASE. -/
def writeTqCfg (s : State) (d : Word) : State :=
  { s with tq := { s.tq with cowait := BitVec.ofNat 32 (bits d 32 32), prewait := BitVec.ofNat 8 (bits d 16 8)
                             affwait := d.setWidth 8 } }

def writeSpillbase (s : State) (d : Word) : State :=
  if spilledCount s ≠ 0 then s else { s with tq := { s.tq with spillbase := keepFields d [(12, 52), (0, 5)] } }

end Sys2Proof.Machine
end

