-- ==== Sys2Proof/Machine/Launches.lean ====
section
/-!
DEFINITION. Launches (chapters 08, 09, 12, 13): the launch record (R291 to R294), admission (R293, R314, R315, R347, R381, R398 to
R403, R504), the hierarchy's records (R303, R305) and completion (R295, R304).
-/

namespace Sys2Proof.Machine

/-! ## The record (R291, R292, R294) -/

def levelOf (bs : List Byte) (j : Nat) : Level := ⟨recNat bs (64 + 8 * j) 1, recNat bs (65 + 8 * j) 1, recNat bs (68 + 8 * j) 4⟩

def recLevels (bs : List Byte) : List Level := (upTo 0 (min 8 (recNat bs 32 1))).map (levelOf bs)

/-- R294: TARN.k; an entry without VALID is none. -/
def tarnEntry (bs : List Byte) (k : Nat) : Option TarnReq :=
  let o := 128 + 16 * k
  let f := recNat bs (o + 7) 1
  if f.testBit 0 then
    some { name := recNat bs o 6, writer := (recNat bs (o + 6) 1).testBit 0, lazy := (recNat bs (o + 6) 1).testBit 1
           affinity := f.testBit 1, frameOff := recNat bs (o + 8) 4 }
  else none

/-- R291, R293: whether a TARN entry holds a reserved value; an entry without VALID requests nothing, and its reserved
bytes must be 0 all the same (DEDUCED, log entry 121). -/
def tarnBad (bs : List Byte) (k : Nat) : Bool :=
  let o := 128 + 16 * k
  recNat bs (o + 6) 1 / 4 != 0 || recNat bs (o + 7) 1 / 4 != 0 || recNat bs (o + 12) 4 != 0

/-- R292: the domains do not grow from a level to the next. -/
def inOrder : List Level → Bool
  | a :: b :: t => decide (a.domain ≤ b.domain) && inOrder (b :: t)
  | _ => true

def levelBad (l : Level) : Bool :=
  decide (5 < l.domain) || decide (5 < l.scope) || l.fanout == 0 || (l.domain == 5 && decide (1 < l.fanout))

/-- R293: what the record's own bytes show. -/
def recordBad (bs : List Byte) : Bool :=
  let n := recNat bs 32 1
  let ls := recLevels bs
  let jobs : Nat := ls.foldl (fun k e => k * e.fanout) 1
  n == 0 || decide (8 < n) || recNat bs 24 1 / 4 != 0 || recNat bs 25 1 / 8 != 0 || recNat bs 33 7 != 0 ||
    recNat bs 60 4 != 0 || ls.any levelBad || !inOrder ls || decide (2 ^ 32 < jobs) ||
    (upTo 0 8).any (fun j => if j < n then recNat bs (66 + 8 * j) 2 != 0 else recNat bs (64 + 8 * j) 8 != 0) ||
    (upTo 0 8).any (tarnBad bs) || ((recNat bs 25 1).testBit 0 && decide (3072 < jobs))

/-- The launch of a record's bytes. -/
def launchOf (bs : List Byte) (id ctx : Nat) (o : Origin) (graph : Option Nat) : Launch :=
  let f := recNat bs 25 1
  let w (k : Nat) : Word := BitVec.ofNat 64 (recNat bs k 8)
  { id := id, ctx := ctx, origin := o, graphOf := graph, bad := recordBad bs, launchid := BitVec.ofNat 32 (recNat bs 20 4)
    code := w 0, frame := w 8, fstride := recNat bs 16 4, prio := recNat bs 24 1 % 4
    coresident := f.testBit 0, migrate := f.testBit 1, ramppin := f.testBit 2
    rampclass := recNat bs 26 1, rampmax := recNat bs 27 1
    maxDepth := if recNat bs 28 4 = 0 then 4096 else recNat bs 28 4
    levels := recLevels bs, completion := w 40, faultArea := w 48, faultCap := recNat bs 56 4
    tarns := (upTo 0 8).filterMap (tarnEntry bs) }

/-- R493: the record that a restarted launch receives. -/
def rollbackRec (s : State) (l : Launch) (c : Nat) : TrapRec :=
  { code := Code.rollback, source := 7, statusOnly := true, launchid := l.launchid, faddr := BitVec.ofNat 64 c
    tick := BitVec.ofNat 64 s.tick }

/-- R493: a launch that a rollback withdrew starts again. -/
def noteStarted (s : State) (l : Launch) : State :=
  let key := (l.ctx, l.launchid.toNat)
  let s1 := { s with started := (s.ckpt.current, key) :: s.started }
  match s.rolled.find? (fun e => (e.1, e.2.1) == key) with
  | none => s1
  | some e => reportFault { s1 with rolled := s.rolled.erase e } l.id (rollbackRec s l e.2.2)

/-- R27, R285: a launch record is submitted; the fault of its address or of its reading is the submitter's. -/
def submitLaunch (s : State) (ctx : Nat) (addr : Word) (o : Origin) (graph : Option Nat) : Except Trap State :=
  if addr.toNat % 256 ≠ 0 then .error (trapOf Code.misalign 0 addr)
  else match loadAll s (engineReq 3 ctx) addr 256 with
    | .error t => .error t
    | .ok (bs, _) =>
      let l := launchOf bs s.nextLaunch ctx o graph
      .ok (noteStarted { readied s (engineReq 3 ctx) addr 256 with
        launches := sput s.launches s.nextLaunch l, nextLaunch := s.nextLaunch + 1 } l)

/-! ## Tarn requests of a code object (R387, R389) -/

def reqEntry (bs : List Byte) (k : Nat) : TarnReq :=
  let o := 32 * k
  let m := recNat bs (o + 6) 1
  let lv := recNat bs (o + 8) 1
  { name := recNat bs o 6, writer := m.testBit 0, lazy := m.testBit 1, affinity := (recNat bs (o + 7) 1).testBit 0
    frameOff := recNat bs (o + 16) 4, shape := some (lv % 4, lv / 4 % 4, recNat bs (o + 12) 4) }

/-- R389: the requests of a loaded header. -/
def objectReqs (s : State) (cls ctx : Nat) (h : List Byte) : Except Trap (List TarnReq) :=
  let n := recNat h 144 4
  if n = 0 then .ok []
  else (loadAll s (engineReq cls ctx) (BitVec.ofNat 64 (recNat h 152 8)) (32 * n)).map fun r =>
    (upTo 0 n).map (reqEntry r.1)

/-- The reads of an object's header and of its requests reach the L2 (R335, R343). -/
def objectReads (s : State) (cls ctx : Nat) (code : Word) (h : List Byte) : State :=
  listRead (headerRead s cls ctx code) cls ctx (BitVec.ofNat 64 (recNat h 152 8)) (32 * recNat h 144 4)

/-! ## Completion (R295, R304) -/

/-- R376, R381: a launch's holds end, and the tarns whose life it bounds. -/
def endLaunchTarns (s : State) (id : Nat) : State :=
  let s1 := settleTarns { s with tarns := s.tarns.map fun t => { t with holds := t.holds.filter (· != id) } }
  endTarns s1 fun t => t.launch == some id && (t.life == 0 || (t.life == 1 && t.graph.isNone))

/-- R295: the completion record. -/
def Launch.completionRec (l : Launch) (s : State) : List Byte :=
  natBytes 1 (if l.failed then 2 else 1) ++ natBytes 1 l.faultCode ++ natBytes 2 (min l.faults 0xFFFF) ++
  natBytes 4 l.rampFirst ++ natBytes 2 (min l.rampSlots 0xFFFF) ++ natBytes 6 0 ++ natBytes 8 s.ckpt.current ++ natBytes 8 s.tick

/-- R304: a launch completes: its record is written, what it holds goes, and its origin sees it. -/
def completeLaunch (s : State) (id : Nat) : State :=
  match s.launch id with
  | none => s
  | some l =>
    let s1 := storeLater s (engineReq 3 l.ctx) l.completion (l.completionRec s)
    let s2 := endLaunchTarns s1 id
    let s3 := { s2 with
      tq := { s2.tq with records := s2.tq.records.filter (·.2.launch != id) }
      slots := s2.slots.map fun e => if e.2.reserved = some id ∧ e.2.state = .free then (e.1, {}) else e
      circuits := s2.circuits.filter (·.2.launch != id)
      launches := sdel s2.launches id }
    match l.origin with
    | .packet _ _ => s3
    | .node g n => { s3 with completions := s3.completions ++
        [{ graph := g, node := n, status := if l.failed then 2 else 1, code := l.faultCode }] }

/-- R304: the launch completes once the counter of its level-0 node is 0 and every record that its jobs added has run. -/
def settleLaunch (s : State) (id : Nat) : State :=
  match s.launch id with
  | none => s
  | some l =>
    let left := match l.counters.find? (·.1 == []) with
      | some e => e.2
      | none => (l.levels.head?.map (·.fanout)).getD 1
    if l.phase = .running ∧ left = 0 ∧ l.added = 0 then completeLaunch s id else s

/-- R303: takes 1 from the counter of the node of a path; one that reaches 0 takes 1 from its parent's. `rest` are the
level indices of the node, last first. -/
def takeNode (l : Launch) : List Nat → Launch
  | [] =>
    let v := ((l.counters.find? (·.1 == [])).map (·.2)).getD ((l.levels.head?.map (·.fanout)).getD 1)
    { l with counters := (l.counters.filter (·.1 != [])) ++ [([], v - 1)] }
  | c :: rest =>
    let p := (c :: rest).reverse
    let v := ((l.counters.find? (·.1 == p)).map (·.2)).getD ((l.levels[rest.length + 1]?.map (·.fanout)).getD 1)
    if v ≤ 1 then takeNode { l with counters := l.counters.filter (·.1 != p) } rest
    else { l with counters := (l.counters.filter (·.1 != p)) ++ [(p, v - 1)] }

/-! ## Failures at admission (R293, R295, R315) -/

/-- R470: a record from launch admission. -/
def admissionRec (s : State) (l : Launch) (t : Trap) : TrapRec :=
  { code := t.code, source := 6, launchid := l.launchid, status := t.sub, faddr := t.faddr, tick := BitVec.ofNat 64 s.tick }

/-- Admission fails a launch: one record, its ramp budget and reservations released, completion FAILED. -/
def failLaunch (s : State) (id : Nat) (t : Trap) : State :=
  match s.launch id with
  | none => s
  | some l =>
    let s1 := { s with gov := s.gov.release (rampPower l.rampclass) l.rampList }
    completeLaunch (reportFault s1 id (admissionRec s1 l t)) id

/-! ## The checks (R293, R347, R504) -/

def graphTable : Trap := trapOf Code.illegalOp 0x0B

/-- R346: the circuit table of a .slots section. -/
def circuitOf (bs : List Byte) : Nat × List (Nat × Nat × Nat) :=
  (recNat bs 0 2, (upTo 0 (recNat bs 2 2)).map fun i =>
    (recNat bs (8 + 4 * i) 1, recNat bs (9 + 4 * i) 1, recNat bs (10 + 4 * i) 1))

/-- The cluster of an instance of a domain that lies inside one. -/
def clusterOfInst (d i : Nat) : Option Nat := if d < 2 then none else some (i / (instCount d / 16))

/-- R347: the one cluster that holds every job of a launch. -/
def oneCluster (l : Launch) : Option Nat :=
  match (parentInsts l).map (clusterOfInst l.lastDomain) with
  | some c :: t => if t.all (· == some c) then some c else none
  | _ => none

/-- The instances that the nodes of each level are bound to (R297), with their domain: `up` is the domain of the level
above, whose fan-out is `fan` and whose instances are `ps`. -/
def boundBelow (id : Nat) : Nat → Nat → List Nat → List Level → List (Nat × Nat)
  | up, fan, ps, l :: ls =>
    let k := Nat.max 1 (instCount l.domain / instCount up)
    let is := (ps.map fun p => (upTo 0 (min fan k)).map fun c => p * k + (c + id) % k).foldr (· ++ ·) []
    is.map (l.domain, ·) ++ boundBelow id l.domain l.fanout is ls
  | _, _, _, [] => []

def boundInsts (l : Launch) : List (Nat × Nat) :=
  match l.levels with
  | [] => []
  | v :: vs =>
    let i := bindPath l []
    (v.domain, i) :: boundBelow l.launchid.toNat v.domain v.fanout [i] vs

/-- R504: a node bound to a down cluster or within one. -/
def bindsDown (s : State) (l : Launch) : Bool :=
  s.ckpt.down != [] && (boundInsts l).any fun e => match clusterOfInst e.1 e.2 with
    | some c => s.ckpt.down.contains c
    | none => false

/-- R293, R347, R504: step 1 of admission: the launch with its object's tarn requests and circuit table, or its fault. CODE is
read where it points, 256-byte aligned or not (log 175). -/
def checkLaunch (s : State) (l : Launch) : Except Trap Launch :=
  if l.bad then .error graphTable
  else match readHeader s 3 l.ctx l.code with
    | .error t => .error t
    | .ok h =>
      if !isUzo h then .error graphTable
      else match objectReqs s 3 l.ctx h with
        | .error t => .error t
        | .ok rs =>
          let (a, n) := hdrSect h 5
          let l1 := { l with tarns := l.tarns ++ rs }
          let circ : Except Trap Launch :=
            if n = 0 then .ok l1
            else if !l.coresident ∨ (oneCluster l).isNone then .error (trapOf Code.coschedule 4)
            else (loadAll s (engineReq 3 l.ctx) a n).map fun r => { l1 with circ := some (circuitOf r.1), cluster := oneCluster l }
          match circ with
          | .error t => .error t
          | .ok l2 => if bindsDown s l then .error (trapOf Code.coschedule 5) else .ok l2

/-- The reads of that check reach the L2. -/
def checkReads (s : State) (l : Launch) : State :=
  match readHeader s 3 l.ctx l.code with
  | .error _ => s
  | .ok h => listRead (objectReads s 3 l.ctx l.code h) 3 l.ctx (hdrSect h 5).1 (hdrSect h 5).2

/-! ## Tarns (R381) -/

/-- What a step of admission comes to. -/
inductive Adm where
  | go   (s : State) (l : Launch)
  | wait (s : State) (l : Launch)
  | fail (s : State) (t : Trap)

def holdTarnFor (s : State) (t : Tarn) (id : Nat) : State :=
  putTarn s { t with holds := if t.holds.contains id then t.holds else t.holds ++ [id] }

/-- One named tarn. `refilling` is on while the refill that admission asked for is under way. -/
def admitTarn (s : State) (l : Launch) (e : TarnReq) : Adm :=
  let next (l : Launch) : Launch := { l with heldN := l.heldN + 1, refilling := false }
  match findTarn s l.ctx e.name with
  | none => .go s (next l)
  | some t =>
    if t.ending then .go s (next l)
    else if l.refilling ∧ t.state = .filling then .wait s l
    else if t.state = .evicted ∧ e.lazy then
      (match (if l.refilling then t.refillFault else none) with
       | some f => .fail s f
       | none => match beginRefill s t (.auto (some l.id) (launchAsker l.id)) with
       | (.got _, s1) => .wait s1 { l with refilling := true }
       | (.busy, s1) => .wait s1 l
       | (.full, s1) => .fail s1 (trapOf Code.segQuota 1))
    else .go (holdTarnFor s t l.id) (next l)

def admitTarns (s : State) (l : Launch) : List TarnReq → Adm
  | [] => .go s l
  | e :: es => match admitTarn s l e with
    | .go s1 l1 => admitTarns s1 l1 es
    | r => r

/-! ## Ramp slots (R398, R403) -/

/-- R398, R400, R403: the starts of a launch are assigned. -/
def assignRamp (s : State) (l : Launch) : Adm :=
  let p := rampPower l.rampclass
  let (g, list) := rampAssign s p l.jobs
  let (first, n) := rampSpan list
  let l1 := { l with rampFirst := first, rampSlots := n, rampList := list }
  if l.ramppin ∧ Nat.max 1 l.rampmax < n then
    .fail ({ s with gov := g.release p list }.modLaunch l.id fun l => { l with rampFirst := first, rampSlots := n, rampList := [] })
      (trapOf Code.rampViolation (n % 65536 + l.rampmax * 65536))
  else .go { s with gov := g } l1

/-! ## Co-residency (R315, R400) -/

/-- R315: how many jobs of a code object a core takes together, on an idle module. -/
def perCore (s : State) (h : List Byte) (c : Nat) : Nat :=
  let pinned := ((s.tarns.filter fun t => t.level == 0 && t.home == c && t.life == 3).map (·.size * 65536)).foldr (· + ·) 0
  let room := levelSize s 0 c - pinned
  let shared := hdrTiles h == 0 && hdrOslots h == 0 && hdrRings h == 0 && hdrPorts h == 0
  if shared ∧ 2 * hdrQuota h ≤ room then 2 else if hdrQuota h ≤ room then 1 else 0

/-- The jobs of a code object that an instance takes. -/
def instTakes (s : State) (h : List Byte) (d i : Nat) : Nat :=
  if d = 5 then min 1 (perCore s h (i / 2))
  else
    let n := 1536 / instCount d
    ((upTo (i * n) n).map (perCore s h)).foldr (· + ·) 0

/-- R315: a launch whose jobs cannot be placed together. -/
def impossible (s : State) (l : Launch) (h : List Byte) : Bool :=
  (parentInsts l).any fun i =>
    decide (instTakes s h l.lastDomain i < needIn l i) ||
      (l.lastDomain == 5 && decide (perCore s h (i / 2) < needIn l i + needIn l (otherSlot i)))

/-- The slots that a launch still needs. -/
def reservedAll (s : State) (l : Launch) : Bool := (parentInsts l).all fun i => decide (needIn l i ≤ haveIn s l i)

/-- R315: whether a free slot serves a launch's reservation. -/
def reservable (s : State) (l : Launch) (h : List Byte) (n : Nat) : Bool :=
  let i := slotInst l.lastDomain n
  decide (n < 3072) && (s.slot n).state == .free && (s.slot n).reserved.isNone && !s.resumeHeld n && !s.ckpt.down.contains (n / 192) &&
    decide (haveIn s l i < needIn l i) && (fitHeader s n h).isSome &&
    ((s.slot (otherSlot n)).reserved != some l.id || perCore s h (n / 2) == 2)

/-! ## Expansion (R305) -/

/-- R305: the record of a leaf; its JOIN is its parent's counter, in a region of the module's own (log 76). -/
def leafRec (l : Launch) (n tick : Nat) : TaskRec :=
  let parent := (leafPath l.levels n).dropLast
  let aff := l.tarns.find? (·.affinity)
  let ramp := l.rampList[n]?
  { code := l.code, frame := l.frame + BitVec.ofNat 64 (n * l.fstride), join := Config.jobCounter l.id parent &&& ~~~7#64, key := BitVec.ofNat 32 n, kind := 0, prio := l.prio, prioAt := l.prio
    affkind := if aff.isSome then 1 else 0, affinity := BitVec.ofNat 64 ((aff.map (·.name)).getD 0)
    place := leafPlace l n, leafv := true, launchid := l.launchid, leaf := BitVec.ofNat 32 n, ctx := l.ctx, launch := l.id
    ready := match ramp with | some e => decide (e.2 ≤ tick) | none => false
    readyAt := match ramp with | some e => max e.2 tick | none => tick
    fitAt := match ramp with | some e => max e.2 tick | none => tick
    rampSlot := ramp.map (·.1), rampN := match ramp with | some e => max e.2 tick / 256 | none => 0 }

def queuedLeaves (s : State) (id : Nat) : Nat :=
  (s.tq.records.filter fun e => e.2.launch == id && e.2.leafv && !e.2.resume).length

/-- R305: the next leaves of a launch enter the queue, `fuel` at most; one that would overflow the spill region waits. -/
def expandLeaves (s : State) (id : Nat) : Nat → State
  | 0 => s
  | fuel + 1 =>
    match s.launch id with
    | none => s
    | some l =>
      if l.jobs ≤ l.nextLeaf then s
      else match enqueue s (leafRec l l.nextLeaf s.tick) with
        | none => s
        | some s1 =>
          let s2 := if l.rampList.length ≤ l.nextLeaf then readyNow s1 s.tq.nextRec else s1
          expandLeaves (s2.modLaunch id fun l => { l with nextLeaf := l.nextLeaf + 1 }) id fuel

/-- R305: HIERARCHY_EXPANSION. -/
def execHierarchyExpansion (launch : Nat) (s : State) : Host.Outcome State Fault Refusal :=
  match s.launch launch with
  | none => .next s
  | some l => if l.phase = .running then .next (expandLeaves s launch (256 - queuedLeaves s launch)) else .next s

/-- Step 4 of R314: the launch runs; its circuit table is installed (R347). -/
def startLaunch (s : State) (l : Launch) : State :=
  let s1 := { s with launches := sput s.launches l.id { l with phase := .running } }
  let s2 := match l.circ, l.cluster with
    | some (rev, table), some c =>
      let k : Circuit := { launch := l.id, since := (l.rampList.head?.map (·.2)).getD s.tick, rev := rev, table := table }
      { s1 with circuits := sput s1.circuits c k }
    | _, _ => s1
  expandLeaves s2 l.id 256

/-! ## Admission (R314) -/

/-- The launch that admission is at: the first that does not run. -/
def admitting (s : State) : Option Launch := (s.launches.find? fun e => e.2.phase != .running).map (·.2)

def putLaunch (s : State) (l : Launch) : State := { s with launches := sput s.launches l.id l }

/-- Steps 2 to 4 of R314. -/
def rampStep (s : State) (l : Launch) : State :=
  if s.therm.held ∨ classPaused s 3 then putLaunch s l
  else match assignRamp s l with
    | .fail s1 t => failLaunch s1 l.id t
    | .wait s1 l1 => putLaunch s1 l1
    | .go s1 l1 =>
      if !l.coresident then startLaunch s1 l1
      else match readHeader s1 3 l.ctx l.code with
        | .error t => if t.code = 0 then putLaunch s l else failLaunch (putLaunch s1 l1) l.id t
        | .ok h =>
          if impossible s1 l1 h then failLaunch (putLaunch s1 l1) l.id (trapOf Code.coschedule 1)
          else putLaunch s1 { l1 with phase := .reserve, openedAt := s.tick }

def tarnStep (s : State) (l : Launch) : State :=
  match admitTarns s l (l.tarns.drop l.heldN) with
  | .fail s1 t => failLaunch s1 l.id t
  | .wait s1 l1 => putLaunch s1 l1
  | .go s1 l1 => rampStep s1 l1

/-- R314: LAUNCH_ADMISSION: the launch at hand goes as far as it can. An access that a channel holds is made again. -/
def execLaunchAdmission (s : State) : Host.Outcome State Fault Refusal :=
  match admitting s with
  | none => .next s
  | some l =>
    match l.phase with
    | .waiting => (match checkLaunch s l with
      | .error t => if t.code = 0 then .next s else .next (failLaunch s l.id t)
      | .ok l1 => .next (tarnStep (checkReads s l) { l1 with phase := .tarns }))
    | .tarns => .next (tarnStep s l)
    | _ => .next s

/-- R315, R400: the reservation is complete: the jobs start, in ramp slots that have not begun. A cluster with another
launch's circuit table is waited for (R347). -/
def finishReserve (s : State) (l : Launch) : State :=
  let busy : Bool := match l.cluster with | some c => (sfind s.circuits c).isSome | none => false
  if !reservedAll s l ∨ busy ∨ ((s.therm.held ∨ classPaused s 3) ∧ 256 * l.rampFirst ≤ s.tick) then s
  else if s.tick < 256 * l.rampFirst then startLaunch s l
  else
    let s1 := { s with gov := s.gov.release (rampPower l.rampclass) l.rampList }
    match assignRamp s1 { l with rampList := [] } with
    | .go s2 l2 => startLaunch s2 l2
    | .wait s2 _ => s2
    | .fail s2 t => failLaunch s2 l.id t

/-- R315: a slot is reserved for a launch, with what its job will need of the core. -/
def reserveSlot (s : State) (launch : Nat) (h : List Byte) (n : Nat) : State :=
  s.setSlot n { reserved := some launch, tilesMask := hdrTiles h, oslotMask := hdrOslots h, ringMask := hdrRings h, portMask := hdrPorts h
                partStart := (fitHeader s n h).getD 0, partLen := hdrQuota h }

/-- R315: CORESIDENT_RESERVE: a free slot is reserved for a launch. -/
def execCoresidentReserve (launch slot : Nat) (s : State) : Host.Outcome State Fault Refusal :=
  match s.launch launch with
  | none => .next s
  | some l =>
    if l.phase ≠ .reserve then .next s
    else match readHeader s 3 l.ctx l.code with
      | .error _ => .next s
      | .ok h =>
        let s1 := if reservable s l h slot then reserveSlot s launch h slot else s
        .next (finishReserve s1 l)

/-- R315: COWAIT_TIMEOUT. -/
def execCowaitTimeout (launch : Nat) (s : State) : Host.Outcome State Fault Refusal :=
  match s.launch launch with
  | none => .next s
  | some l =>
    if l.phase = .reserve ∧ max 1 s.tq.cowait.toNat * us ≤ s.tick - l.openedAt then
      .next (failLaunch s launch (trapOf Code.coschedule 2))
    else .next s

end Sys2Proof.Machine
end

