-- ==== Sys2Proof/Machine/Jobs.lean ====
section
/-!
DEFINITION. The start and the end of a job (R110, R303, R318, R389), and the restoring of a stopped one (R249, R477, R479).
-/

namespace Sys2Proof.Machine

/-! ## What a job's start clears (R203, R231, R329) -/

/-- The lane-private half of a job slot reads 0. -/
def clearLanes (s : State) (n : Nat) : State :=
  let base := laneKey (n / 2) 0 0
  { s with mem := s.mem.filter fun e =>
      !(decide (base ≤ e.1) && decide (e.1 < base + 2 ^ 17) && (e.1 - base) / 512 % 2 == n % 2) }

/-- The tiles of a mask hold FP32 zeros. -/
def clearTiles (s : State) (core mask : Nat) : State :=
  s.modCore core fun c =>
    { c with tiles := c.tiles.filter fun e => !mask.testBit (e.1 / 8192)
             ttype := c.ttype.filter fun e => !mask.testBit e.1 }

/-! ## Live entries (R76, R208) -/

def liveMaskOf (bs : List Byte) (i : Nat) : Nat :=
  let o := 16 * i
  if recNat bs o 1 ≠ 1 then 0
  else
    let t := recNat bs (o + 8) 2
    let a := recNat bs (o + 10) 2
    let k := recNat bs (o + 12) 4
    (upTo (a / 8) ((a + k + 7) / 8 - a / 8)).foldl (fun m g => m ||| 2 ^ (8 * t + g)) 0

def liveRange (bs : List Byte) (i : Nat) : Option (Nat × Nat) :=
  if recNat bs (16 * i) 1 = 2 then some (recNat bs (16 * i + 8) 4, recNat bs (16 * i + 12) 4) else none

/-- The live entries of a loaded header. -/
def liveEntries (s : State) (ctx : Nat) (h : List Byte) : Except Trap (Nat × List (Nat × Nat)) :=
  let n := recNat h 132 4
  if n = 0 then .ok (0, [])
  else (loadAll s (engineReq 3 ctx) (BitVec.ofNat 64 (recNat h 136 8)) (16 * n)).map fun r =>
    ((upTo 0 n).foldl (fun m i => m ||| liveMaskOf r.1 i) 0, (upTo 0 n).filterMap (liveRange r.1))

/-! ## The end of a job (R303, R304) -/

/-- R303: takes 1 from the job's counter: that of its parent node, or the one in memory that JOIN names. -/
def takeJoin (s : State) (n : Nat) : State :=
  let t := s.slot n
  if t.job.leafv then
    s.modLaunch t.launch fun l => takeNode l ((leafPath l.levels t.job.leaf.toNat).dropLast).reverse
  else
    let s1 := s.modLaunch t.launch fun l => { l with added := l.added - 1 }
    let r : Req := { cls := 4, ctx := t.ctx, core := some (n / 2), slot := some n }
    if t.job.join = 0 then s1
    else match resolveAccess s1 r .rw t.job.join t.job.join 8 with
      | .error f => if f.code = 0 then s1.stall else s1
      | .ok ps => if ps.any (touchesEmpty s1) then s1.stall else (takeFrom s1 r ps (bytesNat (piecesBytes s1 ps)) 1).1

/-- R494: a job leaves its core: its launch ran there in the open interval. -/
def noteRan (s : State) (n : Nat) : State :=
  match s.launch (s.slot n).launch with
  | none => s
  | some l => { s with ran := ⟨n / 2, l.id, s.ckpt.current, l.ctx, l.launchid, l.completion, l.origin⟩ :: s.ran }

/-- R530: a job starts or ends on a core. -/
def markJob (s : State) (n : Nat) : State := s.modCore (n / 2) fun c => { c with fw := { c.fw with jobAt := some s.tick } }

/-- R412: the arrivals held for the job of a slot go with it. -/
def dropPending (s : State) (n : Nat) : State :=
  { s with windows := s.windows.map fun e => if windowBinds e.2 n (s.slot n) then (e.1, { e.2 with pending := [] }) else e }

/-- R463: a REPORT of a slot that another core's firmware has made leave TRAPPED is over: nothing is left to report. -/
def dropReports (s : State) (n : Nat) : State :=
  { s with cores := s.cores.map fun e =>
      if e.2.fw.busy ∧ e.2.fw.target = n ∧ e.2.fw.op = 4 then (e.1, { e.2 with fw := { e.2.fw with op := 0, reject := true } }) else e }

/-- R190, R312, R329: what a job holds goes, and its slot is free; a stop request for it is dropped (R474). The barriers that its
streams have reached stand (R151). -/
def freeJob (s : State) (n : Nat) : State :=
  let s1 := detachAll (withdrawSlot (noteRan (markJob (dropPending (keepArrivals s n) n) n) n) n) n
  let t := s1.slot n
  let s2 := if t.partLen = 0 then s1 else clearRun s1 0 (n / 2) t.partStart t.partLen
  settleContext (dropBegun ((dropReports (clearStop s2 n) n).setSlot n {}) n) t.ctx

/-- R303: the end of a job. -/
def endJob (s : State) (n : Nat) : State :=
  let l := (s.slot n).launch
  settleLaunch (freeJob (takeJoin s n) n) l

/-- R150, R272: whether a job's end has come. -/
def jobDone (t : Slot) : Bool :=
  t.state == .running && t.a.ended && t.m.ended && t.v.ended && t.cq == [] && t.fq == [] && t.nests == []

/-- R303: JOB_END. -/
def execJobEnd (slot : Nat) (s : State) : Host.Outcome State Fault Refusal :=
  if slot < 3072 ∧ jobDone (s.slot slot) then .next (endJob s slot) else .next s

/-- R318: a fault before any stream issues: one record with SOURCE 6, and the job ends. -/
def failStart (s : State) (n : Nat) (f : Trap) : State :=
  let t := s.slot n
  let r : TrapRec := { code := f.code, source := 6, launchid := t.job.launchid, place := placeOf n, status := f.sub, faddr := f.faddr
                       leaf := leafOfJob t.job, tick := BitVec.ofNat 64 s.tick }
  endJob (reportFault s t.launch r) n

/-! ## The attachments of a start (R318, R389) -/

/-- R389: a request whose tarn has another level, lifetime class or size. -/
def shapeFault (s : State) (ctx : Nat) (e : TarnReq) : Option Trap :=
  match e.shape, findTarn s ctx e.name with
  | some (lv, life, size), some t =>
    if !t.ending ∧ (t.level ≠ lv ∨ t.life ≠ life ∨ t.size ≠ size) then some (trapOf Code.attachMiss 4) else none
  | _, _ => none

/-- What a step of a job's start comes to. -/
inductive Begin where
  | go   (s : State)
  | wait (s : State)
  | fail (s : State) (t : Trap)

/-- One attachment: it is made, and its base address written into the frame. -/
def attachOne (s : State) (n : Nat) (e : TarnReq) : Begin :=
  let t := s.slot n
  match shapeFault s t.ctx e with
  | some f => .fail s f
  | none =>
    match attachStep s ⟨n, .a⟩ e.name e.writer e.lazy with
    | .wait s1 => .wait s1
    | .fail f => .fail s f
    | .done s1 base =>
      let s2 := s1.modSlot n fun t => { t with attachAt := t.attachAt + 1 }
      let s3 := match findTarn s2 t.ctx e.name with
        | some u => if t.job.leafv ∧ !t.attach.any (·.name == e.name) then noteAttach s2 t.launch u else s2
        | none => s2
      match storeAll s3 (slotReq s3 n) (t.job.frame + BitVec.ofNat 64 e.frameOff) (natBytes 8 base.toNat) with
      | .ok s4 => .go s4
      | .error f => if f.code = 0 then .wait s.stall else .fail s3 f

def attachAll (s : State) (n : Nat) : List TarnReq → Begin
  | [] => .go s
  | e :: es => match attachOne s n e with
    | .go s1 => attachAll s1 n es
    | b => b

/-! ## The start (R110, R174, R213, R318) -/

/-- R174, R213: the loader's ring and port values. -/
def loadRings (s : State) (n : Nat) (o : LoadedObj) : State :=
  let s1 := o.rings.foldl (fun s r => writeRing (writeRing (writeRing s n r.1 0 r.2.1) n r.1 1 r.2.2.1) n r.1 2 r.2.2.2) s
  o.ports.foldl (fun s r =>
    let set (f : Nat) (p : Port) (vs : List Word) : Port := (vs.foldl (fun (a : Nat × Port) v => (a.1 + 1, a.2.write a.1 v)) (f, p)).2
    s.modSlot n fun t =>
      { t with ports := sput t.ports r.1 (set 16 (set 8 ((({} : Port).write 0 r.2.1).write 1 r.2.2.1) r.2.2.2.1) r.2.2.2.2) }) s1

/-- R110, R318: a stream at its start; one without a section has ended (R79). -/
def firstStream (h : List Byte) (frame : Word) (k : StreamId) : Stream :=
  let (a, n) := hdrSect h (streamBit k)
  if n = 0 then { ended := true }
  else { x := (Vector.replicate 32 (0 : Word)).setIfInBounds 29 frame, pc := a + BitVec.ofNat 64 (recNat h (8 + 4 * streamBit k) 4) }

/-- R318: the job's state is in place, and its streams start. -/
def startStreams (s : State) (n : Nat) (h : List Byte) (live : Nat) (ranges : List (Nat × Nat)) : State :=
  let t := s.slot n
  let s1 := clearTiles (clearLanes (dropArrivals s n) n) (n / 2) t.tilesMask
  (markJob s1 n).modSlot n fun t => { t with
    state := .running, startAt := s.tick, vlive := BitVec.ofNat 32 live, liveEnts := ranges
    mregs := if t.prio = 0 then t.mregs else sput t.mregs 0x3A (BitVec.ofNat 64 t.prio)
    a := firstStream h t.job.frame .a, m := firstStream h t.job.frame .m, v := firstStream h t.job.frame .v }

/-- R318: the attachments of a job: the launch's, then its code object's requests. -/
def startEntries (s : State) (t : Slot) (h : List Byte) : Except Trap (List TarnReq) :=
  (objectReqs s 3 t.ctx h).map fun rs => (((s.launch t.launch).map (·.tarns)).getD []).filter (·.shape.isNone) ++ rs

/-- R318: the loader's ring and port values are in place before the first attachment. -/
def loadStart (s : State) (n : Nat) : State :=
  let t := s.slot n
  if t.rings ≠ [] ∨ t.ports ≠ [] then s
  else match s.loaded.find? fun o => o.ctx == t.ctx && o.code == t.job.code with
    | some o => loadRings s n o
    | none => s

/-- The reads of a new job's start reach the L2 (R335, R343), once: before the first of its attachments. -/
def startReads (s : State) (n : Nat) : State :=
  let t := s.slot n
  match t.attachAt, readHeader s 3 t.ctx t.job.code with
  | 0, .ok h => listRead (objectReads s 3 t.ctx t.job.code h) 3 t.ctx (BitVec.ofNat 64 (recNat h 136 8)) (16 * recNat h 132 4)
  | _, _ => s

/-- R318: a new job's start. -/
def startNew (s0 : State) (n : Nat) : State :=
  let s := startReads (loadStart s0 n) n
  let t := s.slot n
  let stop (f : Trap) : State := if f.code = 0 then s else failStart s n f
  match readHeader s 3 t.ctx t.job.code with
  | .error f => stop f
  | .ok h =>
    match startEntries s t h, liveEntries s t.ctx h with
    | .error f, _ => stop f
    | _, .error f => stop f
    | .ok es, .ok (live, ranges) =>
      match attachAll s n (es.drop t.attachAt) with
      | .wait s1 => s1
      | .fail s1 f => if f.code = 0 then s1 else failStart s1 n f
      | .go s1 => startStreams s1 n h live ranges

/-! ## Restoring a stopped job (R249, R412, R477, R479) -/

/-- A command that runs once more, for a slot that is refetched. -/
def redoCmd (id : Nat) (c : Cmd) : Cmd :=
  { c with id := id, started := false, units := [], bytes := 0, failed := false, again := true }

/-- R477: the full slots of a ring, with the commands that filled them. -/
def Ring.fullSlots (r : Ring) : List (Nat × Option Cmd) :=
  let n := Nat.max 1 r.slots
  let held := (r.heldC.filter (!·.2)).map (·.1)
  let filled := (upTo 0 r.filled).map fun i => (r.cons + i) % n
  (held ++ filled).map fun k => (k, sget r.src none k)

/-- R249: an operand slot as a resume restores it. -/
def OSlot.restored (o : OSlot) : OSlot := if o.state = .filling then {} else o

/-- R249, R477: the commands whose records are run again at a resume. -/
def refetches (t : Slot) : List Cmd :=
  (t.rings.map fun e => if e.2.enabled then e.2.fullSlots.filterMap (·.2) else []).foldr (· ++ ·) [] ++
  t.oslots.filterMap fun e =>
    if e.2.state = .full ∨ e.2.state = .claimed ∨ e.2.state = .releasing then e.2.src else none

def numberCmds : Nat → List Cmd → List Cmd
  | _, [] => []
  | k, c :: cs => redoCmd k c :: numberCmds (k + 1) cs

/-- R476: a stream as a resume restores it: the monitor and the phase's snapshot are not saved, nor what it has counted: of a mask's
RDVs every stream has completed as many (R149), and the barriers of a launch stand with it (R151). -/
def Stream.restored (t : Stream) : Stream :=
  { t with wait := none, age := 0, readyFor := 0, monitor := none, phase := none, rdv := [], lbar := [] }

/-- R412: the arrivals held for a bound window are added, and the window is bound to the job's new slot; whether one
overflowed (R181). -/
def rebind (s : State) (n : Nat) (w : Nat) : State × Bool :=
  let v := sget s.windows {} w
  if !bit v.bind 47 ∨ bits v.bind 0 32 ≠ (s.slot n).job.launchid.toNat then (s, false)
  else
    let place := BitVec.ofNat 64 ((slotCore n / 96) * 2 ^ 43 + (slotCore n % 96) * 2 ^ 36 + (n % 2) * 2 ^ 35)
    let bind := (v.bind &&& ~~~(BitVec.ofNat 64 (0xFFF * 2 ^ 35))) ||| place
    let s1 := { s with windows := sput s.windows w { v with bind := bind, pending := [] } }
    v.pending.foldl (fun (a : State × Bool) e =>
      match (a.1.slot n).addSem e.1 e.2 with
      | some t => (a.1.setSlot n t, a.2)
      | none => (a.1, true)) (s1, false)

/-- The bytes of a saved half of lane memory, or of saved ranges, at the places of a slot. -/
def placeSaved (s : State) (n start : Nat) (sv : Saved) : State :=
  let lanes := sv.lanes.foldl (fun m e => memWrite m (laneKey (n / 2) (e.1 / 512) (e.1 % 512 + 512 * (n % 2))) e.2) s.mem
  { s with mem := sv.part.foldl (fun m e => memWrite m (padKey (n / 2) (start + e.1)) e.2) lanes }

/-- R479: the state of a save area is placed in an admitted slot; `r` is the record that resumes it. -/
def restoreJob (s : State) (n : Nat) (r : TaskRec) (sv : Saved) : State :=
  let t := s.slot n
  let c := n / 2
  let o := sv.slot
  let s1 := placeSaved (clearTiles (clearLanes s n) c t.tilesMask) n t.partStart sv
  let s2 := s1.modCore c fun k =>
    { k with tiles := sv.tiles.foldl (fun m e => sput m e.1 e.2) k.tiles
             ttype := sv.types.foldl (fun m e => sput m e.1 e.2) k.ttype }
  let again := numberCmds s2.cmdCount (refetches o)
  let s4 := { s2 with cmdCount := s2.cmdCount + again.length }.setSlot n { o with
    state := .starting, resuming := true, reserved := none, attachAt := 0, startAt := s.tick
    ctx := t.ctx, launch := t.launch, job := { o.job with prio := r.prio, rampSlot := none }, trapDue := false, prio := r.prio
    rampSlot := BitVec.ofNat 32 r.rampN, oslots := o.oslots.map fun (e : Nat × OSlot) => (e.1, e.2.restored)
    partStart := t.partStart, partLen := t.partLen, trapRec := none, replies := []
    a := o.a.restored, m := o.m.restored, v := o.v.restored
    cq := List.filter (fun c : Cmd => !isFqOp c.op) again ++ o.cq
    fq := List.filter (fun c : Cmd => isFqOp c.op) again ++ o.fq }
  let (s5, isOver) := sv.windows.foldl (fun (a : State × Bool) w => let (x, b) := rebind a.1 n w; (x, a.2 || b)) (s4, false)
  let s6 := dropArrivals { s5 with saves := sdel s5.saves o.saveArea.toNat } n
  if isOver then jobTrap s6 n (engineRecord s6 n 4 0 0 0 Code.semOverflow) else s6

/-- R479: the streams of a restored job restart once its slots are refetched; a released slot whose entries have
completed is EMPTY. -/
def finishRestore (s : State) (n : Nat) : State :=
  let t := s.slot n
  if (t.cq ++ t.fq).any (·.again) ∨ s.tick < t.startAt then s
  else (markJob s n).setSlot n { t with state := .running, resuming := false }

/-- R318, R479: JOB_START. -/
def execJobStart (slot : Nat) (s : State) : Host.Outcome State Fault Refusal :=
  let t := s.slot slot
  if 3072 ≤ slot ∨ t.state ≠ .starting then .next s
  else if t.resuming then .next (finishRestore s slot)
  else if t.job.resume then
    match sfind s.saves t.job.frame.toNat with
    | some sv => .next (finishRestore (restoreJob s slot t.job sv) slot)
    | none => .next (failStart s slot (trapOf Code.illegalOp 0))
  else .next (startNew s slot)

end Sys2Proof.Machine
end

