-- ==== Sys2Proof/Machine/Queues.lean ====
section
/-!
DEFINITION. User queues (chapter 01): records (R17, R18, R38 to R40), notifies (R31, R32, R36), mapping (R33 to R35), fetching
(R19 to R21), the packets (R23 to R28, R390, R391) and packet errors (R29, R30, R532).
-/

namespace Sys2Proof.Machine

/-! ## MSI-X (R538) -/

/-- R538: a message is sent, or becomes pending where its vector is masked. -/
def sendMsix (s : State) (vec : Nat) : State :=
  let v := sget s.msix {} vec
  if v.masked then { s with msix := sput s.msix vec { v with pending := true } } else { s with outbox := s.outbox ++ [.msix vec] }

/-! ## Queues and their records (R17, R18) -/

def State.queue (s : State) (q : Nat) : Queue := sget s.queues {} q
def State.setQ (s : State) (q : Nat) (v : Queue) : State := { s with queues := sput s.queues q v }

/-- The command processors' master for the records (R37), and for a queue's packets (R26). -/
def recordReq : Req := engineReq 2 0
def packetReq (u : Queue) : Req := engineReq 2 u.ctx

def recordAddr (s : State) (q : Nat) : Word := s.qregs.qtbase + BitVec.ofNat 64 (128 * q)

/-- R18: a write of the record; one that faults is dropped and nothing tells of it (log 125). -/
def writeRecord (s : State) (q off : Nat) (bs : List Byte) : State := storeLater s recordReq (recordAddr s q + BitVec.ofNat 64 off) bs

/-- Byte 14 of the record. -/
def Queue.flags (u : Queue) : Nat := b2n u.pending + 2 * b2n u.enabled + 4 * b2n u.errSet

def mirrorFlags (s : State) (q : Nat) : State := writeRecord s q 14 (natBytes 1 (s.queue q).flags)
def mirrorNext (s : State) (q : Nat) : State := writeRecord s q 16 (natBytes 8 (s.queue q).next)
def mirrorRetired (s : State) (q : Nat) : State := writeRecord s q 24 (natBytes 8 (s.queue q).retired)

/-- R40: whether a record lets its queue be enabled. -/
def recordOk (r : List Byte) : Bool :=
  let base := recNat r 0 8
  let n := recNat r 8 1
  decide (4 ≤ n) && decide (n ≤ 16) && decide (base < 2 ^ 60) && base % (128 * 2 ^ n) == 0 &&
    recNat r 9 1 / 4 == 0 && recNat r 10 2 / 4096 == 0 && recNat r 12 2 / 2048 % 16 == 0 &&
    recNat r 14 1 / 8 == 0 && recNat r 15 1 == 0 && decide (recNat r 24 8 ≤ recNat r 16 8)

/-- R38: the queue of a record; its first mapping wakes its fetcher. -/
def queueOf (r : List Byte) (lastMap : Nat) : Queue :=
  { enabled := true, ring := BitVec.ofNat 64 (recNat r 0 8), log2 := recNat r 8 1, prio := recNat r 9 1 % 4, ctx := recNat r 10 2 % 4096
    errvec := if recNat r 12 2 / 2 ^ 15 = 1 then some (recNat r 12 2 % 2048) else none
    next := recNat r 16 8, retired := recNat r 24 8, from_ := (recNat r 16 8, recNat r 24 8), awake := true, lastMap := lastMap }

/-! ## Unmapping (R34) -/

def Packet.type (p : Packet) : Nat := recNat p.bytes 1 1

/-- R34: what an unmap keeps: a started packet, but not a WAIT that has not completed. -/
def Packet.kept (p : Packet) : Bool := p.started && !(p.type == 7 && !p.done)

/-- R34: the queue leaves its hardware slot; fetching stops, NEXT is set back to the first abandoned packet. A fault of
reading the entry at NEXT that is still waiting for earlier packets is met again when the entry is. -/
def Queue.unmap (u : Queue) (pending : Bool) : Queue :=
  let keep := u.packets.takeWhile (·.kept)
  let next := match u.packets.drop keep.length with | p :: _ => p.idx | [] => u.next
  { u with slot := none, packets := keep, next := next, pending := u.pending || pending, awake := false, invalid := none
           error := u.error.filter (!·.entry) }

def unmapQueue (s : State) (q : Nat) (pending : Bool) : State :=
  let s1 := s.setQ q ((s.queue q).unmap pending)
  mirrorFlags (mirrorNext s1 q) q

/-! ## Retiring and errors (R25, R29, R30) -/

/-- R25: the leading packets that have completed; one that failed counts only once its error has been written (`settleError`). -/
def dropDone : Nat → List Packet → Nat × List Packet
  | n, p :: ps => if p.done ∧ !p.failed then dropDone (n + 1) ps else (n, p :: ps)
  | n, [] => (n, [])

/-- R25: RETIRED advances over the leading packets that have completed. -/
def retire (s : State) (q : Nat) : State :=
  let u := s.queue q
  let (n, ps) := dropDone u.retired u.packets
  if n = u.retired then s
  else
    mirrorRetired (s.setQ q { u with retired := n, packets := ps }) q

/-- R29: the error is written once every other started packet has completed: for a fault of reading an entry, once every
packet before it has. -/
def settleError (s : State) (q : Nat) : State :=
  let u := s.queue q
  match u.error with
  | none => s
  | some e =>
    let waits := if e.entry then u.packets.any (!·.done) else u.packets.any fun p => p.started && !p.done
    if u.errSet ∨ waits then s
    else
      let next := if e.entry then e.idx else match u.packets.find? (!·.started) with | some p => p.idx | none => u.next
      let s1 := s.setQ q { u with packets := [], next := next, retired := next, errSet := true, slot := none, awake := false, invalid := none }
      let s2 := writeRecord (writeRecord s1 q 32 (natBytes 1 e.code)) q 40 (natBytes 8 e.idx ++ natBytes 4 e.tag)
      let s3 := mirrorFlags (mirrorRetired (mirrorNext s2 q) q) q
      match u.errvec with
      | some v => sendMsix s3 v
      | none => s3

/-- The packet of a count changes. -/
def modPacket (s : State) (q idx : Nat) (f : Packet → Packet) : State :=
  let u := s.queue q
  s.setQ q { u with packets := u.packets.map fun p => if p.idx = idx then f p else p }

/-- R29: a packet fails: the queue stops, and a started WAIT after it counts as not started. Only the first error stops
it; one at an entry gives way to one of an earlier packet. -/
def failPacket (s : State) (q idx : Nat) (f : Trap) : State :=
  let s1 := modPacket s q idx ({ · with started := true, done := true, failed := true })
  let u := s1.queue q
  let tag := match u.packets.find? (·.idx == idx) with | some p => recNat p.bytes 4 4 | none => 0
  let first := match u.error with | none => true | some e => e.entry
  let err : Option QueueError := if first then some ⟨f.code, idx, tag, false⟩ else u.error
  let ps := u.packets.map fun p => if idx < p.idx ∧ p.type = 7 ∧ !p.done then { p with started := false } else p
  settleError (s1.setQ q { u with error := err, packets := ps }) q

/-- R34: with the last of its packets complete and no valid entry at NEXT, a queue is idle from now on. -/
def Queue.rest (u : Queue) (tick : Nat) : Queue := if u.packets.all (·.done) && u.invalid.isSome then { u with idleFrom := tick } else u

/-- A packet completes; RETIRED follows by `packetComplete`. -/
def donePacket (s : State) (q idx : Nat) : State :=
  let s1 := modPacket s q idx ({ · with started := true, done := true })
  settleError (s1.setQ q ((s1.queue q).rest s.tick)) q

/-! ## QCMD (R37 to R40) -/

def rejectQ (s : State) : State := { s with qregs := { s.qregs with reject := true } }

/-- R37: a QCMD operation is in progress. -/
def QueueRegs.inProgress (r : QueueRegs) : Bool := r.busy.isSome || r.enabling.isSome

/-- R38, R40: the ENABLE of a queue; one whose record a channel holds (R518) stays in progress. -/
def enableQueue (s : State) (q : Nat) : State :=
  let idle : State := readied { s with qregs := { s.qregs with enabling := none } } recordReq (recordAddr s q) 128
  match loadAll s recordReq (recordAddr s q) 128 with
  | .error t => if t.code = 0 then { s with qregs := { s.qregs with enabling := some q } } else rejectQ idle
  | .ok (r, _) => if recordOk r then mirrorFlags (idle.setQ q (queueOf r (s.queue q).lastMap)) q else rejectQ idle

/-- R38, R40: QCMD ENABLE. QID has 12 bits (R37): there is no write for a higher number. -/
def execEnable (m : Master) (q : Nat) (s : State) : Host.Outcome State Fault Refusal :=
  if !barWritable s m 0x100008 ∨ 4096 ≤ q then .next s
  else if mgmtWaits s m then .next s.stall
  else if s.qregs.inProgress ∨ (s.queue q).enabled then .next (rejectQ s)
  else .next (enableQueue s q)

/-- R39: QCMD DISABLE. -/
def execDisable (m : Master) (q : Nat) (s : State) : Host.Outcome State Fault Refusal :=
  if !barWritable s m 0x100008 ∨ 4096 ≤ q then .next s
  else if mgmtWaits s m then .next s.stall
  else if s.qregs.inProgress ∨ !(s.queue q).enabled then .next (rejectQ s)
  else
    let s1 := if (s.queue q).slot.isSome then unmapQueue s q false else s
    .next (settleError { s1 with qregs := { s1.qregs with busy := some q } } q)

/-- R39: the end of DISABLE. -/
def execDisableComplete (s : State) : Host.Outcome State Fault Refusal :=
  match s.qregs.busy with
  | none => .next s
  | some q =>
    let s1 := retire s q
    let u := s1.queue q
    if u.slot.isSome ∨ u.packets.any (fun p => p.started && !p.done) ∨ (u.error.isSome ∧ !u.errSet) then .next s1
    else
      let s2 := s1.setQ q { u with enabled := false }
      let s3 := mirrorFlags (mirrorRetired (mirrorNext s2 q) q) q
      .next { s3 with qregs := { s3.qregs with busy := none }, queues := sput s3.queues q { ({} : Queue) with lastMap := u.lastMap } }

/-! ## Mapping (R33 to R35) -/

/-- R532: minimal mode maps hardware slots of command processor 0 alone. -/
def hwSlots (s : State) : List Nat := (upTo 0 256).filter fun h => !s.boot.minimal || h % 4 == 0

def freeHw (s : State) : Option Nat := (hwSlots s).find? fun h => !s.queues.any fun e => e.2.slot == some h

def mappable (s : State) (q : Nat) (u : Queue) : Bool :=
  u.enabled && u.slot.isNone && u.error.isNone && s.qregs.busy != some q

/-- R33: whether queue `a` is chosen before queue `b`. -/
def before (a b : Queue) : Bool :=
  if a.prio ≠ b.prio then decide (a.prio < b.prio)
  else if a.pending ≠ b.pending then a.pending
  else decide (a.lastMap < b.lastMap)

/-- R33: the first by `before`; of queues that are equal there, the lowest-numbered (log 126). -/
def bestQueue : List (Nat × Queue) → Option (Nat × Queue)
  | [] => none
  | e :: t => match bestQueue t with
    | none => some e
    | some f => if before f.2 e.2 then some f else some e

def nextQueue (s : State) : Option (Nat × Queue) := bestQueue (s.queues.filter fun e => mappable s e.1 e.2)

/-- R34: the mapped queue with the highest PRIO, the least recently mapped of those. -/
def victimQueue : List (Nat × Queue) → Option (Nat × Queue)
  | [] => none
  | e :: t => match victimQueue t with
    | none => some e
    | some f => if e.2.prio < f.2.prio ∨ (e.2.prio = f.2.prio ∧ f.2.lastMap < e.2.lastMap) then some f else some e

/-- R35: step 1: what the record gives a queue. NEXT and RETIRED are the command processor's own while packets of the queue are
under way; a record that cannot be read, or that no ENABLE would take, leaves what the queue has (log 62). -/
def loadRecord (s : State) (q : Nat) (u : Queue) : Except Trap Queue :=
  match loadAll s recordReq (recordAddr s q) 128 with
  | .error t => if t.code = 0 then .error t else .ok u
  | .ok (r, _) =>
    if !recordOk r then .ok u
    else
      let v := queueOf r u.lastMap
      let w := { u with ring := v.ring, log2 := v.log2, prio := v.prio, ctx := v.ctx, errvec := v.errvec, pending := recNat r 14 1 % 2 == 1 }
      .ok (if u.packets = [] then { w with next := v.next, retired := v.retired } else w)

/-- R35: a queue is mapped on a free slot. -/
def mapQueue (s : State) (q h : Nat) (u : Queue) : State :=
  let s1 := s.setQ q { u with slot := some h, lastSlot := h, awake := u.awake || u.pending, pending := false, invalid := none
                              idleFrom := s.tick, mappedAt := s.tick, lastMap := s.mapCount + 1 }
  let s2 := { s1 with mapCount := s.mapCount + 1 }
  if u.pending then mirrorFlags s2 q else s2

/-- R33, R34: the scheduler's turn: the best candidate is mapped; where no slot is free, a queue of a higher PRIO value is unmapped
for it. -/
def schedule (s : State) : State :=
  match nextQueue s, freeHw s with
  | none, _ => s
  | some (q, u), some h => (match loadRecord s q u with
    | .error _ => s.stall
    | .ok u1 => mapQueue (readied s recordReq (recordAddr s q) 128) q h u1)
  | some (_, u), none =>
    match victimQueue (s.queues.filter (·.2.slot.isSome)) with
    | some (v, w) => if u.prio < w.prio then unmapQueue s v true else s
    | none => s

/-- R33 to R35, R38: QUEUE_MAP: an ENABLE that waits for its record goes on, and the scheduler has its turn. -/
def execQueueMap (s : State) : Host.Outcome State Fault Refusal :=
  let s1 := match s.qregs.enabling with | some q => enableQueue s q | none => s
  .next (if classPaused s1 0 then s1 else schedule s1)

/-- The queue that a hardware slot holds. -/
def queueAt (s : State) (h : Nat) : Option (Nat × Queue) := s.queues.find? fun e => e.2.slot == some h

/-- R34: IDLE_UNMAP. -/
def execIdleUnmap (h : Nat) (s : State) : Host.Outcome State Fault Refusal :=
  match queueAt s h with
  | some (q, u) =>
    if !classPaused s 0 ∧ !u.awake ∧ u.packets.all (·.done) ∧ 64 * us ≤ s.tick - u.idleFrom then .next (unmapQueue s q false) else .next s
  | none => .next s

/-- R34: TIMESLICE_UNMAP. -/
def execTimesliceUnmap (h : Nat) (s : State) : Host.Outcome State Fault Refusal :=
  match queueAt s h with
  | some (q, u) =>
    let waiting := (freeHw s).isNone && s.queues.any fun e => mappable s e.1 e.2 && e.2.prio == u.prio
    if !classPaused s 0 ∧ waiting ∧ 1000 * us ≤ s.tick - u.mappedAt then .next (unmapQueue s q true) else .next s
  | none => .next s

/-! ## WAIT (R26) -/

def Packet.word (p : Packet) (o : Nat) : Word := BitVec.ofNat 64 (recNat p.bytes o 8)

/-- R29: an address of a packet lies in space 0x0. -/
def spaceFault (a : Word) : Option Trap := if a.toNat / 2 ^ 60 ≠ 0 then some (trapOf Code.space 0 a) else none

/-- R29: an 8-byte address of a packet. Of one that is both misaligned and outside space 0x0, MISALIGN is reported (log 128). -/
def word8Fault (a : Word) : Option Trap := if a.toNat % 8 ≠ 0 then some (trapOf Code.misalign 0 a) else spaceFault a

/-- R26: the condition of a WAIT. -/
def waitHolds (s : State) (u : Queue) (p : Packet) : Except Trap Bool :=
  match word8Fault (p.word 8) with
  | some f => .error f
  | none => (loadAll s (packetReq u) (p.word 8) 8).map fun r =>
    let v := leWord r.1 &&& p.word 32
    match recNat p.bytes 16 1 with
    | 0 => v == p.word 24
    | 1 => v != p.word 24
    | 2 => decide ((p.word 24).toNat ≤ v.toNat)
    | _ => decide (v.toNat < (p.word 24).toNat)

/-- The WAIT that holds a queue back. -/
def Queue.waiting (u : Queue) : Option Packet := u.packets.find? fun p => p.started && !p.done && p.type == 7

/-- The read of a WAIT's word reaches the L2 (R335, R343). -/
def waitRead (s : State) (u : Queue) (p : Packet) : State := readied s (packetReq u) (p.word 8) 8

/-- A WAIT is evaluated once more; `late` says that its time is out unless it holds. -/
def recheck (s : State) (q : Nat) (late : Bool) : State :=
  let u := s.queue q
  match u.waiting with
  | none => s
  | some p =>
    match waitHolds s u p with
    | .error t => if t.code = 0 then s else failPacket s q p.idx t
    | .ok true => donePacket (waitRead s u p) q p.idx
    | .ok false => if late then failPacket (waitRead s u p) q p.idx (trapOf Code.watchdog 0) else modPacket (waitRead s u p) q p.idx ({ · with checked := s.tick })

def execWaitRecheck (h : Nat) (s : State) : Host.Outcome State Fault Refusal :=
  match queueAt s h with
  | some (q, u) => (match u.waiting with
    | some p => if us ≤ s.tick - p.checked then .next (recheck s q false) else .next s
    | none => .next s)
  | none => .next s

def execWaitTimeout (h : Nat) (s : State) : Host.Outcome State Fault Refusal :=
  match queueAt s h with
  | some (q, u) => (match u.waiting with
    | some p =>
      let n := recNat p.bytes 20 4
      if n ≠ 0 ∧ n * us ≤ s.tick - p.since then .next (recheck s q true) else .next s
    | none => .next s)
  | none => .next s

/-! ## Notifies (R31, R32, R36, R40, R528) -/

def execNotify (m : Master) (q : Nat) (s : State) : Host.Outcome State Fault Refusal :=
  let u := s.queue q
  if 4096 ≤ q ∨ !hedgeOk s 23 m.toNat .w (4096 * q) ∨ !u.enabled ∨ u.errSet then .next s
  else match u.slot with
    | none => .next (mirrorFlags (s.setQ q { u with pending := true }) q)
    | some h =>
      if classPaused s 0 then .next (notePending s h)
      else .next (recheck (s.setQ q { u with awake := true }) q false)

/-! ## BAR2's ring area (R31) -/

/-- A host access to bytes of module memory, at a physical address that some table has granted: the bytes read, or none
for a write. -/
def hostAccess (s : State) (a : Nat) (op : HostOp) : State :=
  match op with
  | .read n =>
    if !readReady s a n then s.stall
    else { s with outbox := s.outbox ++ [.hostRead (readBytes s.mem a n) (touchesPoison s { key := a, len := n })] }
  | .write bs => hostWrite s a bs

def HostOp.len : HostOp → Nat | .read n => n | .write bs => bs.length
def HostOp.acc : HostOp → Acc | .read _ => .r | .write _ => .w

/-- R507: a denied access has no effect, and its data is zero. -/
def hostDenied (s : State) : HostOp → State
  | .read n => { s with outbox := s.outbox ++ [.hostRead (List.replicate n 0) false] }
  | .write _ => s

def hostMaster : Nat := 6

/-- R532: in minimal mode without a stack only BAR0 and the management transports answer. -/
def bar0Only (s : State) : Bool := s.boot.minimal && s.boot.stack == 15

/-- R31: a host access to a notify page: it reads 0, and a write of its offset 0 is a notify. -/
def notifyPage (off : Nat) (op : HostOp) (s : State) : Host.Outcome State Fault Refusal :=
  match op with
  | .read _ => .next (hostDenied s op)
  | .write _ => if off % 4096 = 0 then execNotify (BitVec.ofNat 16 hostMaster) (off / 4096) s else .next s

/-- R31: BAR2. The ring area lies in HBM: an address of it elsewhere is denied (log 127). -/
def execBar2RingAccess (off : Nat) (op : HostOp) (s : State) : Host.Outcome State Fault Refusal :=
  let a := s.qregs.ringwin.toNat + (off - 0x1000000)
  if bar0Only s then .next s
  else if off < 0x1000000 then notifyPage off op s
  else if 0x2000000 < off + HostOp.len op then .next s
  else if !hedgeOk s 23 hostMaster (HostOp.acc op) off ∨ !isHbm a then .next (hostDenied s op)
  else .next (hostAccess s a op)

/-! ## Fetching (R19 to R22, R32) -/

def Queue.entryAddr (u : Queue) (n : Nat) : Word := u.ring + BitVec.ofNat 64 (128 * (n % 2 ^ u.log2))

/-- R19: the lap phase of a packet count. -/
def Queue.phase (u : Queue) (n : Nat) : Nat := 1 - n / 2 ^ u.log2 % 2

/-- R29: a fault of reading a ring entry. -/
def entryError (s : State) (q : Nat) (f : Trap) : State :=
  let u := s.queue q
  settleError (s.setQ q { u with error := some ⟨f.code, u.next, 0, true⟩, awake := false }) q

/-- R20, R21: ENTRY_FETCH. -/
def execEntryFetch (h : Nat) (s : State) : Host.Outcome State Fault Refusal :=
  match queueAt s h with
  | none => .next s
  | some (q, u) =>
    if !u.awake ∨ u.error.isSome ∨ classPaused s 0 then .next s
    else
      let fail (t : Trap) : Host.Outcome State Fault Refusal := if t.code = 0 then .next s else .next (entryError s q t)
      match loadAll s (packetReq u) (u.entryAddr u.next) 1 with
      | .error t => fail t
      | .ok (b, _) =>
        if bytesNat b % 2 ≠ u.phase u.next then
          let idle := u.invalid.isNone && u.packets.all (·.done)
          .next ((readied s (packetReq u) (u.entryAddr u.next) 1).setQ q { u with awake := false, invalid := some s.tick, idleFrom := if idle then s.tick else u.idleFrom })
        else match loadAll s (packetReq u) (u.entryAddr u.next) 128 with
          | .error t => fail t
          | .ok (bs, _) =>
            .next ((readied s (packetReq u) (u.entryAddr u.next) 128).setQ q { u with packets := u.packets ++ [{ idx := u.next, bytes := bs }], next := u.next + 1, invalid := none })

/-- R32: FETCH_POLL. -/
def execFetchPoll (h : Nat) (s : State) : Host.Outcome State Fault Refusal :=
  match queueAt s h with
  | some (q, u) => (match u.invalid with
    | some t => if 2 * us ≤ s.tick - t ∧ !u.awake then .next (s.setQ q { u with awake := true }) else .next s
    | none => .next s)
  | none => .next s

/-! ## Starting packets (R23 to R25, R29) -/

/-- R24: the bytes of a packet's body that its type uses, with the bits of each. -/
def bodyMask (ty : Nat) : List (Nat × Nat × Nat) :=
  match ty with
  | 1 => [(8, 8, 255)]
  | 2 => [(8, 12, 255)]
  | 3 => [(8, 9, 255), (32, 96, 255)]
  | 4 => [(8, 16, 255), (24, 1, 3), (32, 16, 255)]
  | 5 => [(8, 24, 255)]
  | 6 => [(8, 9, 255), (18, 1, 255), (19, 1, 0x87), (24, 8, 255)]
  | 7 => [(8, 9, 255), (20, 20, 255)]
  | 9 => [(8, 8, 255)]
  | 10 => [(8, 8, 255)]
  | _ => []

/-- The bits of a packet's byte that must be 0. -/
def reservedBits (ty i : Nat) : Nat :=
  255 - match (bodyMask ty).find? fun e => decide (e.1 ≤ i) && decide (i < e.1 + e.2.1) with
    | some e => e.2.2
    | none => 0

/-- R29: the ILLEGAL_OP cases of a packet. -/
def badPacket (p : Packet) : Bool :=
  let b := p.bytes
  let ty := p.type
  decide (10 < ty) || recNat b 0 1 / 2 != 0 || recNat b 2 1 / 2 != 0 || recNat b 3 1 != 0 ||
    (upTo 8 120).any (fun i => recNat b i 1 &&& reservedBits ty i != 0) ||
    (ty == 3 && (recNat b 16 1 == 0 || decide (96 < recNat b 16 1))) ||
    (ty == 4 && decide (2 ^ 40 < recNat b 16 8)) || (ty == 5 && decide (2 ^ 40 < recNat b 24 8)) ||
    (ty == 6 && decide (2 < recNat b 16 1)) || (ty == 7 && decide (3 < recNat b 16 1))

/-- R25: whether a packet waits for every earlier one. -/
def Packet.ordered (p : Packet) : Bool := (recNat p.bytes 2 1).testBit 0 || p.type == 8 || p.type == 6 || p.type == 10

/-- R25: the packet that may start now. -/
def Queue.startable (u : Queue) : Option Packet :=
  match u.packets.find? (!·.started) with
  | none => none
  | some p =>
    if u.waiting.isSome ∨ (p.ordered ∧ u.packets.any fun r => r.started && !r.done) then none else some p

/-- A packet of a type starts on a hardware slot; a bad one stops the queue. `f` gives what it does, done or under way. -/
def runPacket (s : State) (h ty : Nat) (f : State → Nat → Queue → Packet → State) : Host.Outcome State Fault Refusal :=
  match queueAt s h with
  | none => .next s
  | some (q, u) =>
    if classPaused s 0 ∨ u.error.any (!·.entry) then .next s
    else match u.startable with
      | none => .next s
      | some p =>
        if p.type ≠ ty ∧ p.type ≤ 10 then .next s
        else if badPacket p then .next (failPacket s q p.idx (trapOf Code.illegalOp 0))
        else if s.boot.minimal ∧ (ty = 1 ∨ ty = 2 ∨ ty = 9) then .next (failPacket s q p.idx (trapOf Code.illegalOp 0x0E))
        else .next (f s q u p)

/-- A packet whose effect is a single access or none: it completes, or fails; an access that a channel holds is made
again. -/
def finishPacket (s : State) (q idx : Nat) : State × Option Trap → State
  | (s1, none) => donePacket s1 q idx
  | (s1, some t) => if t.code = 0 then s else failPacket s1 q idx t

/-! ## The packets of memory (R26) -/

/-- Writes the bytes up to the first block that cannot be written. -/
def storeRun (s : State) (r : Req) : Nat → Word → List Byte → State × Option Trap
  | 0, _, _ => (s, none)
  | fuel + 1, a, bs =>
    if bs = [] then (s, none)
    else
      let k := 65536 - a.toNat % 65536
      match spaceFault a with
      | some f => (s, some f)
      | none => match storeAll s r a (bs.take k) with
        | .error t => (s, some t)
        | .ok s1 => storeRun s1 r fuel (a + BitVec.ofNat 64 k) (bs.drop k)

def storeRunAll (s : State) (r : Req) (a : Word) (bs : List Byte) : State × Option Trap := storeRun s r (bs.length / 65536 + 2) a bs

/-- A read of a run, every byte in space 0x0. -/
def loadRun (s : State) (r : Req) (a : Word) (n : Nat) : Except Trap (List Byte × List (Nat × Nat)) :=
  match spaceFault a with
  | some f => .error f
  | none => loadAll s r a n

/-- The poison of what was read goes with what was written (R497). -/
def poisonRun (s : State) (r : Req) (a : Word) (n : Nat) (bad : List (Nat × Nat)) : State :=
  if bad = [] then s else (match resolve s r .w a a n with | .ok ps => spreadRuns s bad 0 ps | .error _ => s)

/-- R26: COPY, of a packet or a node. -/
def copyRun (s : State) (r : Req) (src dst : Word) (n : Nat) : State × Option Trap :=
  if n = 0 then (s, none)
  else match loadRun s r src n with
    | .error t => (s, some t)
    | .ok (bs, bad) => match storeRunAll (readied s r src n) r dst bs with
      | (s1, none) => (poisonRun s1 r dst n bad, none)
      | e => e

def fillBytes (w value step : Nat) (n : Nat) : List Byte :=
  ((upTo 0 n).map fun i => natBytes w (value + i * step)).foldr (· ++ ·) []

/-- R26: FILL. -/
def fillRun (s : State) (r : Req) (p : Packet) : State × Option Trap :=
  let w := 2 ^ recNat p.bytes 24 1
  if (p.word 8).toNat % w ≠ 0 then (s, some (trapOf Code.misalign 0 (p.word 8)))
  else storeRunAll s r (p.word 8) (fillBytes w (recNat p.bytes 32 8) (recNat p.bytes 40 8) (recNat p.bytes 16 8))

/-- R26: the write and the message of a SIGNAL, of a packet or a node. The ADDR of one whose OP is NONE is not looked at
(log 129). -/
def signalRun (s : State) (r : Req) (op : Nat) (a v : Word) (msi : Nat) : State × Option Trap :=
  let send (s : State) : State := if msi.testBit 15 then sendMsix s (msi % 2048) else s
  match op with
  | 0 => (send s, none)
  | _ => match word8Fault a with
    | some f => (s, some f)
    | none => match resolve s r (if op = 1 then .w else .rw) a a 8 with
      | .error t => (s, some t)
      | .ok ps =>
        let x := if op = 1 then v else leWord (piecesBytes s ps) + v
        (send (writePieces (walked s r a.toNat 8) r ps (natBytes 8 x.toNat)), none)

def execNopPacket (h : Nat) (s : State) : Host.Outcome State Fault Refusal :=
  runPacket s h 0 fun s q _ p => donePacket s q p.idx

def execFencePacket (h : Nat) (s : State) : Host.Outcome State Fault Refusal :=
  runPacket s h 8 fun s q _ p => donePacket s q p.idx

def execWritePacket (h : Nat) (s : State) : Host.Outcome State Fault Refusal :=
  runPacket s h 3 fun s q u p =>
    finishPacket s q p.idx (storeRunAll s (packetReq u) (p.word 8) ((p.bytes.drop 32).take (recNat p.bytes 16 1)))

def execFillPacket (h : Nat) (s : State) : Host.Outcome State Fault Refusal :=
  runPacket s h 4 fun s q u p => finishPacket s q p.idx (fillRun s (packetReq u) p)

def execCopyPacket (h : Nat) (s : State) : Host.Outcome State Fault Refusal :=
  runPacket s h 5 fun s q u p => finishPacket s q p.idx (copyRun s (packetReq u) (p.word 8) (p.word 16) (recNat p.bytes 24 8))

def execSignalPacket (h : Nat) (s : State) : Host.Outcome State Fault Refusal :=
  runPacket s h 6 fun s q u p =>
    finishPacket s q p.idx (signalRun s (packetReq u) (recNat p.bytes 16 1) (p.word 8) (p.word 24) (recNat p.bytes 18 2))

def execTimestampPacket (h : Nat) (s : State) : Host.Outcome State Fault Refusal :=
  runPacket s h 10 fun s q u p =>
    finishPacket s q p.idx (signalRun s (packetReq u) 1 (p.word 8) (BitVec.ofNat 64 s.tick) 0)

/-- R26: a WAIT starts. One that an unmap abandoned counts its TIMEOUT from its new start (log 130). -/
def execWaitPacket (h : Nat) (s : State) : Host.Outcome State Fault Refusal :=
  runPacket s h 7 fun s q u p =>
    match waitHolds s u p with
    | .error t => if t.code = 0 then s else failPacket s q p.idx t
    | .ok true => donePacket (waitRead s u p) q p.idx
    | .ok false => modPacket (waitRead s u p) q p.idx ({ · with started := true, since := s.tick, checked := s.tick })

/-! ## LAUNCH (R27) -/

def execLaunchPacket (h : Nat) (s : State) : Host.Outcome State Fault Refusal :=
  runPacket s h 1 fun s q u p =>
    match spaceFault (p.word 8) with
    | some f => failPacket s q p.idx f
    | none => match submitLaunch s u.ctx (p.word 8) (.packet q p.idx) none with
      | .error t => if t.code = 0 then s else failPacket s q p.idx t
      | .ok s1 => modPacket s1 q p.idx ({ · with started := true, launch := some s.nextLaunch })

/-! ## SEGADMIN (R390, R391) -/

/-- R390: the reserved fields and values of a record that stop the queue. -/
def badAdmin (r : List Byte) : Bool :=
  let op := recNat r 0 1
  let spec := recNat r 16 8
  let dom := recNat r 24 2
  let lv := spec / 2 ^ 15 % 4
  decide (3 < op) || recNat r 1 7 != 0 || recNat r 14 2 != 0 || recNat r 26 6 != 0 || recNat r 34 6 != 0 ||
    recNat r 48 8 != 0 || recNat r 56 8 != 0 || (op != 0 && spec != 0) ||
    (op == 0 && ((lv == 0 && decide (1536 ≤ dom)) || (lv == 1 && decide (16 ≤ dom)) || (lv == 2 && dom != 0)))

/-- The record's outcome is written: STATUS, SUB, RESULT; the packet completes. -/
def finishAdmin (s : State) (q : Nat) (u : Queue) (p : Packet) (f : Nat × Nat) (v : Word) : State :=
  let r := packetReq u
  match storeAll s r (p.word 8 + 32) (natBytes 1 f.1 ++ natBytes 1 f.2) with
  | .error t => if t.code = 0 then s else failPacket s q p.idx t
  | .ok s1 => match storeAll s1 r (p.word 8 + 40) (natBytes 8 v.toNat) with
    | .error t => if t.code = 0 then s else failPacket s1 q p.idx t
    | .ok s2 => donePacket s2 q p.idx

/-- R390: the base address of a new tarn; a core-level one is given as the run's offset. -/
def adminBase (t : Tarn) : Word := if t.level = 0 then BitVec.ofNat 64 t.run else t.base 0

/-- R391: NEW: the tarn fills, with no attachment. The room that it asks for is an allocation like any other (R379, R383); while
that waits, the record goes on at a later event. -/
def adminNew (s : State) (q : Nat) (u : Queue) (p : Packet) (r : List Byte) : State :=
  let v : Word := BitVec.ofNat 64 (recNat r 16 8)
  let who := Asker.admin q p.idx
  if specBad v ∨ bits v 17 2 ≤ 1 then finishAdmin s q u p (Code.illegalOp, 0x0A) 0
  else match newTarn s u.ctx (recNat r 8 6) (recNat r 24 2) v (.auto none (recordAsker q p.idx)) with
    | .made s1 t => modPacket (putTarn s1 { t with askedBy := some who }) q p.idx ({ · with adminVal := adminBase t, since := 1 })
    | .wait s1 => s1
    | .fail f s1 => finishAdmin s1 q u p (f.code, f.sub.toNat) 0

/-- What an EVICT or a DROP comes to. -/
def adminSeg (s : State) (q : Nat) (u : Queue) (p : Packet) : Seg → State
  | .done s1 => finishAdmin s1 q u p (0, 0) 0
  | .wait s1 => s1
  | .fail f => finishAdmin s q u p (f.code, f.sub.toNat) 0

def adminOp (s : State) (q : Nat) (u : Queue) (p : Packet) (r : List Byte) : State :=
  let name := recNat r 8 6
  match recNat r 0 1 with
  | 0 => adminNew s q u p r
  | 1 => adminSeg s q u p (segEvict s u.ctx name (.admin q p.idx))
  | 2 => adminSeg s q u p (segDrop s u.ctx name (.admin q p.idx))
  | _ => finishAdmin s q u p (0, 0) (tarnWord s u.ctx name)

/-- A SEGADMIN packet that has started goes on. -/
def adminStep (s : State) (q : Nat) (u : Queue) (p : Packet) (op : Nat) : State :=
  match p.admin with
  | some f => finishAdmin s q u p f (if f = (0, 0) then p.adminVal else 0)
  | none =>
    if p.since ≠ 0 then s
    else match loadRun s (packetReq u) (p.word 8) 64 with
      | .error t => if t.code = 0 then s else failPacket s q p.idx t
      | .ok (r, _) =>
        let s1 := readied s (packetReq u) (p.word 8) 64
        if badAdmin r then failPacket s1 q p.idx (trapOf Code.illegalOp 0) else if recNat r 0 1 = op then adminOp s1 q u p r else s

/-- The SEGADMIN packets of a hardware slot that have started and have not completed, by queue and count. -/
def adminRunning (s : State) (h : Nat) : List (Nat × Nat) :=
  (s.queues.map fun e =>
    if e.2.lastSlot = h ∧ e.2.enabled then (e.2.packets.filter fun p => p.started && !p.done && p.type == 9).map fun p => (e.1, p.idx)
    else []).foldr (· ++ ·) []

/-- One of them goes on. -/
def adminGoOn (op : Nat) (s : State) (e : Nat × Nat) : State :=
  match (s.queue e.1).packets.find? (·.idx == e.2) with
  | some p => adminStep s e.1 (s.queue e.1) p op
  | none => s

/-- R391: a SEGADMIN event of an operation: the next packet starts, and those that run go on. -/
def adminEvent (s : State) (h op : Nat) : Host.Outcome State Fault Refusal :=
  let s1 := (adminRunning s h).foldl (adminGoOn op) s
  runPacket s1 h 9 fun s q u p =>
    if (p.word 8).toNat % 64 ≠ 0 then failPacket s q p.idx (trapOf Code.misalign 0 (p.word 8))
    else adminStep (modPacket s q p.idx ({ · with started := true })) q u p op

def execSegadminNew (h : Nat) (s : State) : Host.Outcome State Fault Refusal := adminEvent s h 0
def execSegadminEvict (h : Nat) (s : State) : Host.Outcome State Fault Refusal := adminEvent s h 1
def execSegadminDrop (h : Nat) (s : State) : Host.Outcome State Fault Refusal := adminEvent s h 2
def execSegadminQuery (h : Nat) (s : State) : Host.Outcome State Fault Refusal := adminEvent s h 3

/-! ## Completion (R25, R27) -/

/-- R27: whether what a packet waits for is over. -/
def Packet.isOver (s : State) (p : Packet) : Bool :=
  p.started && !p.done &&
    match p.launch, p.graph with
    | some l, _ => (s.launch l).isNone
    | none, some g => (sfind s.graphs g).isNone
    | none, none => false

/-- R25, R27: PACKET_COMPLETE, for packet `n` of a queue that the hardware slot holds or held last. -/
def execPacketComplete (h n : Nat) (s : State) : Host.Outcome State Fault Refusal :=
  let moves (u : Queue) (p : Packet) : Bool := p.idx == n && (p.isOver s || (p.done && (dropDone u.retired u.packets).1 != u.retired))
  match s.queues.find? fun e => e.2.enabled && e.2.lastSlot == h && e.2.packets.any (moves e.2) with
  | none => .next s
  | some (q, u) =>
    let s1 := if u.packets.any fun p => p.idx == n && p.isOver s then donePacket s q n else s
    .next (retire s1 q)

end Sys2Proof.Machine
end

