-- ==== Sys2Proof/Machine/Graphs.lean ====
section
/-!
DEFINITION. Resident graphs (chapter 08): the table (R277 to R282), the start of nodes (R285), completions (R284), loops (R286), the end
of a graph (R283) and failures (R290).
-/

namespace Sys2Proof.Machine

/-! ## The table (R277 to R279, R281) -/

def GNode.type (n : GNode) : Nat := recNat n.bytes 0 1
def GNode.preds (n : GNode) : Nat := recNat n.bytes 2 2
def GNode.word (n : GNode) (o : Nat) : Word := BitVec.ofNat 64 (recNat n.bytes o 8)

/-- The entries of a successor set. -/
def GNode.succ (n : GNode) (set : Nat) : List Nat :=
  let k := recNat n.bytes 7 1 / 16 ^ set % 8
  (upTo 0 (min k 4)).map fun i => recNat n.bytes (8 + 8 * set + 2 * i) 2

/-- The bytes of a body that its type uses, as (offset, length). -/
def nodeBody (ty : Nat) : List (Nat × Nat) :=
  match ty with
  | 0 => [(24, 8)]
  | 1 => [(24, 24)]
  | 2 => [(24, 17), (42, 2)]
  | 3 => [(24, 8)]
  | 4 => [(24, 18)]
  | _ => []

/-- R281: whether a node's entry holds something that the table may not. -/
def badNode (b : List Byte) (nodes i : Nat) : Bool :=
  let n : GNode := { bytes := b }
  let ty := n.type
  let ns (s : Nat) : Nat := recNat b 7 1 / 16 ^ s % 8
  let used (o : Nat) : Bool := (nodeBody ty).any fun e => decide (e.1 ≤ o) && decide (o < e.1 + e.2)
  let first := recNat b 36 2
  let last := recNat b 38 2
  decide (6 < ty) || recNat b 1 1 != 0 || recNat b 6 1 / 8 != 0 || recNat b 7 1 &&& 0x88 != 0 || recNat b 54 2 != 0 ||
    decide (4 < ns 0) || decide (4 < ns 1) ||
    (upTo 0 4).any (fun j => (decide (ns 0 ≤ j) && recNat b (8 + 2 * j) 2 != 0) || (decide (ns 1 ≤ j) && recNat b (16 + 2 * j) 2 != 0)) ||
    (n.succ 0 ++ n.succ 1).any (fun k => decide (nodes ≤ k)) ||
    (upTo 24 24).any (fun o => !used o && recNat b o 1 != 0) ||
    (ty == 1 && decide (2 ^ 40 < recNat b 40 8)) ||
    (ty == 2 && (decide (2 < recNat b 40 1) || recNat b 42 2 / 2048 % 16 != 0)) ||
    (ty == 4 && (recNat b 32 4 == 0 || recNat b 40 2 == 0 || decide (last < first) || decide (nodes ≤ last) ||
      (decide (first ≤ i) && decide (i ≤ last))))

def badTable (hdr : List Byte) (ns : List (List Byte)) (entry : Nat) : Bool :=
  let n := recNat hdr 0 2
  let fault := recNat hdr 2 2
  decide (n ≤ entry) || (decide (n ≤ fault) && fault != 0xFFFF) || recNat hdr 24 40 != 0 ||
    (upTo 0 n).any fun i => badNode (ns.getD i []) n i

/-- R281: reads and checks a table. -/
def readTable (s : State) (ctx : Nat) (a : Word) (entry : Nat) : Except Trap (List Byte × List (List Byte)) :=
  let r := engineReq 3 ctx
  let bad := trapOf Code.illegalOp 0x0B
  if a.toNat % 64 ≠ 0 then .error (trapOf Code.misalign 0 a)
  else match loadRun s r a 64 with
    | .error t => .error t
    | .ok (h, _) =>
      let n := recNat h 0 2
      if n = 0 ∨ 4096 < n then .error bad
      else match loadAll s r (a + 64) (64 * n) with
        | .error t => .error t
        | .ok (bs, _) => if badTable h (chunks64 n bs) entry then .error bad else .ok (h, chunks64 n bs)

/-- The reads of a table reach the L2 (R335, R343). -/
def tableRead (s : State) (ctx : Nat) (a : Word) (nodes : Nat) : State := readied s (engineReq 3 ctx) a (64 + 64 * nodes)

/-! ## Graphs and nodes -/

def State.graph (s : State) (g : Nat) : Option Graph := sfind s.graphs g
def State.modGraph (s : State) (g : Nat) (f : Graph → Graph) : State :=
  match sfind s.graphs g with
  | some v => { s with graphs := sput s.graphs g (f v) }
  | none => s

def Graph.node (g : Graph) (i : Nat) : GNode := g.nodes.getD i { bytes := [] }
def Graph.modNode (g : Graph) (i : Nat) (f : GNode → GNode) : Graph := { g with nodes := g.nodes.modify i f }
def State.modGNode (s : State) (g i : Nat) (f : GNode → GNode) : State := s.modGraph g (·.modNode i f)

/-- R283: whether a node other than `i` is RUNNING. -/
def Graph.othersRun (g : Graph) (i : Nat) : Bool :=
  (upTo 0 g.nodes.length).any fun j => j != i && (g.node j).state == .running

def complete (s : State) (c : Completion) : State := { s with completions := s.completions ++ [c] }

/-! ## The start of a node (R285) -/

/-- R285: what a node does at its start; where a channel holds one of its accesses, the engine's turn waits. -/
def startAction (s : State) (g i : Nat) : State :=
  match s.graph g with
  | none => s
  | some v =>
    let n := v.node i
    let r := engineReq 3 v.ctx
    let fault (t : Trap) : State := if t.code = 0 then s.stall else complete s { graph := g, node := i, fault := some t }
    let ran (x : State × Option Trap) : State := match x.2 with
      | some t => if t.code = 0 then s.stall else complete x.1 { graph := g, node := i, fault := some t }
      | none => complete x.1 { graph := g, node := i }
    match n.type with
    | 0 => (match spaceFault (n.word 24) with
      | some f => fault f
      | none => match submitLaunch s v.ctx (n.word 24) (.node g i) (some g) with
        | .ok s1 => s1
        | .error t => fault t)
    | 1 => ran (copyRun s r (n.word 24) (n.word 32) (recNat n.bytes 40 8))
    | 2 => ran (signalRun s r (recNat n.bytes 40 1) (n.word 24) (n.word 32) (recNat n.bytes 42 2))
    | 3 => (match word8Fault (n.word 24) with
      | some f => fault f
      | none => match loadAll s r (n.word 24) 8 with
        | .ok (b, _) => complete (readied s r (n.word 24) 8) { graph := g, node := i, status := if bytesNat b = 0 then 1 else 0 }
        | .error t => fault t)
    | 4 => s.modGNode g i ({ · with evaluating := true })
    | 5 => complete s { graph := g, node := i }
    | _ => s

/-- A node starts; `path` says that it is on the fault path. -/
def startNode (s : State) (g i : Nat) (path : Bool) : State :=
  startAction (s.modGNode g i fun n => { n with state := .running, onPath := n.onPath || path }) g i

/-! ## The end of a graph (R282, R283) -/

def stateNo : NodeState → Nat
  | .waiting => 0 | .running => 1 | .done => 2 | .failed => 3 | .iterating => 4

/-- R282: a node's engine fields go back to memory. -/
def writeNode (s : State) (r : Req) (a : Word) (n : GNode) : State :=
  let s1 := storeLater s r (a + 4) (natBytes 2 n.cnt ++ natBytes 1 (stateNo n.state))
  storeLater s1 r (a + 48) (natBytes 4 n.iter ++ natBytes 1 n.result ++ natBytes 1 n.code ++ natBytes 2 0 ++ natBytes 8 n.tick.toNat)

/-- R376: the tarns whose life a graph bounds end with it. -/
def endGraph (s : State) (g : Nat) : State :=
  match s.graph g with
  | none => s
  | some v =>
    let r := engineReq 3 v.ctx
    let s1 := storeLater s r (v.table + 4)
      (natBytes 1 (if v.failed then 3 else 2) ++ natBytes 1 v.faultCode ++ natBytes 2 v.failNode ++ natBytes 8 v.start.toNat ++
        natBytes 8 s.tick)
    let s2 := (upTo 0 v.nodes.length).foldl (fun s i => writeNode s r (v.table + BitVec.ofNat 64 (64 + 64 * i)) (v.node i)) s1
    let s3 := endTarns s2 fun t => t.graph == some g && t.life == 1
    { s3 with graphs := sdel s3.graphs g, completions := s3.completions.filter (·.graph != g) }

/-- R290: a graph whose fault path is over, or that has none, ends as soon as no node is RUNNING. -/
def settleGraph (s : State) (g : Nat) : State :=
  match s.graph g with
  | some v => if v.pathDead ∧ !v.nodes.any (·.state == .running) then endGraph s g else s
  | none => s

/-! ## Failures (R290) -/

/-- R290: whether a node's completion starts nothing more: it is off the fault path of a failed graph, or the fault path has failed. -/
def Graph.halted (v : Graph) (i : Nat) : Bool := v.pathDead || (v.failed && !(v.node i).onPath)

/-- R290: a node fails with a code and a sub-code (R296). -/
def failNode (s : State) (g i code sub : Nat) : State :=
  match s.graph g with
  | none => s
  | some v =>
    let n := v.node i
    let s1 := s.modGraph g fun v =>
      let v1 := v.modNode i fun n => { n with state := .failed, code := code, sub := sub, evaluating := false, tick := BitVec.ofNat 64 s.tick }
      if v.failed then v1 else { v1 with failed := true, faultCode := code, failNode := i }
    if n.onPath then settleGraph (s1.modGraph g ({ · with pathDead := true })) g
    else if v.failed then settleGraph s1 g
    else if v.fault = 0xFFFF then settleGraph (s1.modGraph g ({ · with pathDead := true })) g
    else if i ≠ v.fault ∧ (v.node v.fault).state = .running then s1.modGNode g v.fault ({ · with onPath := true })
    else startNode (s1.modGraph g ({ · with pathRun := true })) g v.fault true

/-! ## Successors (R284) -/

/-- R284: applies the decrements of a set; none where an entry is not accepted. The list gives the nodes that become
ready. -/
def decrement (v : Graph) : List Nat → Option (Graph × List Nat)
  | [] => some (v, [])
  | k :: ks =>
    let n := v.node k
    if (n.state = .waiting ∨ (n.state = .iterating ∧ n.type = 4)) ∧ n.cnt ≠ 0 then
      let v1 := v.modNode k fun n => { n with cnt := n.cnt - 1 }
      if n.cnt = 1 then (decrement (v1.modNode k ({ · with state := .running })) ks).map fun r => (r.1, k :: r.2)
      else decrement v1 ks
    else none

/-- R284, R290: a node's successor set is processed. -/
def takeSet (s : State) (g i set : Nat) : State :=
  match s.graph g with
  | none => s
  | some v =>
    if v.halted i then settleGraph s g
    else match decrement v ((v.node i).succ set) with
      | none => failNode s g i Code.illegalOp 0x0C
      | some (v1, ready) =>
        ready.foldl (fun s k => startNode s g k (v.node i).onPath) { s with graphs := sput s.graphs g v1 }

/-! ## Completions (R284, R285) -/

/-- R284: COMPLETION_PROCESSING of the i-th completion that waits. -/
def execCompletionProcessing (i : Nat) (s : State) : Host.Outcome State Fault Refusal :=
  match s.completions[i]? with
  | none => .next s
  | some c =>
    if classPaused s 0 then .next s
    else
      let s1 := { s with completions := s.completions.eraseIdx i }
      match s1.graph c.graph with
      | none => .next s1
      | some v =>
        let n := v.node c.node
        match c.fault with
        | some f => .next (failNode s1 c.graph c.node f.code f.sub.toNat)
        | none =>
          let s2 := s1.modGNode c.graph c.node fun n =>
            { n with state := .done, result := if n.type = 0 ∨ n.type = 3 then c.status else n.result, tick := BitVec.ofNat 64 s.tick }
          if n.type = 0 ∧ c.status = 2 then .next (failNode s2 c.graph c.node c.code 0)
          else .next (takeSet s2 c.graph c.node (if n.type = 3 then c.status else 0))

/-! ## Loops (R286) -/

/-- R286: the loop goes round once more: its body is armed again. -/
def rearm (v : Graph) (i first last : Nat) : Graph :=
  let v1 := (upTo first (last + 1 - first)).foldl (fun v k => v.modNode k fun n => { n with cnt := n.preds, state := .waiting }) v
  v1.modNode i fun n => { n with iter := n.iter + 1, cnt := recNat n.bytes 40 2, state := .iterating, evaluating := false }

/-- R286: LOOP_EVALUATE. A loop whose completion starts nothing more (R290) only becomes DONE, its
RESULT 0 (log 67). The predicate is the bytes as they stand, whatever their check says (log 88). -/
def execLoopEvaluate (g node : Nat) (s : State) : Host.Outcome State Fault Refusal :=
  match s.graph g with
  | none => .next s
  | some v =>
    let n := v.node node
    let first := recNat n.bytes 36 2
    let last := recNat n.bytes 38 2
    if !n.evaluating ∨ classPaused s 0 ∨ (upTo first (last + 1 - first)).any (fun k => (v.node k).state == .running) then .next s
    else
      let s0 := readied s (engineReq 3 v.ctx) (n.word 24) 8
      let quit (r : Nat) : State :=
        takeSet (s0.modGNode g node fun n => { n with state := .done, result := r, evaluating := false, tick := BitVec.ofNat 64 s.tick }) g node 1
      let pred : Except Trap (List Byte × List (Nat × Nat)) := match word8Fault (n.word 24) with
        | some f => .error f
        | none => loadAll s (engineReq 3 v.ctx) (n.word 24) 8
      match pred with
      | .error t => if t.code = 0 then .next s else .next (failNode s g node t.code t.sub.toNat)
      | .ok (b, _) =>
        if bytesNat b = 0 then .next (quit 0)
        else if recNat n.bytes 32 4 ≤ n.iter then .next (quit 1)
        else if v.halted node then .next (quit 0)
        else .next (takeSet { s0 with graphs := sput s.graphs g (rearm v node first last) } g node 0)

/-! ## END (R283) -/

/-- R283: END_NODE. One whose completion starts nothing more (R290) only becomes DONE. -/
def execEndNode (g node : Nat) (s : State) : Host.Outcome State Fault Refusal :=
  match s.graph g with
  | none => .next s
  | some v =>
    let n := v.node node
    let fin : GNode → GNode := fun n => { n with state := .done, tick := BitVec.ofNat 64 s.tick }
    if n.type ≠ 6 ∨ n.state ≠ .running then .next s
    else if v.halted node then .next (settleGraph (s.modGNode g node fin) g)
    else if v.othersRun node then .next s
    else .next (endGraph (s.modGNode g node fin) g)

/-! ## GRAPH packets (R281, R282) -/

/-- R282: whether the resident table has room for a graph. -/
def tableRoom (s : State) (v : Graph) : Bool :=
  let up := s.graphs.filter (·.2.loaded)
  decide (up.length < 64) && decide ((up.map (·.2.nodes.length)).foldr (· + ·) 0 + v.nodes.length ≤ 16384)

/-- R281: the nodes are loaded and the entry node starts. -/
def loadGraph (s : State) (g : Nat) : State :=
  match s.graph g with
  | none => s
  | some v =>
    if v.loaded ∨ !tableRoom s v then s
    else
      let s1 := s.modGraph g fun v => { v with
        loaded := true, start := BitVec.ofNat 64 s.tick, nodes := v.nodes.map fun n => { n with cnt := n.preds } }
      let s2 := storeLater s1 (engineReq 3 v.ctx) (v.table + 4) (natBytes 1 1)
      startNode (storeLater s2 (engineReq 3 v.ctx) (v.table + 8) (natBytes 8 s.tick)) g v.entry false

/-- R281, R282: GRAPH_TABLE_LOAD. -/
def execGraphTableLoad (g : Nat) (s : State) : Host.Outcome State Fault Refusal :=
  if classPaused s 0 then .next s else .next (loadGraph s g)

/-- R27, R281: a GRAPH packet. -/
def execGraphPacket (h : Nat) (s : State) : Host.Outcome State Fault Refusal :=
  runPacket s h 2 fun s q u p =>
    match readTable s u.ctx (p.word 8) (recNat p.bytes 16 4) with
    | .error t => if t.code = 0 then s else failPacket s q p.idx t
    | .ok (hdr, ns) =>
      let id := s.nextGraph
      let v : Graph := { ctx := u.ctx, q := q, idx := p.idx, table := p.word 8, entry := recNat p.bytes 16 4, fault := recNat hdr 2 2
                         nodes := ns.map fun b => { bytes := b } }
      loadGraph (modPacket { tableRead s u.ctx (p.word 8) ns.length with graphs := sput s.graphs id v, nextGraph := id + 1 } q p.idx
        ({ · with started := true, graph := some id })) id

end Sys2Proof.Machine
end

