-- ==== Sys2Proof/Machine/MemControl.lean ====
section
/-!
DEFINITION. The registers of the memory system (chapter 10): CLUSTER.c.SHARE (R330), TLBINV (R336, R337), RANGE.n.CTL (R342); and
the ages of streams (R321).
-/

namespace Sys2Proof.Machine

/-! ## The cluster-shared share (R330) -/

/-- R330: a cluster runs no job and holds no cluster-level tarn. -/
def shareFree (s : State) (cluster : Nat) : Bool :=
  s.slots.all (fun e => !(decide (e.1 < 3072) && e.1 / 192 == cluster) || e.2.state == .free) &&
    s.tarns.all fun t => !(t.level == 1 && ((t.stored && t.home == cluster) || t.moveFrom.any (·.1 == cluster)))

/-- The top bytes of every core's scratchpad of a cluster read 0, in full lines. -/
def clearShared (s : State) (cluster bytes : Nat) : State :=
  let base := 2 ^ 21 - bytes
  let inside (k : Nat) : Bool := isPadKey k && padCore k / 96 == cluster && decide (base ≤ padOff k)
  { s with
    mem := s.mem.filter fun e => !inside e.1
    poison := s.poison.filter fun u => !inside (8 * u)
    cores := s.cores.map fun e =>
      if e.1 / 96 = cluster then (e.1, { e.2 with empty := e.2.empty.filter fun l => decide (128 * l < base) }) else e }

def execClusterShareWrite (m : Master) (cluster : Nat) (d : Word) (s : State) : Host.Outcome State Fault Refusal :=
  if !barWritable s m (0x130000 + 8 * cluster) ∨ 16 ≤ cluster then .next s
  else if mgmtWaits s m then .next s.stall
  else
    let r := sget s.shares {} cluster
    let r1 := { r with reject := r.reject && !bit d 2 }
    let n := bits d 0 2
    if n = 3 ∨ !shareFree s cluster then .next { s with shares := sput s.shares cluster { r1 with reject := true } }
    else .next (clearShared { s with shares := sput s.shares cluster { r1 with share := n } } cluster (Nat.max n r.share * 2 ^ 19))

/-! ## Invalidation (R336, R337) -/

/-- R336: TLBINV. -/
def execTlbinv (m : Master) (d : Word) (s : State) : Host.Outcome State Fault Refusal :=
  if !barWritable s m 0x140008 ∨ s.tlb.busy then .next s
  else if mgmtWaits s m then .next s.stall
  else .next { s with tlb := { s.tlb with busy := true, all := bit d 63, ctx := bits d 0 12, va := if bit d 63 then 0 else bits d 16 39
                                          pages := if bit d 63 then 2 ^ 39 else 2 ^ bits d 58 5 } }

/-- R337: TLBSTAT.BUSY clears, the range's translations being gone; no access is under way between steps (log 8). An invalidation of
a context as a whole, its ROOT being invalid, destroys the context (R376; log 139). -/
def execTlbinvComplete (s : State) : Host.Outcome State Fault Refusal :=
  if !s.tlb.busy then .next s
  else
    let s1 := { s with tlb := s.tlb.invalidated }
    .next (if s.tlb.all ∧ memNat s (s.ctxbase.toNat + 256 * s.tlb.ctx) 8 % 2 = 0 then
      settleContext { s1 with dying := s.tlb.ctx :: s1.dying } s.tlb.ctx else s1)

/-! ## Ranges (R342) -/

def execRangeCtlWrite (m : Master) (range : Nat) (d : Word) (s : State) : Host.Outcome State Fault Refusal :=
  if !barWritable s m (0x150000 + 32 * range + 16) ∨ 16 ≤ range then .next s
  else if 12 < ((upTo 16 16).filter (bit d ·)).length then .next s
  else if mgmtWaits s m then .next s.stall
  else
    let s1 := { s with ranges := sput s.ranges range { sget s.ranges {} range with ctl := keepFields d [(16, 16), (7, 9), (0, 1)] } }
    .next (if bit d 0 then s1 else unretain s1 range)

/-! ## Ages of streams (R320, R321) -/

/-- Whether a stream issues bundles: its job runs, or it drains a software-pipelined block (R237). A core's firmware issues
nothing while a scan occupies the core (R482; log 145), and a job nothing in a cluster that is down (R504). -/
def runnable (s : State) (g : Agent) : Bool :=
  let t := s.slot g.slot
  let st := t.stream g.st
  !st.ended && !(isFw g.slot && (s.core (g.slot - 3072)).scanning.isSome) &&
    ((t.state == .running && !(isJob g.slot && s.ckpt.down.contains (g.slot / 192))) ||
      ((t.state == .stopping || t.state == .killing || t.state == .trapped) && (t.inEpilogue g.st || t.answered g.st || t.rdvPassed g.st)))

/-- R320, R321: a stream has a bundle that waits for nothing but its unit. -/
def readyStream (s : State) (g : Agent) : Bool := runnable s g && (s.stream g).wait.isNone

/-- R321: an age moves by 1, once at a TICK. -/
def Stream.aged (t : Stream) (tick : Nat) (ready : Bool) : Stream :=
  if t.agedAt = some tick then t
  else { t with age := if ready then min 255 (t.age + 1) else t.age, agedAt := some tick }

def ageStream (s : State) (g : Agent) : State :=
  if (s.stream g).agedAt = some s.tick then s else s.modStream g (·.aged s.tick (readyStream s g))

/-- R321: the ages that this TICK moves and that no unit's cycle has moved (Issue.lean): those of the streams without a wait (log 144). -/
def ageStreams (s : State) : State :=
  if s.tick % us ≠ 0 then s
  else s.slots.foldl (fun s e =>
    if e.1 < 3072 then ageStream (ageStream (ageStream s ⟨e.1, .a⟩) ⟨e.1, .m⟩) ⟨e.1, .v⟩ else s) s

/-- R321: STREAM_AGE_TICK. -/
def execStreamAgeTick (s : State) : Host.Outcome State Fault Refusal := .next (ageStreams s)

end Sys2Proof.Machine
end

