-- ==== Sys2Proof/Machine/Bundles.lean ====
section
/-!
DEFINITION. Gathering and checking a stream's next bundle (R46 to R60, R67, R68).
-/

namespace Sys2Proof.Machine

/-! ## Gathering and checking a bundle (R48, R57, R67, R68) -/

/-- A word of a bundle with the address of its first parcel. -/
structure BWord where
  addr  : Word
  instr : Instr
deriving DecidableEq, Repr

/-- What a run of words comes to: a bundle with the loop buffer as far as it has been fetched, or the fault of the first
word that fails its own checks. -/
structure Run where
  words   : List BWord := []
  parcels : List Parcel := []
  used    : Nat := 0
  compact : Option Word := none
  open_   : Bool := false
  fault   : Option Trap := none
deriving DecidableEq, Repr

/-- R57: the longest bundle of a stream. -/
def longest (g : Agent) : Nat :=
  if isJob g.slot then match g.st with | .a => 2 | .m => 1 | .v => 4 else 2

/-- The parcel at a position of the body, from the loop buffer or, on the first pass, from memory (R52). Of code that is written
while its job runs, each parcel is what memory holds when it is fetched (log 131). -/
def parcelAt (s : State) (g : Agent) (b : Block) (body : List Parcel) (pos : Nat) : Except Trap (Parcel × List Parcel) :=
  match body[pos]? with
  | some p => .ok (p, body)
  | none => (fetchParcel s g (b.hdr + 4 + BitVec.ofNat 64 (2 * pos))).map fun p => (p, body ++ [p])

def illegal (sub : Nat) (fa : Word) : Trap := trapOf Code.illegalOp sub fa

/-- The words of the bundle at `pos`, checked one by one in address order (R67). -/
def gather (s : State) (g : Agent) (b : Block) : Nat → Nat → List Parcel → List BWord → Run
  | 0, pos, body, ws => { words := ws, parcels := body, used := pos, open_ := decide (b.len ≤ pos) }
  | fuel + 1, pos, body, ws =>
    let at_ : Word := b.hdr + 4 + BitVec.ofNat 64 (2 * pos)
    let stop (t : Trap) : Run := { words := ws, parcels := body, used := pos, fault := some t }
    if b.len ≤ pos then { words := ws, parcels := body, used := pos, open_ := true }
    else match parcelAt s g b body pos with
      | .error t => stop t
      | .ok (p, body1) =>
        if isHeaderParcel p then stop (illegal 7 at_)
        else if parcelCount p = 1 then
          if ws ≠ [] ∧ (p.extractLsb' 14 2).toNat ≤ 2 then
            { words := ws, parcels := body1, used := pos, compact := some at_ }
          else match decodeParcels p 0 with
            | .error e => stop (illegal e.sub at_)
            | .ok i => match wordFault g i with
              | some (c, sub) => stop (trapOf c sub at_)
              | none => { words := ws ++ [⟨at_, i⟩], parcels := body1, used := pos + 1 }
        else if b.len ≤ pos + 1 then stop (illegal 8 at_)
        else match parcelAt s g b body1 (pos + 1) with
          | .error t => stop t
          | .ok (q, body2) => match decodeParcels p q with
            | .error e => stop (illegal e.sub at_)
            | .ok i => match wordFault g i with
              | some (c, sub) => stop (trapOf c sub at_)
              | none =>
                let ws1 := ws ++ [⟨at_, i⟩]
                if i.hd.s then { words := ws1, parcels := body2, used := pos + 2 }
                else gather s g b fuel (pos + 2) body2 ws1

/-! ## Bundle rules (R57 to R60) -/

/-- R58: the first word whose group another word of the bundle has already. -/
def groupClash : List BWord → List Nat → Option Word
  | [], _ => none
  | w :: ws, seen =>
    let k := aGroup w.instr.op
    if k ≠ 0 ∧ seen.contains k then some w.addr else groupClash ws (k :: seen)

/-- R59: the first word at which a count is broken: one scalar word, two vector words of which one from 0x37 to 0x39, one
compare word. -/
def slotClash : List BWord → Nat → Nat → Nat → Nat → Option Word
  | [], _, _, _, _ => none
  | w :: ws, sc, ve, pe, co =>
    let op := w.instr.op
    match vslot op with
    | some .scalar => if 1 ≤ sc then some w.addr else slotClash ws (sc + 1) ve pe co
    | some .compare => if 1 ≤ co then some w.addr else slotClash ws sc ve pe (co + 1)
    | _ =>
      let p := decide (0x37 ≤ op) && decide (op ≤ 0x39)
      if 2 ≤ ve ∨ (p ∧ 1 ≤ pe) then some w.addr else slotClash ws sc (ve + 1) (pe + b2n p) co

/-- R58: a control word that is not the bundle's last. -/
def earlyBranch : List BWord → Option Word
  | [] => none
  | [_] => none
  | w :: ws => if aGroup w.instr.op = 1 then some w.addr else earlyBranch ws

/-- R60: the later of the first two words that name one destination. -/
def sameDest : List BWord → List Dest → Option Word
  | [], _ => none
  | w :: ws, seen =>
    let ds := dests w.instr
    if ds.any (seen.contains ·) then some w.addr else sameDest ws (ds ++ seen)

def badBundle (sub : Nat) (fa : Word) : Trap := trapOf Code.illegalBundle sub fa

/-- R67: the bundle rules in their order; none where the bundle may issue. -/
def bundleFault (g : Agent) (r : Run) : Option Trap :=
  let last := r.words.getLast?
  let open1 := match last with | some w => !w.instr.isCompact && !w.instr.hd.s | none => false
  let mOpen := if isJob g.slot && g.st == .m then r.words.find? (fun w => !w.instr.isCompact && !w.instr.hd.s) else none
  let vs := isJob g.slot && g.st == .v
  let first (l : List (Option Trap)) : Option Trap := l.findSome? id
  first [
    mOpen.map fun w => badBundle 6 w.addr,
    r.compact.map fun a => badBundle 5 a,
    if r.open_ && open1 then last.map fun w => badBundle 4 w.addr else none,
    (r.words[longest g]?).map fun w => badBundle 1 w.addr,
    (if vs then slotClash r.words 0 0 0 0 else groupClash r.words []).map fun a => badBundle 2 a,
    (if vs then none else earlyBranch r.words).map fun a => badBundle 7 a,
    (sameDest r.words []).map fun a => badBundle 3 a]

/-- The stream goes past `used` parcels of its block. -/
def Stream.pastBundle (t : Stream) (used : Nat) : Stream :=
  match t.blk with
  | none => t
  | some b =>
    if b.len ≤ used then t.endPass b
    else { t with blk := some { b with pos := used }, pc := b.hdr + 4 + BitVec.ofNat 64 (2 * used) }

end Sys2Proof.Machine
end

