-- ==== Sys2Proof/Machine/Firmware.lean ====
section
/-!
DEFINITION. Per-core firmware (chapter 16): where a job stops (R468), what a stop saves (R196, R476 to R478), STOP, RESUME, KILL and
REPORT (R463, R464, R479, R480), ERET, WFE and STOPACK (R467), the firmware's events (R466, R472) and its restart (R458).
-/

namespace Sys2Proof.Machine

/-! ## Stop points (R196, R275, R468) -/

/-- R196, R468: a command has reached its stop point: it has not started, or stands between two segments. -/
def Cmd.atStop (c : Cmd) : Bool :=
  !c.started || c.failed || (c.op == 0x2D && c.bytes != 0) ||
    (c.segmented && c.units.any (·.landed) && c.units.any (!·.landed) && c.units.all fun u =>
      u.landed == (c.units.any fun v => v.landed && segmentOf c v == segmentOf c u))

/-- R275, R468: the nest queue of a stopping job has reached its stop point: its nest stands at a retirement point and has given the
array up, and no retirement is under way but what waits in FQ behind a failed command or in a trapped job (R200). -/
def nestStopped (s : State) (n : Nat) : Bool :=
  let t := s.slot n
  let k := s.core (slotCore n)
  (match t.worker with | some e => parked t e && k.arrayBy != some n | none => true) &&
    !(k.port.any fun r => r.slot == n) &&
    t.fq.all fun c => c.handoff.isNone || c.failed || (!c.started && (t.state == .trapped || t.fq.any (·.failed)))

/-- R149, R468: the streams of a stopping job stand between bundles, and its replies have landed. -/
def streamsStopped (t : Slot) : Bool :=
  !t.inEpilogue .v && !t.midRemote && !t.rdvPassed .a && !t.rdvPassed .m && !t.rdvPassed .v

/-- R468, R472: every part of a stopping job has reached its stop point, and a trap has been reported. -/
def quiescent (s : State) (n : Nat) : Bool :=
  let t := s.slot n
  streamsStopped t && nestStopped s n && (t.cq ++ t.fq).all (·.atStop) && !t.trapDue

/-- R196: the record of what is left of a command. -/
def Cmd.remainder (c : Cmd) : Cmd :=
  if !c.started then c
  else
    let d : Word := BitVec.ofNat 64 (if c.op = 0x2D then c.bytes else ((c.units.filter (·.landed)).map (·.len)).foldr (· + ·) 0)
    { c with started := false, units := [], bytes := 0
             cw := if c.segmented then c.cw - d else c.cw
             opa := if c.op = 0x2D ∨ (c.segmented ∧ c.fn = 0) then c.opa + d else c.opa
             opb := if c.op = 0x2D then c.opb - d else if c.segmented then c.opb + d else c.opb }

/-- R196: a command record. -/
def Cmd.record (c : Cmd) (fq : Bool) : List Byte :=
  natBytes 8 c.cw.toNat ++ natBytes 8 c.opa.toNat ++ natBytes 8 c.opb.toNat ++ natBytes 6 c.cmdidx.toNat ++
    natBytes 1 c.op ++ natBytes 1 (c.fn + 16 * b2n fq)

/-- The commands that a stop keeps: those that have failed are gone. -/
def savedCmds (l : List Cmd) : List Cmd := (l.filter (!·.failed)).map (·.remainder)

/-- The nest-queue entries that have failed are gone too, with their claims on operand slots. -/
def Slot.dropFailed (t : Slot) : Slot :=
  { t with nests := t.nests.filter (!·.failed)
           oslots := (t.nests.filter (·.failed)).foldl (fun o _ => releaseOslots o) t.oslots }

/-! ## Saving (R476 to R478) -/

/-- The live ranges of a job, within its part. -/
def liveBytes (t : Slot) : List (Nat × Nat) := t.liveEnts.map fun e => (e.1, min e.2 (t.partLen - e.1))

def inRanges (l : List (Nat × Nat)) (o : Nat) : Bool := l.any fun e => decide (e.1 ≤ o) && decide (o < e.1 + e.2)

/-- R478: the size of a save area. -/
def saveSize (t : Slot) : Nat :=
  let groups := ((upTo 0 32).filter fun i => t.vlive.getLsbD i && t.holdsTile (i / 8)).length
  let live := ((liveBytes t).map (·.2)).foldr (· + ·) 0
  (16384 + 4096 * groups + 65536 + live + 4095) / 4096 * 4096

/-- R476: what a stop saves of a job. -/
def savedOf (s : State) (n : Nat) (addr : Word) : Saved :=
  let t := s.slot n
  let c := n / 2
  let k := s.core c
  let live (i : Nat) : Bool := t.holdsTile (i / 8192) && t.vlive.getLsbD (8 * (i / 8192) + i % 8192 / 1024)
  let lane0 := laneKey c 0 0
  let part0 := padKey c t.partStart
  { slot := { t.dropFailed with
                     state := .stopped, cq := (savedCmds t.cq).filter (!·.again), fq := (savedCmds t.fq).filter (!·.again), saveArea := addr
                     replies := [], ports := t.ports.map fun e => (e.1, { e.2 with ahead := [] }) }
    tiles := k.tiles.filter fun e => live e.1
    types := k.ttype.filter fun e => t.holdsTile e.1
    lanes := s.mem.filterMap fun e =>
      if lane0 ≤ e.1 ∧ e.1 < lane0 + 2 ^ 17 ∧ (e.1 - lane0) / 512 % 2 = n % 2 then
        some ((e.1 - lane0) / 1024 * 512 + (e.1 - lane0) % 512, e.2) else none
    part := s.mem.filterMap fun e =>
      if part0 ≤ e.1 ∧ e.1 < part0 + t.partLen ∧ inRanges (liveBytes t) (e.1 - part0) then some (e.1 - part0, e.2) else none
    windows := (s.windows.filter fun w => windowBinds w.2 n t).map (·.1)
    size := saveSize t }

/-- R196: the records of the saved commands, CQ's and FQ's, as many as the first 16 KiB of the area hold (log 5). -/
def savedRecords (t : Slot) : List Byte :=
  (((t.cq.map (·.record false) ++ t.fq.map (·.record true)).take 509).foldr (· ++ ·) [])

/-- R478: the stop record, which begins a save area: of a V stream that stopped in a software-pipelined block (R237), else of a stream
that no rule names: a free value does (log 84). -/
def stopRecord (s : State) (n : Nat) (free : Word) : TrapRec :=
  let st : StreamId := if (s.slot n).v.iterPend then .v else match free.toNat % 3 with | 0 => .a | 1 => .m | _ => .v
  { streamRecord s ⟨n, st⟩ (trapOf 0 0) with code := 0 }

/-! ## The commands of firmware (R462 to R464) -/

/-- The firmware's own accesses, from its core. -/
def fwReq (s : State) (core : Nat) : Req := slotReq s (fwSlot core)

/-- A command ends with a result, or with none so far: BUSY clears by `fwCommandComplete`. -/
def fwEnd (s : State) (core code : Nat) : State := s.modFw core fun f => { f with result := BitVec.ofNat 8 code, op := 0 }

/-- R463, R474: a job that a command leaves as it was goes on as it found it; a request stays until it runs again. -/
def unstop (s : State) (n : Nat) (prior : JobState) : State :=
  let s1 := s.modSlot n fun t => { t with state := match t.state with
    | .stopping => .running
    | .killing => if prior = .stopped ∨ prior = .trapped then prior else .running
    | st => st }
  if (s1.slot n).state = .running then clearStop s1 n else s1

/-- R463, R480: a STOP or KILL given to a job that was starting takes hold once its streams run; one whose job has gone is rejected, and
one that a fault turned into a trap is over. -/
def lateStop (s : State) (core : Nat) (st : JobState) : State :=
  let f := s.fw core
  let reject : State := (fwReject s core).modFw core ({ · with op := 0 })
  if f.result ≠ 0 then s
  else match f.prior, (s.slot f.target).state with
  | .starting, .running => (beginStop s f.target st).modFw core ({ · with prior := .running })
  | .starting, .free => reject
  | .starting, _ => s
  | _, .free => reject
  | _, .running => reject
  | _, _ => s

/-- R463: STOP: once the job has stopped, its save area is written. -/
def fwStop (s : State) (core : Nat) : State :=
  let f := s.fw core
  let n := f.target
  if (s.slot n).state ≠ .stopping then lateStop s core .stopping
  else if !quiescent s n then s
  else
    let (free, s1) := (withdrawSlot s n).drawFree
    let sv := savedOf s1 n f.cmdArg
    match resolve s1 (fwReq s1 core) .w f.cmdArg f.cmdArg sv.size with
    | .error t => if t.code = 0 then s else fwEnd (unstop s n f.prior) core t.code
    | .ok ps =>
      let bytes := (stopRecord s1 n free).bytes ++ natBytes 8 sv.size ++ savedRecords sv.slot
      let s2 := writePieces (walked s1 (fwReq s1 core) f.cmdArg.toNat bytes.length) (fwReq s1 core) (cutPieces bytes.length ps) bytes
      let s3 := s2.modSlot n fun t => { t with state := .stopped, cq := sv.slot.cq, fq := sv.slot.fq, ports := sv.slot.ports, saveArea := f.cmdArg, replies := [] }
      fwEnd { s3 with saves := sput s3.saves f.cmdArg.toNat sv } core 0
where
  /-- The first bytes of a run of pieces. -/
  cutPieces : Nat → List Piece → List Piece
    | _, [] => []
    | k, p :: ps => if k ≤ p.len then [{ p with len := k }] else p :: cutPieces (k - p.len) ps

/-- R463: STOP. -/
def execStop (core : Nat) (s : State) : Host.Outcome State Fault Refusal :=
  if (s.fw core).busy ∧ (s.fw core).op = 1 then .next (fwStop s core) else .next s

/-- R464: the continuation record that a KILL writes. The class is the one that the record had when it became ready. -/
def killRecord (t : Slot) : List Byte := { t.job with resume := false, waitjoin := false, prio := t.job.prioAt }.bytes

/-- R464: KILL: the job's record is written, and its slot freed with nothing taken from its counter. -/
def fwKill (s : State) (core : Nat) : State :=
  let f := s.fw core
  let n := f.target
  let t := s.slot n
  if t.state ≠ .killing then lateStop s core .killing
  else if !quiescent s n then s
  else
    match storeAll s (fwReq s core) f.cmdArg (killRecord t) with
    | .error e => if e.code = 0 then s else fwEnd (unstop s n f.prior) core e.code
    | .ok s2 =>
      let s3 := { s2 with saves := if f.prior = .stopped then sdel s2.saves t.saveArea.toNat else s2.saves }
      fwEnd (freeJob s3 n) core 0

def execKill (core : Nat) (s : State) : Host.Outcome State Fault Refusal :=
  if (s.fw core).busy ∧ (s.fw core).op = 3 then .next (fwKill s core) else .next s

/-- R295, R463: what the write of a record to the next entry of a launch's fault area meets: a fault, or nothing. -/
def reportBad (s : State) (launch : Nat) (r : TrapRec) : Option Trap :=
  match s.launch launch with
  | none => none
  | some l =>
    if l.written < l.faultCap then
      match storeAll s (engineReq 3 l.ctx) (l.faultArea + BitVec.ofNat 64 (64 * l.written)) r.bytes with
      | .error t => if t.code = 0 then none else some t
      | .ok _ => none
    else none

/-- R463: REPORT: the trap record goes to the fault area, and the job ends; where that write fails, the job stays. -/
def execReport (core : Nat) (s : State) : Host.Outcome State Fault Refusal :=
  let f := s.fw core
  let n := f.target
  if !f.busy ∨ f.op ≠ 4 ∨ (s.slot n).state ≠ .trapped ∨ !quiescent s n then .next s
  else
    let report (r : TrapRec) : State :=
      match reportBad s (s.slot n).launch r with
      | some t => fwEnd s core t.code
      | none => fwEnd (endJob (reportFault (s.modFw core ({ · with op := 0 })) (s.slot n).launch r) n) core 0
    .next (match (s.slot n).trapRec with
      | some r => report r
      | none => fwEnd (endJob (s.modFw core ({ · with op := 0 })) n) core 0)

/-- R463: whether a save area begins with a stop record that the module accepts. -/
def areaOf (s : State) (core : Nat) (addr : Word) : Except Trap (Option Saved) :=
  match loadAll s (fwReq s core) addr 72 with
  | .error t => .error t
  | .ok (bs, _) =>
    match sfind s.saves addr.toNat with
    | some sv => .ok (if recNat bs 0 1 = 0 ∧ recNat bs 64 8 = sv.size then some sv else none)
    | none => .ok none

/-- R463: where a save area's job fits in a slot, its part's start; the job's place and its core-level attachments stand. -/
def resumeFit (s : State) (n : Nat) (sv : Saved) : Except Trap (Option (List Byte × Nat)) :=
  let r := sv.slot.job
  match readHeader s 1 sv.slot.ctx r.code with
  | .error t => .error t
  | .ok h =>
    let home := sv.slot.attach.all fun a => (findTarn s sv.slot.ctx a.name).all fun t => t.level != 0 || t.home == n / 2
    let mine := (s.slot n).reserved.all (· == sv.slot.launch)
    .ok (if home ∧ mine ∧ inPlace r.place n ∧ !s.ckpt.down.contains (n / 192) then (fitHeader s n h).map fun k => (h, k) else none)

/-- R463, R479: RESUME: the job takes its ramp budget (R399), and its slot starts, once no scan occupies its core (R482). -/
def fwResume (s : State) (core : Nat) : State :=
  let f := s.fw core
  let n := f.target
  if (s.core (n / 2)).scanning.isSome then s
  else match areaOf s core f.cmdArg with
  | .error t => if t.code = 0 then s else fwEnd s core t.code
  | .ok none => fwEnd s core Code.illegalOp
  | .ok (some sv) =>
    match resumeFit s n sv with
    | .error t => if t.code = 0 then s else fwEnd s core t.code
    | .ok none => fwEnd s core Code.coschedule
    | .ok (some (h, start)) =>
      let (s1, slotN, cycle) := rampNow s (rampPower ((s.launch sv.slot.launch).map (·.rampclass) |>.getD 0))
      let r : TaskRec := { sv.slot.job with launch := sv.slot.launch, ctx := sv.slot.ctx, prio := sv.slot.prio, rampN := slotN }
      let s2 := restoreJob (admitJob (readied (headerRead s1 1 sv.slot.ctx r.code) (fwReq s core) f.cmdArg sv.size) n r h start) n r sv
      (s2.modSlot n fun t => { t with startAt := cycle }).modFw core ({ · with op := 5 })

def execResume (core : Nat) (s : State) : Host.Outcome State Fault Refusal :=
  let f := s.fw core
  if f.busy ∧ f.op = 2 ∧ (s.slot f.target).state = .free then .next (fwResume s core) else .next s

/-- R463: BUSY clears once the command has ended: its slot is STOPPED or TRAPPED, free, or running again. -/
def execFwCommandComplete (core : Nat) (s : State) : Host.Outcome State Fault Refusal :=
  let f := s.fw core
  let st := (s.slot f.target).state
  let isOver := f.op == 0 || (f.op == 5 && st != .starting) ||
    ((f.op == 1 || f.op == 3) && f.result != 0 && !(s.slot f.target).trapDue)
  if f.busy ∧ isOver then .next (s.modFw core ({ · with busy := false, op := 0 })) else .next s

/-! ## Registers written by events (R459, R460) -/

def execFwSelWrite (core : Nat) (d : Word) (s : State) : Host.Outcome State Fault Refusal := .next (fwSelWrite s core d)
def execFwJcsrWrite (core : Nat) (d : Word) (s : State) : Host.Outcome State Fault Refusal := .next (fwJcsrWrite s core d)

/-! ## ERET, WFE, STOPACK (R467) -/

/-- R467: a SOFTWARE or BREAK trap resumes after its bundle. -/
def skipBundle (s : State) (g : Agent) : State :=
  match (s.stream g).blk with
  | none => s
  | some b =>
    let used := (gather s g b (longest g + 1) b.pos b.body []).used
    let s1 := countPending { s with issue := { s.issue with agent := g, view := none } }
    { s1 with issue := s.issue }.modStream g (·.pastBundle used)

def streamOf (source : Nat) : StreamId := match source with | 0 => .a | 1 => .m | _ => .v

/-- R467, R474: the job of a slot restarts where it stands, with no ramp budget (log 176); a request for its stop goes. -/
def restartJob (s : State) (n : Nat) : State :=
  let t := s.slot n
  let skip := match t.trapRec with
    | some r => if t.state = .trapped ∧ !r.async ∧ (r.code = Code.software ∨ r.code = Code.brk) then some (streamOf r.source) else none
    | none => none
  let s1 := match skip with | some k => skipBundle s ⟨n, k⟩ | none => s
  let clear (u : Stream) : Stream := { u with wait := none }
  let bound := (s.windows.filter fun w => windowBinds w.2 n t).map (·.1)
  let (s2, isOver) := bound.foldl (fun (a : State × Bool) w => let (x, b) := rebind a.1 n w; (x, a.2 || b)) (s1, false)
  let s3 := (dropReports (clearStop s2 n) n).modSlot n fun t => { t.dropFailed with
    state := if t.resuming then .starting else .running, trapRec := none, replies := []
    cq := savedCmds t.cq, fq := savedCmds t.fq, a := clear t.a, m := clear t.m, v := clear t.v }
  if isOver then jobTrap s3 n (engineRecord s3 n 4 0 0 0 Code.semOverflow) else s3

def execEret (h : Hd) (s : State) : Host.Outcome State Fault Refusal :=
  runGuarded s (.eret h) fun s =>
    let n := fwTarget s s.myCore
    let st := (s.slot n).state
    if n / 2 ≠ s.myCore ∨ (st ≠ .trapped ∧ st ≠ .stopped) then .ok (fwReject s s.myCore)
    else if !quiescent s n then .hold s
    else .ok (restartJob { s with saves := if st = .stopped then sdel s.saves (s.slot n).saveArea.toNat else s.saves } n)

def execWfe (h : Hd) (s : State) : Host.Outcome State Fault Refusal :=
  runGuarded s (.wfe h) fun s =>
    let f := s.fw s.myCore
    if f.event &&& f.evmask ≠ 0 then .ok s else .wait 14 0 0

/-- R467: the stopped job goes back to the task queue as a RESUME record; a record without room in the spill region is
waited for. -/
def execStopack (h : Hd) (s : State) : Host.Outcome State Fault Refusal :=
  runGuarded s (.stopack h) fun s =>
    let n := fwTarget s s.myCore
    let t := s.slot n
    if t.state ≠ .stopped then .ok (fwReject s s.myCore)
    else
      let r : TaskRec := { t.job with resume := true, frame := t.saveArea, prio := t.prio, launch := t.launch, ctx := t.ctx
                                      held := false, ready := false, age := 0, spilled := false, relaxed := false
                                      rampSlot := none }
      let id := s.tq.nextRec
      match enqueue s r with
      | none => .hold s
      | some s1 =>
        let s2 := readyNow s1 id
        let s3 := if t.partLen = 0 then s2 else clearRun s2 0 (n / 2) t.partStart t.partLen
        .ok ((clearStop (noteRan (keepArrivals s3 n) n) n).setSlot n {})

/-! ## Events (R466, R472, R458) -/

/-- R466: FW_TICK: PERIOD µs of module time have elapsed. -/
def execFwTick (s : State) : Host.Outcome State Fault Refusal :=
  if s.tick = 0 ∨ s.tick % us ≠ 0 then .next s
  else .next ((upTo 0 1536).foldl (fun s c =>
    let p := (s.fw c).period.toNat
    if p ≠ 0 ∧ s.tick % (p * us) = 0 then s.modFw c fun f => { f with event := f.event ||| 4#5 } else s) s)

/-- R466, R480: WDAGE_EXPIRE. -/
def execWdageExpire (slot : Nat) (st : StreamId) (s : State) : Host.Outcome State Fault Refusal :=
  let t := s.slot slot
  let age := (s.fw (slot / 2)).wdage.toNat
  match (t.stream st).wait with
  | some w =>
    if slot < 3072 ∧ t.state = .running ∧ age ≠ 0 ∧ age ≤ min (ageUs s w.since) 0xFFFF then
      .next (jobTrap s slot (streamRecord s ⟨slot, st⟩ (trapOf Code.watchdog w.kind)))
    else .next s
  | none => .next s

/-- R380, R472: JOB_TRAP: the parts of a trapped job that wait for a tarn wait no longer; once its streams and its nest queue have
stopped, the record is written and TRAP.slot set (log 147). -/
def execJobTrap (slot : Nat) (s : State) : Host.Outcome State Fault Refusal :=
  let t := s.slot slot
  if 3072 ≤ slot ∨ (t.state ≠ .trapped ∧ t.state ≠ .killing) then .next s
  else
    let s1 := if t.state = .trapped then withdrawSlot s slot else s
    .next (match t.trapRec with
      | some r => if t.trapDue ∧ streamsStopped t ∧ nestStopped s slot then trapReport s1 slot r else s1
      | none => s1)

/-- The image that a core's firmware context runs: the staged one once a class 5 update has switched it (R530). -/
def coreImage (s : State) (core : Nat) : Option Image :=
  let c := s.ctl class5Ctl
  if (s.core core).fw.image = 1 then c.stagedImage else c.activeImage

/-- R458: FW_CONTEXT_RESTART. -/
def execFwContextRestart (core : Nat) (s : State) : Host.Outcome State Fault Refusal :=
  if (s.fw core).faulted.isSome then .next ((startFw s core (coreImage s core)).modFw core ({ · with faulted := none })) else .next s

end Sys2Proof.Machine
end

