-- ==== Sys2Proof/Machine/Fabric.lean ====
section
/-!
DEFINITION. The Duzimi fabric (chapter 14): flits, links and their lanes (R414 to R424), the router (R425 to R435), and the
packets of requests and responses at their target (R180 to R183, R411 to R413, R454 to R456).
-/

namespace Sys2Proof.Machine

/-! ## Ports (R409, R423, R424) -/

/-- R409, R423: the configuration of a port at reset. -/
def portCfg (n : Nat) : Word :=
  BitVec.ofNat 64 (1024 * 2 ^ 48 + 24 * 2 ^ 32 + 4 * 2 ^ 16 + 8 * 2 ^ 4 + (if n < 60 then 0 else if n < 124 then 1 else 3))

def State.port (s : State) (n : Nat) : FPort := sget s.fab.ports { cfg := portCfg n } n
def State.setPort (s : State) (n : Nat) (p : FPort) : State := { s with fab := { s.fab with ports := sput s.fab.ports n p } }
def State.modPort (s : State) (n : Nat) (f : FPort → FPort) : State := s.setPort n (f (s.port n))

def FPort.role (p : FPort) : Nat := bits p.cfg 0 2
def FPort.thresh (p : FPort) : Nat := Nat.max 1 (bits p.cfg 48 16)
def FPort.window (p : FPort) : Nat :=
  let w := bits p.cfg 32 8
  2 ^ (if 10 ≤ w ∧ w ≤ 30 then w else 24)

def popcount (v : BitVec 16) : Nat := ((upTo 0 16).filter (bit v ·)).length

def FPort.width (p : FPort) : Nat := popcount p.active
def FPort.up (p : FPort) : Bool := p.active != 0 && p.role != 3

/-- R424: the health score; its subtraction stops at 0. -/
def FPort.health (p : FPort) : Nat :=
  if p.active = 0 then 0 else 15 - (16 - p.width) - min 7 (Nat.log2 (1 + p.lastNacks))

def FPort.stat (p : FPort) : Word :=
  BitVec.ofNat 64 (p.active.toNat * 2 ^ 48 + p.standby.toNat * 2 ^ 32 + p.health * 2 ^ 28 + p.width * 2 ^ 23 + min p.nacks 0xFFFF)

/-! ## Flits (R415) -/

namespace FType
def idle : Nat := 0
def head : Nat := 1
def body : Nat := 2
def credit : Nat := 4
def nack : Nat := 5
def restripe : Nat := 6
def shedreq : Nat := 7
def abort : Nat := 8
end FType

def Flit.lcw (f : Flit) : Nat := recNat f 0 4
def Flit.seq (f : Flit) : Nat := Flit.lcw f / 2 ^ 20
def Flit.vc (f : Flit) : Nat := Flit.lcw f / 2 ^ 16 % 16
def Flit.type (f : Flit) : Nat := Flit.lcw f / 2 ^ 12 % 16
def Flit.ack (f : Flit) : Nat := Flit.lcw f % 2 ^ 12
def Flit.crc (f : Flit) : Nat := recNat f 252 4
def Flit.payload (f : Flit) : List Byte := (f.drop 4).take 248

def padTo (n : Nat) (bs : List Byte) : List Byte := bs.take n ++ List.replicate (n - bs.length) 0

/-- R415, R416: a flit that a receiver takes: its check matches and its TYPE and VC are not reserved. -/
def Flit.good (f : Flit) : Bool :=
  f.length == 256 && Flit.crc f == crc32 (f.take 252) && [0, 1, 2, 4, 5, 6, 7, 8].contains (Flit.type f) && decide (Flit.vc f < 12)

/-- R435: a stomped flit: its check field is the complement of the right one. -/
def Flit.stomped (f : Flit) : Bool :=
  f.length == 256 && Flit.crc f == 0xFFFFFFFF - crc32 (f.take 252) && Flit.type f == FType.head && decide (Flit.vc f < 12)

/-- A flit as its transmitter builds it. -/
def mkFlit (seq vc ty ack : Nat) (payload : List Byte) : Flit :=
  let b := natBytes 4 (seq % 4096 * 2 ^ 20 + vc * 2 ^ 16 + ty * 2 ^ 12 + ack % 4096) ++ padTo 248 payload
  b ++ natBytes 4 (crc32 b)

/-- R415: the last data flit received in order on a port. -/
def FPort.ackSeq (p : FPort) : Nat := (p.rxNext + 4095) % 4096

/-- R418: the lane on which stream unit `u` travels. -/
def laneOf (mask : BitVec 16) (u : Nat) : Nat := ((upTo 0 16).filter (bit mask ·)).getD (u % popcount mask) 0

/-- R418: the lanes of the sixteen units of a flit, the first of which is stream unit `start`. -/
def flitLanes (mask : BitVec 16) (start : Nat) : List Nat := (upTo start 16).map (laneOf mask)

/-- R415, R418: the stream units that a flit takes up: of data flits alone; a control flit travels as the next data flit would (log 170). -/
def Flit.units (f : Flit) : Nat := if Flit.type f = FType.head ∨ Flit.type f = FType.body then 16 else 0

/-- A flit leaves on the active lanes of a port (R418); a port without them sends nothing. -/
def sendFlit (s : State) (n : Nat) (f : Flit) : State :=
  let p := s.port n
  if p.active = 0 then s
  else { s.modPort n ({ · with txUnits := p.txUnits + Flit.units f }) with outbox := s.outbox ++ [.flit n (flitLanes p.active p.txUnits) f] }

/-- R418: a flit has come on a port: the units of a data flit count. -/
def tookFlit (s : State) (n : Nat) (f : Flit) : State := s.modPort n fun p => { p with rxUnits := p.rxUnits + Flit.units f }

/-- A control flit, `arg` in its SEQ field. -/
def sendControl (s : State) (n ty arg : Nat) (payload : List Byte) : State :=
  sendFlit s n (mkFlit arg 0 ty (s.port n).ackSeq payload)

/-- R415, R426: buffers of an input VC are freed: their credit returns to the sender. -/
def sendCredit (s : State) (port vc count : Nat) : State :=
  if 128 ≤ port ∨ count = 0 then s
  else sendControl s port FType.credit 0 ((upTo 0 12).map fun v => BitVec.ofNat 8 (if v = vc then count else 0))

/-! ## Receiving in order, replay (R416) -/

/-- R416: the flits up to ACKSEQ are acknowledged. -/
def dropAcked : Nat → List (Nat × Flit) → List (Nat × Flit)
  | a, l => match l.findIdx? (fun e => e.1 == a) with
    | some i => l.drop (i + 1)
    | none => l

def noteAck (s : State) (n : Nat) (f : Flit) : State :=
  s.modPort n fun p => { p with replay := dropAcked (Flit.ack f) p.replay }

/-- R416: NACK with the number expected. -/
def sendNack (s : State) (n : Nat) : State :=
  sendControl (s.modPort n ({ · with nacked := true })) n FType.nack (s.port n).rxNext []

/-- R418, R420: the units of a flit in lane order. -/
def laneOrder (p : FPort) : List Nat :=
  ((upTo 0 16).map fun l => (upTo 0 16).filter fun k => laneOf p.rxActive (p.rxUnits + k) == l).foldr (· ++ ·) []

/-- R420: the record of a RESTRIPE: the first unit, in lane order, whose CRC-16 matches. -/
def restripeRecord (p : FPort) (f : Flit) : Option (BitVec 16 × Nat) :=
  ((if p.rxActive = 0 then upTo 0 16 else laneOrder p).map fun k => (f.drop (16 * k)).take 16).findSome? fun r =>
    if crc16 (r.take 14) = recNat r 14 2 then some (BitVec.ofNat 16 (recNat r 0 2), recNat r 2 2 % 4096) else none

/-- R420: the receiver takes NEWMASK; where flits before START are missing it sends NACK. A direction that was down takes up
its numbering at START. -/
def adoptMask (s : State) (n : Nat) (mask : BitVec 16) (start : Nat) : State :=
  let p := s.port n
  let p1 := { p with rxActive := mask, rxStandby := p.rxStandby &&& ~~~mask, asked := p.asked &&& mask, rxUnits := 0
                     rxNext := if p.rxActive = 0 then start else p.rxNext }
  let behind := (start + 4096 - p1.rxNext) % 4096
  if 0 < behind ∧ behind < 2048 then sendNack (s.setPort n p1) n else s.setPort n p1

/-- R416, R420: a flit whose check fails: its records are looked at, else it is discarded and NACK sent. -/
def badFlit (s : State) (n : Nat) (f : Flit) : State :=
  match restripeRecord (s.port n) f with
  | some (m, start) => adoptMask s n m start
  | none => sendNack (tookFlit s n f) n

/-! ## Packets on the link (R417) -/

def FPkt.ctl (p : FPkt) : Nat :=
  p.cls + 4 * p.prio + 16 * b2n p.nonmin + 32 * b2n p.esc + 64 * b2n p.escb

/-- R417: the header of a packet of `len` bytes. -/
def FPkt.header (p : FPkt) (len : Nat) : List Byte :=
  natBytes 3 p.dest ++ natBytes 3 p.src ++ natBytes 1 p.ctl ++ natBytes 1 p.hops ++ natBytes 1 p.op ++ natBytes 1 p.status ++
    natBytes 1 p.sub ++ natBytes 1 0 ++ natBytes 2 len ++ natBytes 2 p.arrive ++ natBytes 4 p.tag ++ natBytes 4 0 ++
    natBytes 8 p.addr

/-- R417: the header and data. -/
def FPkt.bytes (p : FPkt) : List Byte := p.header p.data.length ++ p.data

/-- The packet that a header begins. -/
def pktOf (h : List Byte) (via : Nat) : FPkt :=
  let c := recNat h 6 1
  { dest := recNat h 0 3 % 2 ^ 18, src := recNat h 3 3 % 2 ^ 18, cls := c % 4, prio := c / 4 % 4, nonmin := c.testBit 4
    esc := c.testBit 5, escb := c.testBit 6, hops := recNat h 7 1, op := recNat h 8 1, status := recNat h 9 1, sub := recNat h 10 1
    arrive := recNat h 14 2, tag := recNat h 16 4, addr := recNat h 24 8, via := via }

/-- R417: a header with a reserved OP or CTL value. -/
def badHeader (h : List Byte) : Bool :=
  decide (8 < recNat h 8 1) || decide (recNat h 6 1 % 4 = 3) || (recNat h 6 1).testBit 7

def State.vcq (s : State) (k : Nat) : List InPkt := sget s.fab.inq [] k
def State.setVcq (s : State) (k : Nat) (l : List InPkt) : State := { s with fab := { s.fab with inq := sput s.fab.inq k l } }

def satAdd (cap a b : Nat) : Nat := min cap (a + b)

/-- A HEAD flit comes into its input VC. -/
def headIn (s : State) (n vc : Nat) (f : Flit) : State :=
  let h := Flit.payload f
  let len := recNat h 12 2
  let bad := badHeader h
  let e : InPkt := { pkt := { pktOf h n with data := (h.drop 32).take len }, flits := 1, need := (32 + len + 247) / 248, at_ := s.tick
                     since := s.tick, len := len, bad := bad, seqIn := Flit.seq f, stomp := if Flit.stomped f then some (Flit.seq f) else none }
  let s1 := if bad ∧ !Flit.stomped f then
      { s with tel := { s.tel with badhdr := sput s.tel.badhdr n (satAdd (2 ^ 32 - 1) (sget s.tel.badhdr 0 n) 1) } } else s
  if bad ∧ e.need ≤ 1 ∧ !Flit.stomped f then sendCredit s1 n vc 1
  else s1.setVcq (12 * n + vc) (s.vcq (12 * n + vc) ++ [e])

/-- A BODY flit comes into its input VC: it belongs to the packet whose flits are still coming, else it is dropped. A packet
that the router drops gives up its buffers as its last flit comes. -/
def bodyIn (s : State) (n vc : Nat) (f : Flit) : State :=
  let k := 12 * n + vc
  match (s.vcq k).reverse with
  | e :: r =>
    if e.need ≤ e.flits ∨ e.stomp.isSome then sendCredit s n vc 1
    else
      let e1 := { e with flits := e.flits + 1, pkt := { e.pkt with data := (e.pkt.data ++ Flit.payload f).take e.len } }
      if e.bad ∧ e1.need ≤ e1.flits then sendCredit (s.setVcq k r.reverse) n vc (e1.need - e1.sent)
      else s.setVcq k (e1 :: r).reverse
  | [] => sendCredit s n vc 1

/-- R416: DATA_FLIT, of a flit whose check is right: in order, or a gap. -/
def dataIn (s : State) (n : Nat) (f : Flit) : State :=
  let s1 := noteAck (tookFlit s n f) n f
  if Flit.seq f ≠ (s.port n).rxNext then (if (s.port n).nacked then s1 else sendNack s1 n)
  else
    let s2 := s1.modPort n fun p => { p with rxNext := (p.rxNext + 1) % 4096, nacked := false }
    if Flit.type f = FType.head then headIn s2 n (Flit.vc f) f else bodyIn s2 n (Flit.vc f) f

/-- A control flit of a type, received whole: its acknowledgement is noted; a flit whose check fails is R416's. -/
def controlFlit (s : State) (n ty : Nat) (f : Flit) (k : State → State) : Host.Outcome State Fault Refusal :=
  if (s.port n).rxActive = 0 then .next s
  else if !Flit.good f then .next (badFlit s n f)
  else if Flit.type f ≠ ty then .next s
  else .next (k (noteAck (tookFlit s n f) n f))

/-- R415: CREDIT. -/
def execCreditFlit (port : Nat) (flit : Flit) (s : State) : Host.Outcome State Fault Refusal :=
  controlFlit s port FType.credit flit fun s =>
    s.modPort port fun p =>
      { p with credits := (upTo 0 12).foldl (fun c v => sput c v (sget c 0 v - recNat (Flit.payload flit) v 1)) p.credits }

/-- R435: the check field's complement. -/
def stompFlit (f : Flit) : Flit := f.take 252 ++ natBytes 4 (0xFFFFFFFF - crc32 (f.take 252))

/-- R416: a data flit goes out again, with the acknowledgement of this moment; a stomped one keeps its mark and its ABORT. -/
def resend (s : State) (n : Nat) (f : Flit) : State :=
  let g := mkFlit (Flit.seq f) (Flit.vc f) (Flit.type f) (s.port n).ackSeq (Flit.payload f)
  if Flit.stomped f then sendControl (sendFlit s n (stompFlit g)) n FType.abort (Flit.seq f) [] else sendFlit s n g

/-- R416: NACK. -/
def execNackFlit (port : Nat) (flit : Flit) (s : State) : Host.Outcome State Fault Refusal :=
  controlFlit s port FType.nack flit fun s =>
    let p := s.port port
    let again := match p.replay.findIdx? (fun e => e.1 == Flit.seq flit) with
      | some i => p.replay.drop i
      | none => []
    let s1 := s.setPort port { p with nacks := satAdd 0xFFFF p.nacks 1, winNacks := p.winNacks + 1
                                      replay := if again = [] then p.replay else again }
    again.foldl (fun s e => resend s port e.2) s1

/-- A packet leaves an input VC before it has been sent whole: an output that it holds is free, what is left of its credits with it,
and ABORT tells the next router (R435; log 24). -/
def takeBack (s : State) (e : InPkt) : State :=
  match e.out with
  | some m =>
    if e.sent = 0 ∨ m = 128 then s
    else sendControl (s.modPort m fun p => { p with
      sending := none, credits := sput p.credits e.vcOut (sget p.credits 0 e.vcOut - (e.need - e.sent)) }) m FType.abort e.seqOut []
  | none => s

/-- Since when the packet that now heads an input VC has done so (R430). -/
def atHead (s : State) (was q : List InPkt) : List InPkt :=
  match was, q with
  | w :: _, e :: r => if w.seqIn = e.seqIn ∧ w.at_ = e.at_ then e :: r else { e with since := s.tick } :: r
  | _, _ => q

/-- The packets of an input VC that meet a test leave it, and the credits of their buffers return. -/
def discard (s : State) (n vc : Nat) (f : InPkt → Bool) : State :=
  let q := s.vcq (12 * n + vc)
  let gone := q.filter f
  let s1 := (gone.foldl takeBack s).setVcq (12 * n + vc) (atHead s q (q.filter (!f ·)))
  sendCredit s1 n vc ((gone.map fun e => e.flits - e.sent).foldr (· + ·) 0)

/-- R435: ABORT: the HEAD that it names, and what has come of its packet, leave their VC, and their credits return. -/
def execAbortFlit (port : Nat) (flit : Flit) (s : State) : Host.Outcome State Fault Refusal :=
  controlFlit s port FType.abort flit fun s =>
    (upTo 0 12).foldl (fun s vc => discard s port vc fun e =>
      e.stomp == some (Flit.seq flit) || (e.seqIn == Flit.seq flit && decide (e.flits < e.need))) s

/-! ## Lanes (R418 to R422) -/

/-- R420: RESTRIPE: sixteen copies of its record, the first and last overlaid by the link control word and the check (log 48). -/
def restripeFlitOf (p : FPort) (mask : BitVec 16) : Flit :=
  let r := natBytes 2 mask.toNat ++ natBytes 2 p.seq ++ List.replicate 10 0
  let u := r ++ natBytes 2 (crc16 r)
  let all := (upTo 0 16).foldr (fun _ l => u ++ l) []
  mkFlit p.seq 0 FType.restripe p.ackSeq ((all.drop 4).take 248)

/-- R420: the transmitter sends RESTRIPE, and uses the new mask from then on. -/
def restripeTo (s : State) (n : Nat) (mask : BitVec 16) : State :=
  let p := s.port n
  let s1 := if p.active = 0 then { s with outbox := s.outbox ++ [.flit n (flitLanes mask 0) (restripeFlitOf p mask)] }
    else sendFlit s n (restripeFlitOf p mask)
  s1.modPort n fun p => { p with active := mask, standby := p.standby &&& ~~~mask, txUnits := 0 }

/-- R422: the packets whose HEAD has not left on a port choose again. -/
def liftRoutes (s : State) (n : Nat) : State :=
  { s with fab := { s.fab with inq := s.fab.inq.map fun e => (e.1, e.2.map fun q =>
      if q.out = some n ∧ q.sent = 0 then { q with out := none } else q) } }

/-- R422: a packet whose first flits have left on a port that goes down is lost: what is here of it goes, and what comes is dropped. -/
def loseSent (s : State) (n : Nat) : State :=
  match (s.port n).sending with
  | none => s
  | some k =>
    let mine (e : InPkt) : Bool := e.out == some n && decide (0 < e.sent)
    let whole (e : InPkt) : Bool := mine e && decide (e.need ≤ e.flits)
    let s1 := discard (s.modPort n ({ · with sending := none })) (k / 12) (k % 12) whole
    sendCredit (s1.setVcq k ((s1.vcq k).map fun e => if mine e then { e with bad := true, out := none, sent := e.flits } else e))
      (k / 12) (k % 12) (((s1.vcq k).filter mine).map fun e => e.flits - e.sent).sum

/-- R422: the transmit direction goes down: the flits that are not acknowledged are lost, with their credits, and routes avoid
the port. -/
def txDown (s : State) (n : Nat) : State :=
  liftRoutes ((loseSent (s.modPort n ({ · with active := 0 })) n).modPort n ({ · with replay := [], credits := [] })) n

/-- R422: the receive direction goes down: partial packets are discarded and their credits returned. -/
def rxDown (s : State) (n : Nat) : State :=
  let s1 := s.modPort n fun p => { p with rxActive := 0, asked := 0, nacked := false }
  (upTo 0 12).foldl (fun s vc => discard s n vc fun e => decide (e.flits < e.need) || e.stomp.isSome) s1

/-- R422: LINK_DOWN. -/
def execLinkDown (port : Nat) (dir : LinkDir) (s : State) : Host.Outcome State Fault Refusal :=
  match dir with
  | .outbound => .next (txDown (s.modPort port fun p => { p with trained := 0, standby := 0 }) port)
  | .inbound => .next (rxDown (s.modPort port fun p => { p with rxTrained := 0, rxStandby := 0 }) port)

/-- R420: SHEDREQ: the lanes are shed, one of a pair keeping its training (which one the request does not say: log 3); below 4
lanes the direction goes down (R419). -/
def execShedreqFlit (port : Nat) (flit : Flit) (s : State) : Host.Outcome State Fault Refusal :=
  controlFlit s port FType.shedreq flit fun s =>
    let p := s.port port
    let shed : BitVec 16 := BitVec.ofNat 16 (recNat (Flit.payload flit) 0 2) &&& p.active
    if shed = 0 then s
    else
      let (v, s1) := s.drawFree
      let kept := if bit v 0 then (upTo 0 16).reverse.find? (bit shed ·) else (upTo 0 16).find? (bit shed ·)
      let spare : BitVec 16 := match kept with | some k => BitVec.ofNat 16 (2 ^ k) | none => 0
      let s2 := s1.modPort port fun p => { p with standby := p.standby ||| spare, trained := p.trained &&& ~~~(shed &&& ~~~spare) }
      if popcount (p.active &&& ~~~shed) < 4 then txDown s2 port else restripeTo s2 port (p.active &&& ~~~shed)

/-- R419, R503: the lanes that a laser feeds lose their light: they are shed, one more with them where the width would be odd (the
highest: log 150), and need training. -/
def shedFed (s : State) (n : Nat) (fed : BitVec 16) : State :=
  let p := s.port n
  let rest := p.active &&& ~~~fed
  let spare : BitVec 16 :=
    if popcount rest % 2 = 0 then 0 else match (upTo 0 16).reverse.find? (bit rest ·) with | some k => BitVec.ofNat 16 (2 ^ k) | none => 0
  let s1 := s.modPort n fun p => { p with standby := (p.standby ||| spare) &&& ~~~fed, trained := p.trained &&& ~~~fed }
  if p.active &&& fed = 0 then s1
  else if popcount (rest &&& ~~~spare) < 4 then txDown s1 n else restripeTo s1 n (rest &&& ~~~spare)

/-- R420: RESTRIPE. Minimal mode has no fabric (R532). -/
def execRestripeFlit (port : Nat) (flit : Flit) (s : State) : Host.Outcome State Fault Refusal :=
  if s.boot.minimal then .next s
  else if Flit.good flit ∧ Flit.type flit ≠ FType.restripe then .next s
  else
    let s1 := if Flit.good flit then noteAck s port flit else s
    match restripeRecord (s.port port) flit with
    | some (m, start) => .next (adoptMask s1 port m start)
    | none => if Flit.good flit then .next (tookFlit s1 port flit) else .next (sendNack (tookFlit s port flit) port)

/-- R419: the corrected symbols of each lane since they were looked at last: the line's, not the module's (log 3). -/
def sampleErrs (s : State) (n : Nat) : State :=
  (upTo 0 16).foldl (fun s k =>
    let (v, s1) := s.drawFree
    s1.modPort n fun p => { p with errs := sput p.errs k (sget p.errs 0 k + bits v 0 32) }) s

/-- The lane with the most corrected symbols, ties to the higher number. -/
def worstLane (p : FPort) : List Nat → Option Nat
  | [] => none
  | k :: ks => match worstLane p ks with
    | none => some k
    | some j => if sget p.errs 0 j < sget p.errs 0 k then some k else some j

/-- R419: the receiver sheds a lane and, with it, a second one; from width 4 the direction goes down. -/
def shedLane (s : State) (n lane : Nat) : State :=
  let p := s.port n
  let mask := p.rxActive &&& ~~~p.asked
  if !bit mask lane then s
  else
    let bad : BitVec 16 := BitVec.ofNat 16 (2 ^ lane)
    let second := worstLane p ((upTo 0 16).filter fun k => bit mask k && k != lane)
    let spare : BitVec 16 := match second with | some k => BitVec.ofNat 16 (2 ^ k) | none => 0
    let s1 := sendControl (s.setPort n { p with asked := p.asked ||| bad ||| spare, rxTrained := p.rxTrained &&& ~~~bad
                                                rxStandby := p.rxStandby ||| spare }) n FType.shedreq 0 (natBytes 2 (bad ||| spare).toNat)
    if popcount mask ≤ 4 then rxDown s1 n else s1

/-- R419: UNCORRECTABLE_CODEWORD. -/
def execUncorrectableCodeword (port lane : Nat) (s : State) : Host.Outcome State Fault Refusal :=
  if !bit ((s.port port).rxActive) lane then .next s else .next (shedLane (sampleErrs s port) port lane)

/-- R419, R424: the end of a window: the lanes above THRESH are shed, and the NACKs of the window become those of the last. -/
def execShedWindowEnd (port : Nat) (s : State) : Host.Outcome State Fault Refusal :=
  let p := s.port port
  if s.tick < p.winStart + p.window then .next s
  else
    let s1 := sampleErrs s port
    let isOver := (upTo 0 16).filter fun k => bit p.rxActive k && decide (p.thresh < sget (s1.port port).errs 0 k)
    let s2 := isOver.foldl (fun s k => shedLane s port k) s1
    .next (s2.modPort port fun p => { p with errs := [], winStart := s.tick, lastNacks := p.winNacks, winNacks := 0 })

/-- R419: the greatest legal mask within the trained lanes: an even number of lanes, 4 to 16, the lowest numbers. -/
def legalMask (trained : BitVec 16) : BitVec 16 :=
  let l := (upTo 0 16).filter (bit trained ·)
  let w := l.length / 2 * 2
  if w < 4 then 0 else (l.take w).foldl (fun m k => m ||| BitVec.ofNat 16 (2 ^ k)) 0

/-- R419: a lane finishes retraining, and the fabric manager may readmit the trained lanes in a restripe: whether it does so
now is free (log 3, log 49). The receive direction is readmitted by the peer's RESTRIPE. Minimal mode has no fabric (R532). -/
def execLaneRetrain (port lane : Nat) (s : State) : Host.Outcome State Fault Refusal :=
  if s.boot.minimal then .next s else
  let m : BitVec 16 := BitVec.ofNat 16 (2 ^ lane)
  let p := s.port port
  let s1 := s.setPort port { p with trained := p.trained ||| m, rxTrained := p.rxTrained ||| m
                                    standby := if bit p.active lane then p.standby else p.standby ||| m
                                    rxStandby := if bit p.rxActive lane then p.rxStandby else p.rxStandby ||| m }
  let (v, s2) := s1.drawFree
  let mask := legalMask (p.trained ||| m)
  if bit v 0 ∧ p.role ≠ 3 ∧ p.width < popcount mask then .next (restripeTo s2 port mask) else .next s2

/-! ## Routing (R426, R428 to R431) -/

/-- R426: the flit buffers of a VC. -/
def vcBuffers (vc : Nat) : Nat := if vc % 4 = 3 then 20 else 32

/-- R426: whether a port holds the credits of a whole packet on a VC. -/
def FPort.hasCredit (p : FPort) (vc need : Nat) : Bool := decide (sget p.credits 0 vc + need ≤ vcBuffers vc)

/-- R428: the entry of a destination. -/
def routeEntry (s : State) (dest : Nat) : Word :=
  if dest / 256 = s.deviceId / 256 then sget s.fab.lrt 0 (dest % 256) else sget s.fab.grt 0 (dest / 256)

def entryPort (e : Word) (lo : Nat) : Option Nat := if bit e (lo + 7) then some (bits e lo 7) else none

def candidates (e : Word) : List Nat := [0, 8, 16, 24].filterMap (entryPort e)
def escPort (e : Word) (bank : Bool) : Option Nat := entryPort e (if bank then 40 else 32)

/-- R429: a port that adaptive routing may take. -/
def admits (s : State) (n : Nat) : Bool := (s.port n).up && decide (bits (s.port n).cfg 16 4 ≤ (s.port n).health)

/-- R429: flits of a class queued for a port, and those on it without credit yet, the rest of the packet that it sends among them. -/
def occupancy (s : State) (n cls : Nat) : Nat :=
  let queued := s.fab.inq.foldl (fun a e =>
    e.2.foldl (fun a q => if q.out = some n ∧ q.sent = 0 ∧ q.pkt.cls = cls then a + q.need else a) a) 0
  (upTo (4 * cls) 4).foldl (fun a v => a + sget (s.port n).credits 0 v) queued

def routeCost (s : State) (n cls : Nat) : Nat := occupancy s n cls + bits (s.port n).cfg 4 4 * (15 - (s.port n).health)

/-- The cheapest port, ties to the lower number (the list rises). -/
def cheapest (s : State) (cls : Nat) : List Nat → Option Nat
  | [] => none
  | n :: ns => match cheapest s cls ns with
    | none => some n
    | some m => if routeCost s m cls < routeCost s n cls then some m else if routeCost s n cls = routeCost s m cls ∧ m < n then some m else some n

/-- R429: the global ports of this module that are admitted and no candidates. -/
def farPorts (s : State) (c : List Nat) : List Nat :=
  (upTo 60 68).filter fun n => ((s.port n).role == 1 || (s.port n).role == 2) && admits s n && !c.contains n

/-- What R429 comes to: a port, a port that is not minimal, or escape. -/
inductive Route where
  | minimal (n : Nat)
  | nonmin  (n : Nat)
  | escape
deriving DecidableEq, Repr

def chooseRoute (s : State) (p : FPkt) : Route :=
  let c := (candidates (routeEntry s p.dest)).filter (admits s ·)
  let far := if p.hops = 0 ∧ p.dest / 256 ≠ s.deviceId / 256 then cheapest s p.cls (farPorts s c) else none
  match cheapest s p.cls c, far with
  | none, none => .escape
  | none, some n => .nonmin n
  | some m, none => .minimal m
  | some m, some n => if 2 * routeCost s n p.cls + 32 < routeCost s m p.cls then .nonmin n else .minimal m

/-- R430: a packet enters VC3, under the bank that is active here. -/
def enterEscape (s : State) (e : InPkt) : InPkt :=
  { e with pkt := { e.pkt with esc := true, escb := s.fab.escActive }
           out := escPort (routeEntry s e.pkt.dest) s.fab.escActive }

/-- R428, R186: the answer to a packet that no entry routes; only a request is answered (R425). -/
def answerNoRoute (s : State) (p : FPkt) : State :=
  if p.cls ≠ 0 then s
  else inject s { dest := p.src, src := s.deviceId, cls := 1, prio := p.prio, op := Op.ack, status := Code.fabricUnreachable, sub := 1
                  tag := p.tag }

/-- The first packet of an input VC leaves it, and the credit of its buffers returns. -/
def popVc (s : State) (k : Nat) (e : InPkt) : State :=
  let q := match (s.vcq k).drop 1 with
    | f :: r => { f with since := s.tick } :: r
    | [] => []
  sendCredit (s.setVcq k q) (k / 12) (k % 12) (e.need - e.sent)

/-- R428 to R430: the HEAD `e` at the head of its input VC chooses its output. -/
def routeHead (s : State) (e : InPkt) (k : Nat) : State :=
  let r := (s.vcq k).drop 1
  let ent := routeEntry s e.pkt.dest
  if e.bad ∨ e.stomp.isSome ∨ e.out.isSome then s
  else if e.pkt.dest = s.deviceId then s.setVcq k ({ e with out := some 128 } :: r)
  else if candidates ent = [] ∧ escPort ent false = none ∧ escPort ent true = none then
    if e.flits < e.need then s else answerNoRoute (popVc s k e) e.pkt
  else if e.pkt.esc then s.setVcq k ({ e with out := escPort ent e.pkt.escb } :: r)
  else if 8 ≤ e.pkt.hops then s.setVcq k (enterEscape s e :: r)
  else match chooseRoute s e.pkt with
    | .minimal n => s.setVcq k ({ e with out := some n } :: r)
    | .nonmin n => s.setVcq k ({ e with pkt := { e.pkt with nonmin := true }, out := some n } :: r)
    | .escape => s.setVcq k (enterEscape s e :: r)

/-- R428 to R430: ROUTE_SELECT. -/
def execRouteSelect (port vc : Nat) (s : State) : Host.Outcome State Fault Refusal :=
  match s.vcq (12 * port + vc) with
  | [] => .next s
  | e :: _ => .next (routeHead s e (12 * port + vc))

/-- R426, R430: the VCs of a packet's class on which a port could send it now. -/
def openVcs (p : FPort) (e : InPkt) : List Nat :=
  if e.pkt.esc then (if p.hasCredit (4 * e.pkt.cls + 3) e.need then [4 * e.pkt.cls + 3] else [])
  else (upTo (4 * e.pkt.cls) 3).filter fun v => p.hasCredit v e.need

/-- R430: ESCAPE_ENTRY: a HEAD that has waited 128 cycles at the head of its VC, without credit now, enters VC3. -/
def execEscapeEntry (port vc : Nat) (s : State) : Host.Outcome State Fault Refusal :=
  let k := 12 * port + vc
  match s.vcq k with
  | [] => .next s
  | e :: r =>
    match e.out with
    | some n =>
      if n = 128 ∨ e.pkt.esc ∨ e.bad ∨ 0 < e.sent ∨ (s.tick < e.since + 128 ∧ e.pkt.hops < 8) ∨ openVcs (s.port n) e ≠ [] then .next s
      else .next (s.setVcq k (enterEscape s e :: r))
    | none => .next s

/-! ## The outputs (R434) -/

/-- R434: a packet whose HEAD an output may send now: at the head of its VC, with the credit of the whole packet (R426), and room in the
replay buffer. This module takes a packet that has come whole. -/
def canSend (s : State) (n : Nat) (e : InPkt) : Bool :=
  e.out == some n && !e.bad && e.stomp.isNone && e.sent == 0 &&
    (if n = 128 then decide (e.need ≤ e.flits)
     else (s.port n).up && openVcs (s.port n) e != [] && decide ((s.port n).replay.length < 512))

/-- R434: whether packet `a` of an input goes before packet `b` of a later one. -/
def sendsFirst (a b : InPkt) : Bool :=
  if (a.age == 255) != (b.age == 255) then a.age == 255
  else if a.pkt.prio ≠ b.pkt.prio then decide (a.pkt.prio < b.pkt.prio)
  else decide (a.at_ ≤ b.at_)

/-- The packet that an output sends next, with its input VC (the list rises, so that ties go to the lower input). -/
def bestInput (s : State) (n : Nat) : Sparse (List InPkt) → Option (Nat × InPkt)
  | [] => none
  | (k, q) :: t =>
    match q.head?.filter (canSend s n), bestInput s n t with
    | some e, some (j, f) => if sendsFirst e f then some (k, e) else some (j, f)
    | some e, none => some (k, e)
    | none, x => x

/-- R416, R417: flit `i` of a packet goes out on a port, kept for replay. -/
def sendPart (s : State) (n vc i : Nat) (e : InPkt) : State :=
  let p := s.port n
  let bs := { e.pkt with hops := satAdd 255 e.pkt.hops 1 }.header e.len ++ e.pkt.data
  let f := mkFlit p.seq vc (if i = 0 then FType.head else FType.body) p.ackSeq ((bs.drop (248 * i)).take 248)
  (sendFlit s n f).modPort n fun p => { p with seq := (p.seq + 1) % 4096, replay := p.replay ++ [(p.seq, f)] }

/-- R426, R434: a flit of the packet at the head of an input VC leaves on a port; the credit of its buffer returns, and the last one
frees the output. -/
def sendNext (s : State) (n k : Nat) (e : InPkt) : State :=
  let s1 := sendPart s n e.vcOut e.sent e
  let e1 := { e with sent := e.sent + 1 }
  if e.need ≤ e1.sent then popVc (s1.modPort n ({ · with sending := none })) k e
  else sendCredit (s1.setVcq k (e1 :: (s1.vcq k).drop 1)) (k / 12) (k % 12) 1

/-- R435: a HEAD is forwarded before its check is known: where it would go at once, its input VC being empty: the output, with
the packet as it leaves. -/
def lateCheck (s : State) (n : Nat) (f : Flit) : Option (Nat × InPkt) :=
  let h := Flit.payload f
  let k := 12 * n + Flit.vc f
  if f.length ≠ 256 ∨ Flit.type f ≠ FType.head ∨ 12 ≤ Flit.vc f ∨ Flit.seq f ≠ (s.port n).rxNext ∨ s.vcq k ≠ [] ∨ badHeader h then none
  else
    let len := recNat h 12 2
    let e : InPkt := { pkt := { pktOf h n with data := (h.drop 32).take len }, flits := 1, need := (32 + len + 247) / 248
                       at_ := s.tick, len := len }
    match (routeHead (s.setVcq k [e]) e k).vcq k with
    | e1 :: _ => e1.out.bind fun m =>
        if m ≠ 128 ∧ (s.port m).up ∧ (s.port m).sending = none ∧ openVcs (s.port m) e1 ≠ [] ∧ (s.port m).replay.length < 512 then some (m, e1) else none
    | [] => none

/-- R435: HEAD_STOMP: the forwarded copy leaves with the complement of its check, and ABORT follows. -/
def headStomp (s : State) (m : Nat) (e : InPkt) : State :=
  let (v, s1) := s.drawFree
  let vs := openVcs (s.port m) e
  let vc := vs.getD (v.toNat % Nat.max 1 vs.length) 0
  let p := s.port m
  let f := stompFlit (mkFlit p.seq vc FType.head p.ackSeq ({ e.pkt with hops := satAdd 255 e.pkt.hops 1 }.header e.len ++ e.pkt.data))
  let s2 := (sendFlit s1 m f).modPort m fun p => { p with
    seq := (p.seq + 1) % 4096, replay := p.replay ++ [(p.seq, f)], credits := sput p.credits vc (sget p.credits 0 vc + 1) }
  sendControl s2 m FType.abort p.seq []

/-- R415, R416, R435: DATA_FLIT, and an IDLE flit, whose acknowledgement counts. Whether a HEAD whose check fails had left already is free (log 3). -/
def execDataFlit (port : Nat) (flit : Flit) (s : State) : Host.Outcome State Fault Refusal :=
  if (s.port port).rxActive = 0 then .next s
  else if Flit.stomped flit then .next (dataIn s port flit)
  else if !Flit.good flit then
    match restripeRecord (s.port port) flit, lateCheck s port flit with
    | none, some (m, e) =>
      let (v, s1) := s.drawFree
      .next (badFlit (if bit v 0 then headStomp s1 m e else s1) port flit)
    | _, _ => .next (badFlit s port flit)
  else if Flit.type flit = FType.idle then .next (noteAck (tookFlit s port flit) port flit)
  else if Flit.type flit ≠ FType.head ∧ Flit.type flit ≠ FType.body then .next s
  else .next (dataIn s port flit)

/-- R426, R434: an output takes up a packet: its HEAD leaves with the credits of the whole packet. Which of the open adaptive VCs takes it
is free (log 3). -/
def sendHead (s : State) (n k : Nat) (e : InPkt) : State :=
  let vs := openVcs (s.port n) e
  let (v, s1) := if 1 < vs.length then s.drawFree else (0, s)
  let vc := vs.getD (v.toNat % Nat.max 1 vs.length) 0
  let s2 := s1.modPort n fun p => { p with sending := some k, credits := sput p.credits vc (sget p.credits 0 vc + e.need) }
  sendNext s2 n k { e with vcOut := vc, seqOut := (s.port n).seq }

/-- R434: EGRESS_SEND: a flit of an output: the next of the packet that holds it, IDLE where that has not come, or the HEAD of the best
packet; output 128 delivers to this module. -/
def execEgressSend (port : Nat) (s : State) : Host.Outcome State Fault Refusal :=
  match (s.port port).sending with
  | some k =>
    (match s.vcq k with
     | e :: _ =>
       if e.flits ≤ e.sent then .next (sendControl s port FType.idle 0 [])
       else if 512 ≤ (s.port port).replay.length then .next s
       else .next (sendNext s port k e)
     | [] => .next s)
  | none =>
    match bestInput s port s.fab.inq with
    | none => .next s
    | some (k, e) =>
      if port = 128 then
        let s1 := popVc s k e
        .next { s1 with fab := { s1.fab with inbox := s1.fab.inbox ++ [e.pkt] } }
      else .next (sendHead s port k e)

/-- R434: the ages of the waiting packets move. -/
def agePackets (s : State) : State :=
  ageTick s 3 fun s =>
    { s with fab := { s.fab with inq := s.fab.inq.map fun e => (e.1, e.2.map fun q => { q with age := min 255 (q.age + 1) }) } }

/-- R434: PACKET_AGE_TICK. -/
def execPacketAgeTick (s : State) : Host.Outcome State Fault Refusal := .next (agePackets s)

/-- R431: packets in escape that still follow the bank that is not active. -/
def oldBusy (s : State) : Bool :=
  s.fab.inq.any fun e => e.2.any fun q => q.pkt.esc && q.pkt.escb != s.fab.escActive

/-- R527: a class 1 switch keeps the routing tables and the escape banks frozen. -/
def routesFrozen (s : State) : Bool := classPaused s 1

/-- R431, R527: ESCCTL_FLIP; it waits through a class 1 switch. -/
def execEscctlFlip (m : Master) (d : Word) (s : State) : Host.Outcome State Fault Refusal :=
  if !barWritable s m 0x184800 then .next s
  else if routesFrozen s ∨ mgmtWaits s m then .next s.stall
  else .next { s with fab := { s.fab with escActive := bit d 0 } }

/-! ## Packets at their target (R411 to R413) -/

/-- The first delivered packet of a kind, and the state without it. -/
def takeInbox (s : State) (f : FPkt → Bool) : Option (FPkt × State) :=
  match s.fab.inbox.findIdx? f with
  | none => none
  | some i => (s.fab.inbox[i]?).map fun p => (p, { s with fab := { s.fab with inbox := s.fab.inbox.eraseIdx i } })

/-- R411: a window's base in space 0x0, and its context. -/
def Window.ctx (w : Window) : Nat := bits w.map 40 12
def Window.addr (w : Window) (off : Nat) : Word := BitVec.ofNat 64 (bits w.map 0 39 * 65536 + off)

/-- R412, R413: whether a run of bytes lies in an open window. -/
def Window.holds (w : Window) (off len : Nat) : Bool :=
  let z := bits w.bind 58 6
  bit w.map 63 && decide (16 ≤ z) && decide (z ≤ 38) && decide (off + len ≤ 2 ^ z)

/-- R506, R507: the fabric ingress table, whose windows are the exported windows. -/
def ingressOk (s : State) (w : Nat) (ctx : Nat) (acc : Acc) : Bool :=
  let p := sget (sget s.hedge.tables {} 25).perms 0 (ctx * 16 + 7)
  (!acc.reads || bit p (2 * w)) && (!acc.writes || bit p (2 * w + 1))

/-- R412: the job slot that a window is bound to. -/
def Window.slotNo (w : Window) : Nat := 2 * (96 * bits w.bind 43 4 + bits w.bind 36 7) + bits w.bind 35 1

/-- R412, R413: where a semaphore arrival goes: to the bound job that runs, or to the pending counters of one that has
stopped; none where there is no such job. -/
inductive Bound where
  | job (n : Nat)
  | pending
  | none
deriving DecidableEq, Repr

def boundJob (s : State) (wn : Nat) (w : Window) : Bound :=
  let n := w.slotNo
  let t := s.slot n
  let mine := decide (bits w.bind 36 7 < 96) && t.job.launchid.toNat == bits w.bind 0 32
  if !bit w.bind 47 then .none
  else if mine ∧ (t.state = .running ∨ t.state = .starting ∨ t.state = .stopping ∨ t.state = .killing) then .job n
  else if mine ∧ (t.state = .stopped ∨ t.state = .trapped) then .pending
  else if s.saves.any (fun e => e.2.windows.contains wn && e.2.slot.job.launchid.toNat == bits w.bind 0 32) then .pending
  else .none

/-- R181: what a packet's ARRIVE names. -/
inductive Arrive where
  | none
  | word (off : Nat)
  | sem (n : Nat)
deriving DecidableEq, Repr

def arriveOf (a : Nat) : Arrive :=
  if a = 0xFFFF then .none else if a < 2 ^ 15 then .word (8 * a) else .sem (a % 64)

/-- What the target's checks come to: the requester in the window's context and the pieces of the data and of a word counter; a
refusal's sub-code; or a wait for a channel (R518). -/
inductive Checked where
  | ok (r : Req) (ps qs : List Piece)
  | deny (sub : Nat)
  | wait

/-- R413: a semaphore arrival that no job of the window takes. -/
def unbound (s : State) (wn : Nat) (w : Window) : Arrive → Bool
  | .sem _ => decide (boundJob s wn w = .none)
  | _ => false

/-- R413: the checks of an arriving packet, in their order. -/
def checkPacket (s : State) (p : FPkt) (len : Nat) (acc : Acc) (arr : Arrive) : Checked :=
  let wn := p.addr / 2 ^ 38 % 16
  let off := p.addr % 2 ^ 38
  let w := sget s.windows {} wn
  let r : Req := { cls := 7, ctx := w.ctx }
  let word := match arr with | .word o => some o | _ => none
  let acc' : Acc := if word.isSome then .rw else acc
  if !w.holds off len ∨ !(match word with | some o => w.holds o 8 | none => true) then .deny 1
  else if !ingressOk s wn w.ctx acc' then .deny 2
  else if unbound s wn w arr then .deny 4
  else
    let a := w.addr off
    match resolve s r acc a a len, (match word with | some o => resolve s r .rw (w.addr o) (w.addr o) 8 | none => .ok []) with
    | .ok ps, .ok qs => .ok r ps qs
    | .error t, _ => if t.code = 0 then .wait else .deny 3
    | _, .error t => if t.code = 0 then .wait else .deny 3

/-- The answer to a request, in the response class. -/
def answer (s : State) (p : FPkt) (op status sub : Nat) (data : List Byte) (poison : List (Nat × Nat) := []) : State :=
  inject s { dest := p.src, src := s.deviceId, cls := 1, prio := p.prio, op := op, status := status, sub := sub, tag := p.tag, data := data
             poison := poison }

/-- R413: a request at its target: the first of its kind, checked, performed by `k`, or refused with REMOTE_DENIED. -/
def atTarget (s : State) (op : Nat) (len : FPkt → Nat) (acc : FPkt → Acc) (arr : FPkt → Arrive)
    (k : State → FPkt → Req → List Piece → List Piece → State) : Host.Outcome State Fault Refusal :=
  match takeInbox s (fun p => p.op == op) with
  | none => .next s
  | some (p, s1) =>
    match checkPacket s p (len p) (acc p) (arr p) with
    | .wait => .next s
    | .deny c => .next (answer s1 p Op.ack Code.remoteDenied c [])
    | .ok r ps qs => .next (k s1 p r ps qs)

/-- R181: the data bytes of a packet are added to its counter; the status of the acknowledgement. -/
def addArrival (s : State) (p : FPkt) (r : Req) (arr : Arrive) (qs : List Piece) : State × Nat :=
  let n := p.data.length
  match arr with
  | .none => (s, 0)
  | .word _ => (writePieces s r qs (natBytes 8 (bytesNat (piecesBytes s qs) + n)), 0)
  | .sem k =>
    let wn := p.addr / 2 ^ 38 % 16
    let w := sget s.windows {} wn
    match boundJob s wn w with
    | .job j => (match (s.slot j).addSem k n with
      | some t => (engineSem (s.setSlot j t) j, 0)
      | none => (s, Code.semOverflow))
    | .pending => ({ s with windows := sput s.windows wn { w with pending := sput w.pending k (sget w.pending 0 k + n) } }, 0)
    | .none => (s, 0)

/-- R484: the core that sent a request writes: at a home of this module where the request came back to its sender, and with `answer`
at a home elsewhere, once that has acknowledged it. -/
def noteSender (s : State) (p : FPkt) (answer : Bool) : State :=
  match (if p.src = s.deviceId then !answer else answer), sfind s.fab.xacts p.tag with
  | true, some x => noteWriter s (some (slotCore x.slot))
  | _, _ => s

/-- R335, R343: a packet's read reaches the L2. -/
def arrivedRead (s : State) (p : FPkt) (ps : List Piece) : State :=
  let w := sget s.windows {} (p.addr / 2 ^ 38 % 16)
  readUses s { cls := 7, ctx := w.ctx } (w.addr (p.addr % 2 ^ 38)).toNat ((ps.map (·.len)).foldr (· + ·) 0) ps

/-- R180, R181, R413: PUT. -/
def execPut (s : State) : Host.Outcome State Fault Refusal :=
  atTarget s Op.put (·.data.length) (fun _ => .w) (fun p => arriveOf p.arrive) fun s p r ps qs =>
    let s1 := noteSender (writePieces s r ps p.data) p false
    let s2 := spreadRuns s1 p.poison 0 ps
    let (s3, st) := addArrival s2 p r (arriveOf p.arrive) qs
    answer s3 p Op.ack st 0 []

/-- R180, R413: GETREQ; ARRIVE holds the length (log 44). -/
def execGetreq (s : State) : Host.Outcome State Fault Refusal :=
  atTarget s Op.getreq (·.arrive) (fun _ => .r) (fun _ => .none) fun s p _ ps _ =>
    answer (arrivedRead s p ps) p Op.getdata 0 0 (piecesBytes s ps) (badRuns s 0 ps)

/-- R132, R454: the operand's width. -/
def sigLen (p : FPkt) : Nat := if p.arrive % 16 = 9 then 4 else 8

/-- R132, R454: what a SIG leaves at its location. -/
def sigValue (fn old x : Nat) : Nat :=
  if fn = 9 then faddCode fp32 old (x % 2 ^ 32)
  else if fn = 10 then faddCode fp64 old x
  else (amoOp fn (BitVec.ofNat 64 old) (BitVec.ofNat 64 x)).toNat

/-- R454: SIG. A fn that R132 reserves is of no request of the spec: its packet is dropped. -/
def execSig (s : State) : Host.Outcome State Fault Refusal :=
  atTarget s Op.sig sigLen (fun _ => .rw) (fun _ => .none) fun s p r ps _ =>
    if 10 < p.arrive % 16 then s
    else
      let v := sigValue (p.arrive % 16) (bytesNat (piecesBytes s ps)) (bytesNat (p.data.take 8))
      answer (noteSender (writePieces (arrivedRead s p ps) r ps (natBytes (sigLen p) v)) p false) p Op.ack 0 0 []

/-- R183, R456: the requester of an FLL or FSC: its device, and the number that it sent (log 44). -/
def requesterOf (p : FPkt) : Nat := p.src * 2 ^ 16 + p.arrive

def lineOf (ps : List Piece) : Nat := match ps with | q :: _ => q.key / 128 | [] => 0

/-- R183, R370: FLL: the word is read and the reservation placed, in a table of 4096, the oldest leaving first. -/
def execFllRequest (s : State) : Host.Outcome State Fault Refusal :=
  atTarget s Op.fll (fun _ => 8) (fun _ => .r) (fun _ => .none) fun s p _ ps _ =>
    let kept := (s.resv.filter fun q => q.requester != requesterOf p) ++ [⟨requesterOf p, lineOf ps, s.tick⟩]
    answer { arrivedRead s p ps with resv := kept.drop (kept.length - 4096) } p Op.ack 0 0 (piecesBytes s ps) (badRuns s 0 ps)

/-- R183, R370, R456: FSC. -/
def execFscRequest (s : State) : Host.Outcome State Fault Refusal :=
  atTarget s Op.fsc (fun _ => 8) (fun _ => .rw) (fun _ => .none) fun s p r ps _ =>
    let holds := s.resv.any fun q => q.requester == requesterOf p && q.line == lineOf ps && decide (s.tick - q.since < 100 * us)
    let s1 := { s with resv := s.resv.filter fun q => q.requester != requesterOf p }
    if holds then answer (noteSender (writePieces s1 r ps (p.data.take 8)) p false) p Op.ack 0 0 (natBytes 8 0)
    else answer s1 p Op.ack 0 0 (natBytes 8 1)

/-! ## Answers (R180, R186) -/

/-- The place of the unit that carries a tag. -/
def unitByTag (s : State) (x : Xact) (tag : Nat) : Option (Cmd × Nat × Unit4k) :=
  match x.cmd.bind fun id => (s.slot x.slot).cmd true id with
  | none => none
  | some c => match c.units.findIdx? (fun u => u.tag == some tag) with
    | none => none
    | some i => (c.units[i]?).map fun u => (c, i, u)

/-- R180: GETDATA: the bytes of a fetched block are written at its destination, and the unit lands. -/
def execGetdata (s : State) : Host.Outcome State Fault Refusal :=
  match takeInbox s (fun p => p.op == Op.getdata) with
  | none => .next s
  | some (p, s1) =>
    match sfind s.fab.xacts p.tag with
    | none => .next s1
    | some x =>
      match unitByTag s x p.tag with
      | none => .next (dropXact s1 p.tag)
      | some (c, i, u) =>
        match writeUnit s1 x.slot c { u with parts := u.parts.map fun q => { q with data := p.data, poison := p.poison, late := false } } with
        | .error f => if f.code = 0 then .next s else .next (xactFault s1 p.tag f)
        | .ok s2 => .next (unitLanded (dropXact s2 p.tag) x.slot true c.id i)

/-- R181, R186: an acknowledgement with a fault; one of SEM_OVERFLOW counts the packet's bytes, which were performed. -/
def ackFault (s : State) (x : Xact) (p : FPkt) : State :=
  let s1 := match x.kind, x.cmd with
    | .put n, some id => if p.status = Code.semOverflow then s.modCmd x.slot true id fun c => { c with bytes := c.bytes + n } else s
    | _, _ => s
  xactFault s1 p.tag (trapOf p.status p.sub)

/-- R484: whether an acknowledgement says that its request has written. -/
def Xact.wrote (x : Xact) (p : FPkt) : Bool :=
  match x.kind with
  | .put _ | .sig => true
  | .fsc => leWord (p.data.take 8) == 0
  | .get .. | .fll => false

/-- R180, R183: ACK: a unit has landed, or an FLL or FSC has its answer. -/
def execAck (s : State) : Host.Outcome State Fault Refusal :=
  match takeInbox s (fun p => p.op == Op.ack) with
  | none => .next s
  | some (p, s1) =>
    match sfind s.fab.xacts p.tag with
    | none => .next s1
    | some x =>
      let s1 := if x.wrote p ∧ p.status = 0 then noteSender s1 p true else s1
      if p.status ≠ 0 then .next (ackFault s1 x p)
      else match x.cmd with
        | none => .next ((dropXact s1 p.tag).modSlot x.slot fun t =>
            if (t.reply x.st 0).isNone then t
            else if p.poison ≠ [] then t.setReply x.st 3 0 else t.setReply x.st 1 (leWord (p.data.take 8)))
        | some _ => match unitByTag s x p.tag with
          | none => .next (dropXact s1 p.tag)
          | some (c, i, _) => .next (unitLanded (dropXact s1 p.tag) x.slot true c.id i)

end Sys2Proof.Machine
end

