-- ==== Sys2Proof/Machine/Reduction.lean ====
section
/-!
DEFINITION. Reduction groups and collectives (chapter 15): the groups and their trees (R437, R438), the participants (R439 to R444,
R449, R453), the combiner nodes (R445 to R447, R451), and the root (R448, R452).
-/

namespace Sys2Proof.Machine

def State.group (s : State) (g : Nat) : Option Group := sfind s.fab.groups g
def State.setGroup (s : State) (g : Nat) (v : Group) : State := { s with fab := { s.fab with groups := sput s.fab.groups g v } }
def State.modGroup (s : State) (g : Nat) (f : Group → Group) : State :=
  match s.group g with
  | some v => s.setGroup g (f v)
  | none => s

/-! ## Trees (R438) -/

/-- The least L with F^L ≥ N. -/
def depthFrom (f n : Nat) : Nat → Nat → Nat
  | 0, l => l
  | k + 1, l => if n ≤ f ^ l then l else depthFrom f n k (l + 1)

def Group.depth (g : Group) : Nat := depthFrom g.fanin g.n 18 0

/-- The number of nodes of a level. -/
def Group.nodes (g : Group) (l : Nat) : Nat := (g.n + g.fanin ^ l - 1) / g.fanin ^ l

/-- The module of a node, and of leaf position `p`. -/
def Group.leaf (g : Group) (p : Nat) : Nat := g.leaves.getD p (2 ^ 18)
def Group.host (g : Group) (l i : Nat) : Nat := g.leaf (g.fanin ^ l * i)

/-- The children of a node, by c. -/
def Group.children (g : Group) (l i : Nat) : List Nat :=
  (upTo 0 g.fanin).filter fun c => decide (g.fanin * i + c < g.nodes (l - 1))

/-- The leaf position of a module. -/
def Group.place (g : Group) (dev : Nat) : Option Nat := g.leaves.findIdx? (· == dev)

/-- R438: the child of a level-`l` node that a module at leaf position `q` hosts: the node's index, and c. -/
def Group.childOf (g : Group) (l q : Nat) : Nat × Nat :=
  let j := q / g.fanin ^ (l - 1)
  (j / g.fanin, j % g.fanin)

/-- The levels above 0 of the nodes that the module at leaf position `p` hosts. -/
def Group.hosted (g : Group) (p : Nat) : List Nat := (upTo 1 g.depth).filter fun l => p % g.fanin ^ l == 0

/-! ## FAB.RGINST (R437) -/

def distinct : List Nat → Bool
  | [] => true
  | a :: t => !t.contains a && distinct t

/-- The bytes at a physical address as the hub reads them: 0 where the module has no memory. -/
def physBytes (s : State) (a n : Nat) : List Byte :=
  if (physTarget s a).isSome ∧ (physTarget s (a + n - 1)).isSome then readBytes s.mem a n else List.replicate n 0

/-- The group of an install record. -/
def groupOf (s : State) (r : List Byte) : Group :=
  let n := recNat r 4 4
  { fanin := recNat r 3 1, n := n, leaves := (upTo 0 n).map fun p => memNat s (recNat r 8 8 + 4 * p) 4, stage := recNat r 16 8
    maxElems := recNat r 24 4, timeout := if recNat r 28 2 = 0 then 50 else recNat r 28 2, report := recNat r 32 8 }

/-- R437: what is wrong with LEAVES. -/
def leavesBad (s : State) (r : List Byte) : Bool :=
  let a := recNat r 8 8
  let v := groupOf s r
  a % 4 != 0 || (physTarget s a).isNone || (physTarget s (a + 4 * v.n - 1)).isNone || v.leaves.any (fun d => decide (2 ^ 18 ≤ d)) ||
    !distinct v.leaves || !v.leaves.contains s.deviceId

/-- R437: what the root requires of MAXELEMS, STAGE and REPORT. -/
def rootBad (v : Group) : Bool :=
  v.maxElems % 128 != 0 || v.maxElems < 128 || 2 ^ 20 < v.maxElems || v.stage % 4096 != 0 || v.report % 64 != 0 ||
    !isHbm v.stage || !isHbm (v.stage + 4 * (v.maxElems / 128) * 544 - 1) || !isHbm v.report || !isHbm (v.report + 2047)

/-- R437: ERR of an operation; 0 when it may go on. -/
def rgError (s : State) (r : List Byte) : Nat :=
  let g := recNat r 0 2
  let op := recNat r 2 1
  let f := recNat r 3 1
  let n := recNat r 4 4
  if 1023 < g then 1
  else if 1 < op then 4
  else if op = 1 then (if (s.group g).isNone then 4 else 0)
  else if (s.group g).isSome then 4
  else if f < 2 ∨ 16 < f ∨ n < 2 ∨ 2 ^ 18 < n then 2
  else if leavesBad s r then 3
  else if (groupOf s r).leaf 0 = s.deviceId ∧ rootBad (groupOf s r) then 5
  else 0

/-- R437: a write of FAB.RGINST, given the operations that the event is of; it waits while a channel holds its reads (R518). -/
def rgWrite (s : State) (m : Master) (d : Word) (mine : Nat → Bool) (k : State → Nat → List Byte → State) : State :=
  let r := physBytes s (bits d 6 46 * 64) 64
  if !readReady s (bits d 6 46 * 64) 64 ∨ (recNat r 4 4 ≤ 2 ^ 18 ∧ !readReady s (recNat r 8 8) (4 * recNat r 4 4)) then s
  else if !barWritable s m 0x185000 ∨ !mine (recNat r 2 1) then s
  else if mgmtWaits s m then s.stall
  else if s.fab.rgBusy.isSome then { s with fab := { s.fab with rgErr := 6 } }
  else
    let e := rgError s r
    if e ≠ 0 then { s with fab := { s.fab with rgErr := e } } else k { s with fab := { s.fab with rgErr := 0 } } (recNat r 0 2) r

/-- R437: INSTALL, and a record whose OP is reserved. -/
def execInstall (m : Master) (addr : Word) (s : State) : Host.Outcome State Fault Refusal :=
  .next (rgWrite s m addr (· != 1) fun s g r => s.setGroup g (groupOf s r))

/-- R437: REMOVE keeps BUSY at 1 from here on. -/
def execRemove (m : Master) (addr : Word) (s : State) : Host.Outcome State Fault Refusal :=
  .next (rgWrite s m addr (· == 1) fun s g _ => { s with fab := { s.fab with rgBusy := some g } })

/-- R437: REMOVE ends when no instance of the group is outstanding. -/
def execRemoveComplete (s : State) : Host.Outcome State Fault Refusal :=
  match s.fab.rgBusy with
  | none => .next s
  | some g => match s.group g with
    | none => .next { s with fab := { s.fab with rgBusy := none } }
    | some v =>
      if v.insts ≠ [] ∨ v.buckets ≠ [] ∨ v.staged ≠ [] ∨ v.outq ≠ [] then .next s
      else .next { s with fab := { s.fab with groups := sdel s.fab.groups g, rgBusy := none } }

/-! ## Packets of reductions (R441, R442) -/

/-- R441: the ADDR field. -/
def redAddr (scale : Int) (mode inst bucket kind level group : Nat) : Nat :=
  (scale % 256).toNat * 2 ^ 56 + mode * 2 ^ 54 + inst % 65536 * 2 ^ 32 + bucket * 2 ^ 19 + kind * 2 ^ 16 + level * 2 ^ 11 + group

def FPkt.rGroup (p : FPkt) : Nat := p.addr % 2 ^ 10
def FPkt.rLevel (p : FPkt) : Nat := p.addr / 2 ^ 11 % 32
def FPkt.rKind (p : FPkt) : Nat := p.addr / 2 ^ 16 % 8
def FPkt.rBucket (p : FPkt) : Nat := p.addr / 2 ^ 19 % 2 ^ 13
def FPkt.rInst (p : FPkt) : Nat := p.addr / 2 ^ 32 % 2 ^ 16
def FPkt.rMode (p : FPkt) : Nat := p.addr / 2 ^ 54 % 4
def FPkt.rScale (p : FPkt) : Int := (BitVec.ofNat 8 (p.addr / 2 ^ 56)).toInt

/-- R442: where a layout's poison bitmap begins. -/
def poisonAt (mode : Nat) : Nat := match mode with | 0 => 512 | 1 => 1152 | _ => 20

def FPkt.poisons (p : FPkt) : List Bool :=
  (upTo 0 128).map fun j => (recNat p.data (poisonAt p.rMode + j / 8) 1).testBit (j % 8)

def FPkt.trailerNat (p : FPkt) (o n : Nat) : Nat := recNat p.data (poisonAt p.rMode + 16 + o) n
def FPkt.clamps (p : FPkt) : Nat := p.trailerNat 4 4
def FPkt.contrib (p : FPkt) : Nat := p.trailerNat 8 3
def FPkt.missing (p : FPkt) : Bool := (p.trailerNat 11 1).testBit 0
def FPkt.isError (p : FPkt) : Bool := (p.trailerNat 11 1).testBit 1
def FPkt.nBuckets (p : FPkt) : Nat := p.trailerNat 12 2 + 1

/-- The absent-participant bitmap that a packet with MISSING carries. -/
def FPkt.bitmap (p : FPkt) : Nat := if p.missing then recNat p.data (poisonAt p.rMode + 32) 2048 else 0

/-- What a node adds: values with residues (0 in FP32), poison bits, clamps, contributions. -/
structure Contrib where
  vals    : List (Int × Nat)
  poison  : List Bool
  clamps  : Nat
  contrib : Nat

/-- R446: one-bit data, expanded. -/
def expandBit (p : FPkt) (j : Nat) : (Int × Nat) × Bool :=
  let m := recNat p.data 0 4
  let neg := (recNat p.data (4 + j / 8) 1).testBit (j % 8)
  let (v, _, c) := toExr (if neg then m ^^^ 2 ^ 31 else m) p.rScale
  ((v, exrRes v), c)

/-- R442, R446: what a packet contributes. -/
def contribOf (p : FPkt) : Contrib :=
  match p.rMode with
  | 0 => ⟨(upTo 0 128).map fun j => ((recNat p.data (4 * j) 4 : Nat), 0), p.poisons, p.clamps, p.contrib⟩
  | 1 => ⟨(upTo 0 128).map fun j => ((BitVec.ofNat 64 (recNat p.data (8 * j) 8)).toInt, recNat p.data (1024 + j) 1),
          p.poisons, p.clamps, p.contrib⟩
  | _ =>
    let l := List.zipWith (fun j b => if b then (((0, 0) : Int × Nat), false) else expandBit p j) (upTo 0 128) p.poisons
    ⟨l.map (·.1), p.poisons, p.clamps + countTrue (l.map (·.2)), p.contrib⟩

/-! ## Combining (R445) -/

/-- R445: the FP32 sum of two elements, as codes. -/
def addFp32 (a b : Int × Nat) : Int × Nat := ((faddCode fp32 a.1.toNat b.1.toNat : Nat), 0)

/-- R106: the checked sum of two entries. -/
def addExr (a b : Int × Nat) : Option (Int × Nat) :=
  let c := a.1 + b.1
  if 254 < a.2 ∨ 254 < b.2 ∨ exrRes c ≠ (a.2 + b.2) % 255 then none else some (c, exrRes c)

def addRows (exr : Bool) (x y : List (Int × Nat)) : Option (List (Int × Nat)) :=
  if exr then (List.zip x y).mapM fun e => addExr e.1 e.2 else some (List.zipWith addFp32 x y)

def addAll (exr : Bool) : List (Int × Nat) → List Contrib → Option (List (Int × Nat))
  | acc, [] => some acc
  | acc, c :: cs => (addRows exr acc c.vals).bind fun a => addAll exr a cs

/-- R445: the combination of the present children's packets, in the order of c; an error's sub-code of RESIDUE_MISMATCH. -/
def combine (ps : List FPkt) : Except Nat Contrib :=
  match ps with
  | [] => .error 2
  | p :: rest =>
    if rest.any fun q => q.rMode != p.rMode || q.rScale != p.rScale || q.nBuckets != p.nBuckets then .error 2
    else
      let cs := ps.map contribOf
      let exr := p.rMode != 0
      let poison := cs.foldl (fun a c => List.zipWith (· || ·) a c.poison) (List.replicate 128 false)
      let sum := if exr then addAll true (List.replicate 128 (0, 0)) cs
        else match cs with | c :: t => addAll false c.vals t | [] => none
      match sum with
      | none => .error 1
      | some vs =>
        let bad := List.zipWith (fun (v : Int × Nat) b => b || (!exr && (fp32.decode v.1.toNat).isNan)) vs poison
        .ok { vals := List.zipWith (fun v b => if b then ((0, 0) : Int × Nat) else v) vs bad, poison := bad
              clamps := (cs.map (·.clamps)).foldr (· + ·) 0 % 2 ^ 32, contrib := (cs.map (·.contrib)).foldr (· + ·) 0 }

/-- R442: the data of a combination; `flags` bit 0 MISSING, with its bitmap. -/
def contribData (mode : Nat) (c : Contrib) (missing : Bool) (bitmap buckets : Nat) : List Byte :=
  let tr := trailer (countTrue c.poison) c.clamps c.contrib (b2n missing) buckets
  (if mode = 0 then fp32Data (c.vals.map (·.1.toNat)) c.poison tr
   else numsBytes 8 (c.vals.map fun v => (v.1 % 2 ^ 64).toNat) ++ numsBytes 1 (c.vals.map (·.2)) ++ bitmapBytes c.poison ++ tr) ++
    (if missing then natBytes 2048 bitmap else [])

/-! ## Nodes (R445 to R448, R451, R452) -/

/-- R451: the bitmap of leaf positions `lo` to `hi`. -/
def rangeBits (n lo hi : Nat) : Nat :=
  let w := (n + 16383) / 16384
  (2 ^ (hi / w - lo / w + 1) - 1) * 2 ^ (lo / w)

/-- R451: the children of a node that are absent in an instance. -/
def Group.absentAt (g : Group) (l i inst : Nat) : List Nat :=
  (g.absent.filter fun e => e.1 == l && e.2.1 == i && e.2.2.1 == inst).map (·.2.2.2)

def Group.absentBits (g : Group) (l i inst : Nat) : Nat :=
  (g.absentAt l i inst).foldl (fun m c =>
    let lo := (g.fanin * i + c) * g.fanin ^ (l - 1)
    m ||| rangeBits g.n lo (min g.n (lo + g.fanin ^ (l - 1)) - 1)) 0

/-- R448, R452: the root's message to every participant, looping through the router to this module first. -/
def sendColl (s : State) (prio : Nat) (addr status sub : Nat) (data : List Byte) : State :=
  inject s { dest := s.deviceId, src := s.deviceId, cls := 2, prio := prio, op := Op.coll, status := status, sub := sub, addr := addr
             data := data }

/-! ### Bucket credits (R444) -/

/-- A credit of a node of level `l` of this module comes back. -/
def giveCredit (s : State) (gn l : Nat) : State := s.modGroup gn fun g => { g with used := sput g.used l (sget g.used 0 l - 1) }

/-- R444: a RED goes from a node of level `l` to its parent while the node holds one of its 16 credits. When the credits that a parent on
another module gives back arrive is free (log 51). -/
def sendRed (s : State) (gn l : Nat) (p : FPkt) : State × Bool :=
  match s.group gn with
  | none => (s, false)
  | some g =>
    let used := sget g.used 0 l
    let (s1, left) := if used < 16 ∨ p.dest = s.deviceId then (s, used)
      else
        let (v, s1) := s.drawFree
        (s1, used - v.toNat % (used + 1))
    if left < 16 then (inject (s1.modGroup gn fun g => { g with used := sput g.used l (left + 1) }) p, true) else (s1, false)

/-- R444: a child on this module has the credit of a bucket back, which its node forwards or discards. -/
def returnCredit (s : State) (gn : Nat) (p : FPkt) : State := if p.src = s.deviceId then giveCredit s gn (p.rLevel - 1) else s

/-- R444: a node's RED goes, or waits for a credit. -/
def pushRed (s : State) (gn : Nat) (o : RedOut) : State :=
  let (s1, ok) := sendRed s gn o.level o.pkt
  if !ok then s1.modGroup gn fun g => { g with outq := g.outq ++ [o] }
  else if o.due then giveCredit s1 gn (o.level - 1) else s1

/-- R444: REDs that wait go as credits allow. -/
def flushReds (s : State) (gn : Nat) : List RedOut → State
  | [] => s
  | o :: os => flushReds (pushRed (s.modGroup gn fun g => { g with outq := g.outq.erase o }) gn o) gn os

/-- R444: the REDs of a group that wait, the highest level first, whose credits set those below free. -/
def flushOut (s : State) (gn : Nat) : State :=
  match s.group gn with
  | none => s
  | some g =>
    if g.outq = [] then s
    else (upTo 0 (g.depth + 1)).reverse.foldl (fun s l => flushReds s gn (g.outq.filter (·.level == l))) s

/-- The credits of a node's bucket come back to the child on this module that sent one of its packets. -/
def NodeBucket.credits (s : State) (b : NodeBucket) : List Nat :=
  (b.got.filter fun e => e.2.src == s.deviceId).map fun _ => b.level - 1

/-- R451, R452: the instances that this module has closed. -/
def Group.endedWith (g : Group) (inst : Nat) : List Nat := inst :: g.ended.filter (· != inst)

/-- R452: an instance is over at this module: its buckets, staged or at nodes, are discarded and their credits go back; which children
were absent stays known (R451). -/
def closeInst (s : State) (gn inst : Nat) : State :=
  match s.group gn with
  | none => s
  | some g =>
    let mine := g.buckets.filter (·.inst == inst)
    let outs := g.outq.filter fun o => o.due && o.pkt.rInst == inst
    let s1 := s.setGroup gn { g with
      buckets := g.buckets.filter (·.inst != inst), staged := g.staged.filter (·.1 != inst), outq := g.outq.filter (·.pkt.rInst != inst)
      dead := g.dead.filter (·.2.2.1 != inst), ended := g.endedWith inst }
    (((mine.map (NodeBucket.credits s)).foldr (· ++ ·) []) ++ (outs.map fun (o : RedOut) => o.level - 1)).foldl (fun s l => giveCredit s gn l) s1

/-- R437, R448: where a bucket is staged (log 50). -/
def stageAt (g : Group) (inst bucket : Nat) : Nat := g.stage + ((inst % 4) * (g.maxElems / 128) + bucket) * 544

def hubWrite (s : State) (a : Nat) (bs : List Byte) : State := writePiece s { cls := 7, ctx := 0 } { key := a, len := bs.length } bs

/-- R448: a finished bucket, in the layout of COLL RESULT. -/
def resultData (mode : Nat) (scale : Int) (c : Contrib) (buckets : Nat) : List Byte :=
  let vals := List.zipWith (fun (v : Int × Nat) b => if b then 0x7FC00000 else if mode = 0 then v.1.toNat else fromExr v.1 false scale)
    c.vals c.poison
  fp32Data vals c.poison (trailer (countTrue c.poison) c.clamps c.contrib 0 buckets)

/-- R448: the results of an instance whose buckets are all staged, in bucket order. -/
def sendResults (s : State) (gn : Nat) (g : Group) (p : FPkt) (mode : Nat) : State :=
  (upTo 0 p.nBuckets).foldl (fun s b =>
    sendColl s p.prio (redAddr p.rScale mode p.rInst b 0 0 gn) 0 0 (readBytes s.mem (stageAt g p.rInst b) 544)) s

/-- R518: whether the channels take what the root does with a bucket: the write of its results, or of REPORT, and the reads of an
instance whose buckets are then all staged. -/
def rootReady (s : State) (g : Group) (p : FPkt) (missing : Bool) : Bool :=
  let left := p.nBuckets - (g.staged.filter (·.1 == p.rInst)).length
  g.ended.contains p.rInst ||
    (if missing then accReady s .w g.report 2048
     else accReady s .w (stageAt g p.rInst p.rBucket) 544 && (decide (1 < left) || readReady s (stageAt g p.rInst 0) (544 * p.nBuckets)))

/-- R448, R452: a bucket without errors is finished at the root; `p` is one of its packets. -/
def finishRoot (s : State) (gn : Nat) (g : Group) (p : FPkt) (c : Contrib) (missing : Bool) (bitmap : Nat) : State :=
  let inst := p.rInst
  let mode := if p.rMode = 0 then 0 else 1
  if g.ended.contains inst then s
  else if missing then
    closeInst (sendColl (hubWrite s g.report (natBytes 2048 bitmap)) p.prio (redAddr p.rScale mode inst 0 1 0 gn) 0 0 []) gn inst
  else
    let s1 := hubWrite s (stageAt g inst p.rBucket) (resultData mode p.rScale c p.nBuckets)
    let staged := (inst, p.rBucket) :: g.staged
    let s2 := s1.modGroup gn ({ · with staged := staged })
    if (staged.filter (·.1 == inst)).length < p.nBuckets then s2
    else closeInst (sendResults s2 gn g p mode) gn inst

/-- R445: a node's packet to its parent. -/
def upPacket (s : State) (gn : Nat) (g : Group) (l i : Nat) (p : FPkt) (mode status sub : Nat) (data : List Byte) : FPkt :=
  { dest := g.host (l + 1) (i / g.fanin), src := s.deviceId, cls := 2, prio := p.prio, op := Op.red, status := status, sub := sub
    addr := redAddr p.rScale mode p.rInst p.rBucket 0 (l + 1) gn, data := data }

/-- R444, R445: a node's packet leaves for its parent; `due` says that a child on this module has a credit to get for it. -/
def sendUp (s : State) (gn : Nat) (g : Group) (l i : Nat) (p : FPkt) (mode status sub : Nat) (data : List Byte) (due : Bool) : State :=
  pushRed s gn { level := l, pkt := upPacket s gn g l i p mode status sub data, due := due }

/-- The data of a RED with ERROR. -/
def errorData (mode buckets : Nat) : List Byte := List.replicate (poisonAt mode + 16) 0 ++ trailer 0 0 0 2 buckets

/-- R447, R452: an error leaves a node: on to the parent, or from the root to every participant. -/
def errorOut (s : State) (gn : Nat) (g : Group) (l i : Nat) (p : FPkt) (code sub : Nat) (due : Bool) : State :=
  let mode := if p.rMode = 0 then 0 else 1
  if l = g.depth then
    if g.ended.contains p.rInst then s
    else closeInst (sendColl s p.prio (redAddr p.rScale mode p.rInst 0 2 0 gn) code sub []) gn p.rInst
  else sendUp s gn g l i p mode code sub (errorData mode p.nBuckets) due

/-- R545: a record of TEL.REDERR. -/
def noteRedErr (s : State) (gn l i : Nat) (p : FPkt) (code sub : Nat) : State :=
  let rec_ := natBytes 2 gn ++ natBytes 2 p.rInst ++ natBytes 2 p.rBucket ++ natBytes 1 l ++ natBytes 1 code ++ natBytes 1 sub ++
    natBytes 1 1 ++ natBytes 3 i ++ natBytes 3 0
  { s with tel := { s.tel with rederr := sput s.tel.rederr (s.tel.rederrs % 16) rec_, rederrs := s.tel.rederrs + 1 } }

def NodeBucket.isAt (b : NodeBucket) (l i inst bucket : Nat) : Bool := b.level == l && b.index == i && b.inst == inst && b.bucket == bucket

/-- A node's bucket leaves it; its credits are its caller's to return. -/
def dropBucket (s : State) (gn : Nat) (b : NodeBucket) : State :=
  s.modGroup gn fun g => { g with buckets := g.buckets.filter fun x => !x.isAt b.level b.index b.inst b.bucket }

/-- R447: an error discards a node's bucket, whose credits go back. -/
def killBucket (s : State) (gn l i inst bucket : Nat) : State :=
  match s.group gn with
  | none => s
  | some g =>
    let mine := g.buckets.filter fun x => x.isAt l i inst bucket
    let s1 := s.setGroup gn { g with
      buckets := g.buckets.filter fun x => !x.isAt l i inst bucket, dead := (l, i, inst, bucket) :: g.dead }
    ((mine.map (NodeBucket.credits s)).foldr (· ++ ·) []).foldl (fun s k => giveCredit s gn k) s1

/-- The present children's packets, in the order of c. -/
def inOrderOfC (g : Group) (b : NodeBucket) : List FPkt := (g.children b.level b.index).filterMap fun c => (b.got.find? (·.1 == c)).map (·.2)

/-- R445: every child that is not absent has delivered. -/
def bucketWhole (g : Group) (b : NodeBucket) : Bool :=
  let absent := g.absentAt b.level b.index b.inst
  (g.children b.level b.index).all fun c => absent.contains c || b.got.any (·.1 == c)

/-- R445: a whole bucket is combined and leaves its node; one that the root cannot write yet stays. -/
def combineBucket (s : State) (gn : Nat) (g : Group) (b : NodeBucket) : State :=
  let ps := inOrderOfC g b
  match ps with
  | [] => (b.credits s).foldl (fun s k => giveCredit s gn k) (dropBucket s gn b)
  | p :: _ =>
    match combine ps with
    | .error sub =>
      errorOut (killBucket (noteRedErr s gn b.level b.index p Code.residueMismatch sub) gn b.level b.index b.inst b.bucket)
        gn g b.level b.index p Code.residueMismatch sub false
    | .ok c =>
      let bm := ps.foldl (fun m q => m ||| q.bitmap) (g.absentBits b.level b.index b.inst)
      let missing := g.absentAt b.level b.index b.inst != [] || ps.any (·.missing)
      let mode := if p.rMode = 0 then 0 else 1
      let s1 := dropBucket s gn b
      if b.level = g.depth ∧ !rootReady s g p missing then s
      else if b.level = g.depth then finishRoot ((b.credits s).foldl (fun s k => giveCredit s gn k) s1) gn g p c missing bm
      else sendUp s1 gn g b.level b.index p mode 0 0 (contribData mode c missing bm p.nBuckets) (b.credits s != [])

/-- The buckets of a group that are whole leave their nodes. -/
def combineWhole (s : State) (gn : Nat) : List NodeBucket → State
  | [] => s
  | b :: bs => match s.group gn with
    | some g => if bucketWhole g b ∧ g.buckets.contains b then combineWhole (combineBucket s gn g b) gn bs else combineWhole s gn bs
    | none => s

/-- R444, R518: what waits at the nodes of a group, for a credit or for a channel, goes on. -/
def settleReds (s : State) (gn : Nat) : State := flushOut (combineWhole s gn ((s.group gn).map (·.buckets) |>.getD [])) gn

/-- R437, R451: a reduction packet is dropped, and counted at the port that it came by. -/
def dropRed (s : State) (p : FPkt) : State :=
  if 128 ≤ p.via then s
  else { s with tel := { s.tel with reddrop := sput s.tel.reddrop p.via (satAdd (2 ^ 32 - 1) (sget s.tel.reddrop 0 p.via) 1) } }

/-- The node bucket of a packet, with it. -/
def addToBucket (s : State) (g : Group) (l i c : Nat) (p : FPkt) : List NodeBucket :=
  if g.buckets.any (·.isAt l i p.rInst p.rBucket) then
    g.buckets.map fun b => if b.isAt l i p.rInst p.rBucket then { b with got := b.got ++ [(c, p)] } else b
  else g.buckets ++ [{ level := l, index := i, inst := p.rInst, bucket := p.rBucket, got := [(c, p)], firstAt := s.tick }]

/-- R445, R447: a RED reaches its node. -/
def redIn (s : State) (gn : Nat) (g : Group) (q : Nat) (p : FPkt) : State :=
  let l := p.rLevel
  let (i, c) := g.childOf l q
  if l = 0 ∨ g.depth < l ∨ q % g.fanin ^ (l - 1) ≠ 0 ∨ g.host l i ≠ s.deviceId then dropRed s p
  else if (g.absentAt l i p.rInst).contains c then dropRed (returnCredit s gn p) p
  else if g.ended.contains p.rInst ∨ g.dead.contains (l, i, p.rInst, p.rBucket) then returnCredit s gn p
  else if p.isError then
    let here := l = g.depth
    errorOut (killBucket (if here then returnCredit s gn p else s) gn l i p.rInst p.rBucket) gn g l i p p.status p.sub (p.src == s.deviceId)
  else
    s.setGroup gn { g with buckets := addToBucket s g l i c p }

/-- R445: RED. -/
def execRed (s : State) : Host.Outcome State Fault Refusal :=
  match takeInbox s (fun p => p.op == Op.red) with
  | none => .next s
  | some (p, s1) =>
    match s1.group p.rGroup with
    | none => .next (dropRed s1 p)
    | some g => match g.place p.src with
      | none => .next (dropRed s1 p)
      | some q => .next (settleReds (redIn s1 p.rGroup g q p) p.rGroup)

/-- R451: BUCKET_TIMEOUT: `node` is the group, `key` the place of the bucket among its buckets: the children that it waits for are
absent from now on in the instance. -/
def execBucketTimeout (node key : Nat) (s : State) : Host.Outcome State Fault Refusal :=
  match s.group node with
  | none => .next s
  | some g => match g.buckets[key]? with
    | none => .next s
    | some b =>
      if s.tick < b.firstAt + g.timeout * us then .next s
      else
        let known := g.absentAt b.level b.index b.inst
        let late := (g.children b.level b.index).filter fun c => !known.contains c && !b.got.any (·.1 == c)
        let s1 := s.setGroup node { g with absent := g.absent ++ late.map fun c => (b.level, b.index, b.inst, c) }
        .next (settleReds s1 node)

/-! ## Participants (R439 to R444) -/

/-- R440, R265: what the check of a descriptor comes to. -/
def descFault (d : Desc) (maxElems elems : Nat) : Option Trap :=
  if elems = 0 ∨ maxElems < elems ∨ 2 < d.mode ∨ (d.mode = 2 ∧ elems % 128 ≠ 0) ∨ d.reserved then some (trapOf Code.ringProtocol 5)
  else if d.mode = 2 ∧ d.errmem / 2 ^ 60 ≠ 0 ∧ d.errmem / 2 ^ 60 ≠ 8 then some (trapOf Code.space 0 (BitVec.ofNat 64 d.errmem))
  else none

/-- Numbers of 4 bytes. -/
def words4 (bs : List Byte) (n : Nat) : List Nat := (upTo 0 n).map fun i => recNat bs (4 * i) 4

/-- R440, R443: the buckets of a contribution buffer; in one-bit mode the error memory is written. -/
def contribBuckets (s : State) (n : Nat) (d : Desc) (vals : List Nat) : Except Trap (State × List (List Byte)) :=
  let nb := (d.elems + 127) / 128
  let all := vals ++ List.replicate (128 * nb - vals.length) 0
  let row (b : Nat) : List Nat := (all.drop (128 * b)).take 128
  match d.mode with
  | 0 => .ok (s, (upTo 0 nb).map fun b => fp32Bucket (row b) nb)
  | 1 => .ok (s, (upTo 0 nb).map fun b => exrBucket (row b) d.scale nb)
  | _ =>
    let err : Word := BitVec.ofNat 64 d.errmem
    if readsEmpty s (slotReq s n) err (512 * nb) then .error (trapOf 0 4 err)
    else match fetchAll s (slotReq s n) err (512 * nb) with
    | .error t => .error t
    | .ok (s, bs, _) =>
      let out := (upTo 0 nb).map fun b => oneBit (row b) (words4 (bs.drop (512 * b)) 128) nb
      match storeAll s (slotReq s n) err (numsBytes 4 ((out.map (·.2)).foldr (· ++ ·) [])) with
      | .error t => .error t
      | .ok s1 => .ok (s1, out.map (·.1))

/-- R439, R452: whether what is known of an instance number, when a collective starts, is of the collective that now has it: of the
number farthest from this one it is of a collective 2^16 before. -/
def Group.isRecent (g : Group) (inst : Nat) : Bool := inst != (g.nextInst + 32768) % 65536

/-- R439: the collective of a command starts as an instance; marks of the number that comes into use again go. -/
def beginInst (s : State) (gn : Nat) (g : Group) (n : Nat) (c : Cmd) (x : Inst) : State :=
  let s1 := putStarted s n true c []
  s1.setGroup gn { g with
    nextInst := (g.nextInst + 1) % 65536, insts := g.insts ++ [{ x with inst := g.nextInst, lastAt := s.tick }]
    ended := g.ended.filter (g.isRecent ·), absent := g.absent.filter (g.isRecent ·.2.2.1), dead := g.dead.filter (g.isRecent ·.2.2.1) }

/-- R263: the step of a REDUCE retirement's destinations. -/
def handStride (s : State) (n : Nat) (h : Handoff) : Word :=
  match (s.slot n).nest h.nest with
  | some e => BitVec.ofNat 64 h.n * (BitVec.ofNat 32 (bits (mreg e.regs 0x37) 32 32)).signExtend 64
  | none => 0

/-- R439, R440, R443, R263: the collective of an FCOLL or of a REDUCE retirement, its descriptor read. -/
def startColl (s : State) (gn : Nat) (g : Group) (n : Nat) (c : Cmd) (d : Desc) : State :=
  let fail (t : Trap) : State := if t.code = 0 then s else failCmd (s.modCmd n true c.id ({ · with started := true })) n true c.id t
  let prio := (s.slot n).prio
  match c.handoff with
  | some h =>
    (match descFault d g.maxElems 8192 with
     | some t => fail t
     | none => beginInst s gn g n c
        { inst := 0, slot := n, cmd := c.id, mode := d.mode, scale := d.scale, elems := 8192
          dst := BitVec.ofNat 64 d.dst + handStride s n h, statusw := BitVec.ofNat 64 (d.statusw + 8 * h.n), prio := prio
          buckets := h.buckets })
  | none =>
    match descFault d g.maxElems d.elems with
    | some t => fail t
    | none =>
      let src : Word := BitVec.ofNat 64 d.src
      if readsEmpty s (slotReq s n) src (4 * d.elems) then s
      else match fetchAll s (slotReq s n) src (4 * d.elems) with
        | .error t => fail t
        | .ok (s, bs, _) => match contribBuckets s n d (words4 bs d.elems) with
          | .error t => fail t
          | .ok (s1, b) => beginInst s1 gn g n c
              { inst := 0, slot := n, cmd := c.id, mode := d.mode, scale := d.scale, elems := d.elems, dst := BitVec.ofNat 64 d.dst
                statusw := BitVec.ofNat 64 d.statusw, prio := prio, buckets := b }

/-- R449, R453: an instance is over at its participant. -/
def dropInst (s : State) (gn inst : Nat) : State := s.modGroup gn fun g => { g with insts := g.insts.filter (·.inst != inst) }

/-- R453: the status word of an instance is written, then its signal delivered; none where a channel holds the write. -/
def endInst (s : State) (gn : Nat) (x : Inst) (status : Nat) : Option State :=
  match (s.slot x.slot).cmd true x.cmd with
  | none => some (dropInst s gn x.inst)
  | some c =>
    match storeAll s (slotReq s x.slot) x.statusw (natBytes 8 status) with
    | .error t => if t.code = 0 then none else some (failCmd (dropInst s gn x.inst) x.slot true x.cmd t)
    | .ok s1 =>
      let s2 := finishCmd (dropInst s1 gn x.inst) x.slot true x.cmd
      some (match c.handoff with | some h => endReduce s2 x.slot h | none => s2)

/-- R453: an error or a timeout ends an instance. -/
def failInst (s : State) (gn : Nat) (x : Inst) (t : Trap) : State := failCmd (dropInst s gn x.inst) x.slot true x.cmd t

/-- R453: an instance that starts after its closing has come ends at once; where a channel holds its status word, it has not started. -/
def applyClosing (s : State) (gn : Nat) : State :=
  match s.group gn with
  | none => s
  | some g =>
    match g.insts.getLast?.bind fun x => (g.closings.find? (·.1 == x.inst)).map fun e => (x, e) with
    | none => s
    | some (x, e) =>
      let s1 := s.setGroup gn { g with closings := g.closings.filter (·.1 != x.inst) }
      if e.2.1 = 1 then (endInst s1 gn x 1).getD s.stall else failInst s1 gn x (trapOf e.2.2.1 e.2.2.2)

/-- R439: COLLECTIVE_START. -/
def execCollectiveStart (slot : Nat) (s : State) : Host.Outcome State Fault Refusal :=
  match startable s slot true with
  | none => .next s
  | some c =>
    if c.op ≠ 0x2B ∨ c.fn ≠ 3 then .next s
    else
      let gn := bits c.opb 0 16
      let fail (t : Trap) : State := failCmd (s.modCmd slot true c.id ({ · with started := true })) slot true c.id t
      match s.group gn with
      | none => .next (fail (trapOf Code.fabricUnreachable 2))
      | some g =>
        let begin_ (s : State) (bs : List Byte) : State := noteEngine (applyClosing (startColl s gn g slot c (descOf bs)) gn) slot true
        if 4 ≤ g.insts.length then .next s
        else match c.handoff with
          | some h => .next (begin_ s h.desc)
          | none =>
            if readsEmpty s (slotReq s slot) c.opa 64 then .next s
            else match fetchAll s (slotReq s slot) c.opa 64 with
              | .error t => if t.code = 0 then .next s else .next (fail t)
              | .ok (s1, bs, _) => .next (begin_ s1 bs)

/-- R443, R444: BUCKET_SEND: a participant's next bucket goes to its parent node, if it holds a credit; so do the REDs of nodes that
wait for one, and the buckets that wait for a channel. -/
def execBucketSend (group inst : Nat) (s : State) : Host.Outcome State Fault Refusal :=
  match s.group group with
  | none => .next s
  | some g =>
    match g.insts.find? (·.inst == inst), g.place s.deviceId with
    | some x, some p =>
      (match x.buckets[x.sent]?, (s.slot x.slot).cmd true x.cmd with
       | some b, some _ =>
         let (s1, ok) := sendRed s group 0
           { dest := g.host 1 (p / g.fanin), src := s.deviceId, cls := 2, prio := x.prio, op := Op.red
             addr := redAddr x.scale x.mode inst x.sent 0 1 group, data := b }
         .next (settleReds (if ok then s1.modGroup group fun g => { g with insts := g.insts.map fun y =>
             if y.inst = inst then { y with sent := y.sent + 1, lastAt := s.tick } else y } else s1) group)
       | _, _ => .next (settleReds s group))
    | _, _ => .next (settleReds s group)

/-! ## Results (R448, R449, R453) -/

/-- R448: a COLL goes on to the modules of the children of the nodes that this module hosts. -/
def forwardColl (s : State) (g : Group) (p : FPkt) : State :=
  match g.place s.deviceId with
  | none => s
  | some q =>
    (g.hosted q).foldl (fun s l =>
      let i := q / g.fanin ^ l
      ((g.children l i).filter (· != 0)).foldl (fun s c =>
        inject s { p with dest := g.host (l - 1) (g.fanin * i + c), src := s.deviceId, hops := 0, esc := false, nonmin := false, via := 128 }) s) s

/-- The first COLL of a kind, and its group. -/
def takeColl (s : State) (kind : Nat) : Option (FPkt × State) := takeInbox s fun p => p.op == Op.coll && p.rKind == kind

/-- R449: the elements of bucket `b` that a participant writes. -/
def resultBytes (x : Inst) (b : Nat) (p : FPkt) : List Byte := (p.data.take 512).take (4 * (x.elems - 128 * b))

/-- R449: a participant writes the elements of a result; with the last one, the status word and the signal. -/
def resultIn (s : State) (gn : Nat) (x : Inst) (p : FPkt) : Option State :=
  let b := p.rBucket
  match (s.slot x.slot).cmd true x.cmd with
  | none => some (dropInst s gn x.inst)
  | some _ =>
    match storeAll s (slotReq s x.slot) (x.dst + BitVec.ofNat 64 (512 * b)) (resultBytes x b p) with
    | .error t => if t.code = 0 then none else some (failInst s gn x t)
    | .ok s1 =>
      let x1 := { x with got := b :: x.got.filter (· != b) }
      let s2 := s1.modGroup gn fun g => { g with insts := g.insts.map fun y => if y.inst = x.inst then x1 else y }
      if x1.got.length < (x.elems + 127) / 128 then some s2 else endInst s2 gn x1 0

/-- R449: COLL_RESULT. -/
def execCollResult (s : State) : Host.Outcome State Fault Refusal :=
  match takeColl s 0 with
  | none => .next s
  | some (p, s1) =>
    match s1.group p.rGroup with
    | none => .next (dropRed s1 p)
    | some g =>
      match g.insts.find? (·.inst == p.rInst) with
      | none => .next (forwardColl s1 g p)
      | some x => match resultIn s1 p.rGroup x p with
        | none => .next s
        | some s2 => .next (forwardColl s2 g p)

/-- R452, R453: a closing COLL reaches this module: on to the children, its nodes' buckets discarded; then `k` for a started
instance, and for one that has not started it is recorded, up to 16. -/
def closingIn (s : State) (kind : Nat) (k : State → Nat → Inst → FPkt → Option State) : State :=
  match takeColl s kind with
  | none => s
  | some (p, s1) =>
    let gn := p.rGroup
    match s1.group gn with
    | none => dropRed s1 p
    | some g =>
      let s2 := closeInst (forwardColl s1 g p) gn p.rInst
      match g.insts.find? (·.inst == p.rInst) with
      | some x => (k s2 gn x p).getD s
      | none =>
        if (p.rInst + 65536 - g.nextInst) % 65536 ≥ 32768 then s2
        else if 16 ≤ g.closings.length then dropRed s2 p
        else s2.modGroup gn fun g => { g with closings := g.closings ++ [(p.rInst, kind, p.status, p.sub)] }

/-- R453: COLL_INCOMPLETE. -/
def execCollIncomplete (s : State) : Host.Outcome State Fault Refusal := .next (closingIn s 1 fun s gn x _ => endInst s gn x 1)

/-- R453: COLL_ERROR. -/
def execCollError (s : State) : Host.Outcome State Fault Refusal :=
  .next (closingIn s 2 fun s gn x p => some (failInst s gn x (trapOf p.status p.sub)))

/-- R453: NO_RESULT_TIMEOUT, of an instance whose last RED has been injected and of which nothing has come. -/
def execNoResultTimeout (group inst : Nat) (s : State) : Host.Outcome State Fault Refusal :=
  match s.group group with
  | none => .next s
  | some g => match g.insts.find? (·.inst == inst) with
    | none => .next s
    | some x =>
      let come := s.fab.inbox.any fun p => p.op == Op.coll && p.rGroup == group && p.rInst == inst
      if x.sent < x.buckets.length ∨ x.got ≠ [] ∨ come ∨ s.tick < x.lastAt + (200 + g.depth * g.timeout) * us then .next s
      else .next (failInst s group x (trapOf Code.reduceTimeout 1))

end Sys2Proof.Machine
end

