-- ==== Sys2Proof/Machine/Reliability.lean ====
section
/-!
DEFINITION. Coppice scans (R482 to R486), checkpoint intervals and their commits (R487 to R491), rollback (R493, R494, R385), spares
(R503, R504), and the Hedge table registers (R508, R509).
-/

namespace Sys2Proof.Machine

def State.modCkpt (s : State) (f : Ckpt → Ckpt) : State := { s with ckpt := f s.ckpt }

/-- R491: the log's fill, in percent. -/
def logFill (s : State) : Nat := min 100 (((upTo 0 16).map (stackFill s)).foldr Nat.max 0)

/-! ## Closing an interval (R487, R384) -/

/-- R384: a dirty unit of a tarn is copied to its backing, a write of the interval `n` that closes: it is clean. One whose channel holds
the copy waits for it, and writes to it with it; one whose copy faults stays dirty (log 52). An entry of a later interval for a line
of the copy then holds what the line held at that close. -/
def cleanUnit (s : State) (ctx name u n : Nat) : State :=
  match findTarn s ctx name with
  | none => s
  | some t =>
    let kept := match t.moveFrom with | some (h, r) => { t with home := h, run := r } | none => t
    let va := t.backingVa u
    match writeBackUnits { s with ckpt := { s.ckpt with current := n } } kept [u] with
    | .error f => putTarn s { t with cleaning := if f.code = 0 then sput t.cleaning u n else sdel t.cleaning u }
    | .ok s1 =>
      let held (l : Nat) : Bool := match resolve s (tarnReq t) .w va va 65536 with
        | .ok ps => ps.any fun p => decide (p.key ≤ l) && decide (l < p.key + p.len)
        | .error _ => false
      let image (e : UndoEntry) : UndoEntry :=
        if n < e.interval ∧ held e.line then { e with image := BitVec.ofNat 1024 (memNat s1 e.line 128) } else e
      putTarn { s1 with ckpt := { s1.ckpt with current := s.ckpt.current, undo := s1.ckpt.undo.map image } }
        { t with dirty := t.dirty.filter (· != u), cleaning := sdel t.cleaning u }

/-- R384: the dirty tarns are cleaned. -/
def cleanTarns (s : State) : State :=
  s.tarns.foldl (fun s t => if t.state = .evicted then s
    else (sortNat t.dirty).foldl (fun s u => cleanUnit s t.ctx t.name u (sget t.cleaning s.ckpt.current u)) s) s

/-- R384: the copies that a close still owes are made, where their channels take them. -/
def cleanRest (s : State) : State :=
  s.tarns.foldl (fun s t => t.cleaning.foldl (fun s e => cleanUnit s t.ctx t.name e.1 e.2) s) s

/-- R487: the write-backs and the cleaning of the closes so far have performed. -/
def closesDone (s : State) : Bool := s.backs == [] && s.tarns.all (·.cleaning == [])

/-- R493: what a rollback to this close would restore. -/
def snapState (s : State) : Snap :=
  { n := s.ckpt.current, at_ := s.tick, queues := s.queues, graphs := s.graphs, completions := s.completions, launches := s.launches }

/-- R487, R491: the open interval closes: dirty tarns are cleaned and dirty lines written back, and the next interval opens,
unprotected while no stack logs. -/
def closeInterval (s : State) : State :=
  let s1 := cleanSectors (cleanTarns s) fun _ => true
  { s1 with
    snaps := s1.snaps ++ [snapState s1]
    ckpt := { s1.ckpt with
      intervals := s1.ckpt.intervals.map (fun i => if i.n = s1.ckpt.current then { i with closedAt := some s1.tick } else i) ++
        [{ n := s1.ckpt.current + 1, unprot := !s1.ckpt.logging }]
      current := s1.ckpt.current + 1, openedAt := s1.tick, lenNow := Nat.max 1 s1.ckpt.len.toNat, sliceErrs := [] } }

/-! ## Commits (R489, R491) -/

/-- R489: every core that wrote in an interval has passed a scan that began after its close. -/
def intervalPassed (s : State) (i : Interval) : Bool :=
  match i.closedAt with
  | none => false
  | some t => i.writers.all fun c => match (s.core c).passAt with | some p => decide (t ≤ p) | none => false

/-- R489: the oldest uncommitted interval commits. -/
def commitOne (s : State) (n : Nat) : State :=
  { s with
    snaps := s.snaps.filter (fun e => decide (n ≤ e.n))
    ran := s.ran.filter (fun e => decide (n < e.last))
    started := s.started.filter (fun e => decide (n < e.1))
    ckpt := { s.ckpt with
      committed := some n
      intervals := s.ckpt.intervals.filter (fun i => decide (n < i.n))
      undo := s.ckpt.undo.filter (fun e => decide (n < e.interval)) } }

/-- R491: at a commit logging resumes: the unprotected interval closes, and the next one is protected. -/
def resumeLog (s : State) : State :=
  if s.ckpt.logging then s
  else (closeInterval s).modCkpt fun c =>
    { c with logging := true, intervals := c.intervals.map fun i => if i.n = c.current then { i with unprot := false } else i }

/-- R489: the intervals that may commit do, in their order. -/
def commitAll : Nat → State → State
  | 0, s => s
  | k + 1, s => match s.ckpt.intervals with
    | i :: _ => if intervalPassed s i then commitAll k (resumeLog (commitOne s i.n)) else s
    | [] => s

def commitReady (s : State) : State := commitAll (s.ckpt.intervals.length + 1) s

/-- R487, R491: CHECKPOINT_CLOSE: after LEN ms, or at 75 % fill. An unprotected interval stays open until a commit, while an
earlier one is left to commit. -/
def execCheckpointClose (s : State) : Host.Outcome State Fault Refusal :=
  let c := s.ckpt
  if (s.tick < c.openedAt + c.lenNow * 1000 * us ∧ logFill s < 75) ∨ (!c.logging ∧ 1 < c.intervals.length) then .next s
  else .next (commitReady (closeInterval s))

/-- R487: CLOSE_COMPLETE: the write-backs and the cleaning of the closes so far perform; those that a channel holds are waited for
(R518). -/
def execCloseComplete (s : State) : Host.Outcome State Fault Refusal :=
  let s1 := cleanRest (performBacks s)
  if !closesDone s1 then .next s1
  else .next (s1.modCkpt fun c => { c with intervals := c.intervals.map fun i => if i.closedAt.isSome then { i with complete := true } else i })

/-! ## Scans (R482, R483, R485, R491) -/

/-- R491: the cores of a cluster whose pass the oldest uncommitted interval still needs. -/
def neededCores (s : State) (cluster : Nat) : List Nat :=
  match s.ckpt.intervals with
  | i :: _ => (match i.closedAt with
    | some t => (upTo (96 * cluster) 96).filter fun c =>
        i.writers.contains c && (match (s.core c).passAt with | some p => decide (p < t) | none => true)
    | none => [])
  | [] => []

def hurried (s : State) : Bool := decide (75 ≤ logFill s)

/-- Whether a core runs no job. -/
def coreIdle (s : State) (core : Nat) : Bool :=
  (s.slot (2 * core)).state == .free && (s.slot (2 * core + 1)).state == .free

/-- R482, R483, R491: the core of a cluster whose scan is due: one that was skipped and runs no job, ahead of all else; in a hurry the
next core that is needed, those that keep their jobs past DEFER being passed over; or the next of the rotation, at its time. -/
def dueCore (s : State) (cl : Nat) : Option Nat :=
  let skipped (c : Nat) : Bool := (s.core c).scan == .deferred
  let r := nextScan s cl
  match (upTo (96 * cl) 96).find? fun c => skipped c && coreIdle s c with
  | some c => some c
  | none =>
    match (if hurried s then (neededCores s cl).filter (!skipped ·) else []) with
    | c :: _ => some c
    | [] => if r * scanCycles ≤ s.tick then some (96 * cl + r % 96) else none

/-- R482, R504: whether a core's scan is due: one core of a cluster is scanned at a time, and none of a cluster that is down. -/
def scanDue (s : State) (core : Nat) : Bool :=
  let cl := core / 96
  decide (core < 1536) && !s.ckpt.down.contains cl && (upTo (96 * cl) 96).all (fun c => (s.core c).scanning.isNone) &&
    dueCore s cl == some core

/-- The rotation moves on, where it was this core's turn. -/
def turnRotation (s : State) (core : Nat) : State :=
  let r := nextScan s (core / 96)
  if r % 96 = core % 96 ∧ r * scanCycles ≤ s.tick then s.modCkpt fun c => { c with rot := sput c.rot (core / 96) (r + 1) } else s

/-- R483: SCAN_DRAIN: 200 µs before a core's scan. -/
def execScanDrain (core : Nat) (s : State) : Host.Outcome State Fault Refusal :=
  if (s.core core).scan = .run ∧ nearScan s core then .next (s.modCore core ({ · with scan := .drain }))
  else .next s

/-- R483: a job that a scan stops: of a launch that is not CORESIDENT, without an attachment of a core-level tarn. -/
def scanMoves (s : State) (n : Nat) : Bool :=
  let t := s.slot n
  t.state == .running && !t.coresident && (sfind s.tq.stopReqs n).isNone &&
    t.attach.all fun a => match findTarn s t.ctx a.name with | some u => u.level != 0 | none => true

/-- What asks for the stops of a scan, in TaskQ.stopReqs: no record's number. -/
def scanAsker : Nat := 2 ^ 70

/-- R482, R483: COPPICE_SCAN: the scan begins where the core runs no job; else the jobs that can move are stopped, and it waits. -/
def execCoppiceScan (core : Nat) (s : State) : Host.Outcome State Fault Refusal :=
  if !scanDue s core then .next s
  else
    let jobs := (upTo (2 * core) 2).filter fun n => (s.slot n).state != .free
    if jobs = [] then
      .next (turnRotation (s.modCore core fun c => { c with
        scanning := some s.tick, scanInt := s.ckpt.current, waitScan := none, scan := .drain }) core)
    else if (s.core core).waitScan.isSome then .next s
    else
      let s1 := (jobs.filter (scanMoves s)).foldl (fun s n => requestStop s n scanAsker) s
      .next (s1.modCore core fun c => { c with scan := .drain, waitScan := some s.tick })

/-- R483: SCAN_DEFER_TIMEOUT: the scan is skipped. -/
def execScanDeferTimeout (core : Nat) (s : State) : Host.Outcome State Fault Refusal :=
  match (s.core core).waitScan with
  | none => .next s
  | some t =>
    if s.tick < t + Nat.max 1 s.ckpt.defer.toNat * us then .next s
    else .next (turnRotation (s.modCore core fun c => { c with scan := .deferred, waitScan := none }) core)

/-- R486, R503, R504: a core that fails is retired: a spare takes its number, or its cluster is down. -/
def retireCore (s : State) (core : Nat) : State :=
  let n := sget s.ckpt.spares 4 (core / 96)
  s.modCkpt fun c =>
    { c with
      spares := if n = 0 then c.spares else sput c.spares (core / 96) (n - 1)
      down := if n = 0 ∧ !c.down.contains (core / 96) then (core / 96) :: c.down else c.down
      fails := if c.fails = 0xFFFF then c.fails else c.fails + 1, failed := c.failed ++ [core] }

/-- R482, R485, R486: SCAN_END: after 100 µs the scan passes or fails; a failure is acted on by `rollback`. -/
def execScanEnd (core : Nat) (pass : Bool) (s : State) : Host.Outcome State Fault Refusal :=
  match (s.core core).scanning with
  | none => .next s
  | some t =>
    if s.tick < t + scanCycles then .next s
    else
      let s1 := s.modCore core fun c => { c with scanning := none, scan := .run }
      if pass then
        .next (commitReady (s1.modCore core fun c => { c with passAt := some t, passInt := BitVec.ofNat 32 c.scanInt }))
      else .next (retireCore s1 core)

/-! ## Rollback (R493, R385) -/

/-- R493: every L2 line is invalidated: what memory held under dirty data stands. -/
def dropL2 (s : State) : State := { s.l2.foldl (fun s e => dropSector s e.1) s with l2tags := [], badLines := [] }

/-- R493: the pre-images of the entries of intervals above `c`, newest first. -/
def undoTo (s : State) (c : Nat) : State :=
  let es := s.ckpt.undo.filter fun e => decide (c < e.interval)
  let s1 := es.foldl (fun s e => { s with mem := writeBytes s.mem e.line (natBytes 128 e.image.toNat) }) s
  let lines := es.map fun e => e.line / 128
  breakLines { s1 with
    poison := s1.poison.filter fun u => !lines.contains (u / 16)
    damage := s1.damage.filter fun e => !lines.contains (e.1 / 4) } none lines

/-- R385: what the rollback makes of a tarn, its attachments and holds gone, and with them what waited for it. One that has only been
refilled since the close is filled again from its backing, which holds what it held then (log 52). -/
def rollTarn (c : Nat) (s : State) (t0 : Tarn) : State :=
  let t := { t0 with readers := 0, writer := false, waiting := [], holds := [], mover := none, askedBy := none
                     evicts := [], drops := [], maker := none, cleaning := [] }
  if c < t.born then dropTarn s t
  else if c < t.writtenIn then
    let s1 := if t.stored then freeStorage s t else s
    if t.life = 3 ∧ t.stored then putTarn s1 { t with state := .filling, dirty := [], fresh := false, moveFrom := none }
    else
      let t1 := { t with state := .evicted, dirty := [], moveFrom := none }
      settleEnd (putTarn s1 t1) t1
  else if c < t.filledIn ∧ t.state = .resident then putTarn s { t with state := .filling }
  else settleEnd (putTarn s t) t

/-- Whether a byte of a scratchpad lies in the storage of a tarn. -/
def inStorage (s : State) (k : Nat) : Bool :=
  s.tarns.any fun t =>
    let at_ (home : Nat) : Bool := match levelOff s t.level home k with | some o => t.holdsAt t.level home o | none => false
    at_ t.home || (match t.moveFrom with | some (h, _) => at_ h | none => false)

/-- R493: the scratchpads outside tarns read 0. -/
def clearPads (s : State) : State :=
  let gone (k : Nat) : Bool := (isPadKey k || isChipKey k) && !inStorage s k
  { s with
    mem := s.mem.filter fun e => !gone e.1
    poison := s.poison.filter fun u => !gone (8 * u)
    cores := s.cores.map fun e => (e.1, { e.2 with empty := e.2.empty.filter fun l => !gone (padKey e.1 (128 * l)) }) }

/-- R493: every job is killed, and every started command, nest entry and collective abandoned. -/
def killAll (s : State) : State :=
  { s with
    slots := s.slots.map fun e => if e.1 < 3072 then (e.1, {}) else e
    begun := s.begun.filter fun b => decide (3072 ≤ b.agent.slot)
    saves := [], circuits := []
    tq := { s.tq with records := [], stopReqs := [] }
    windows := s.windows.map fun e => (e.1, { e.2 with pending := [] })
    fab := { s.fab with xacts := [], groups := s.fab.groups.map fun e => (e.1, { e.2 with insts := [], closings := [] }) }
    cores := s.cores.map fun e => (e.1, { e.2 with
      arrayBy := none, port := [], waitScan := none
      fw := { e.2.fw with event := e.2.fw.event &&& 0x07#5, busy := false, op := 0 } }) }

/-- R493: a launch as its restart finds it: its record as it was read, and the faults counted up to the close. -/
def Launch.restarted (l : Launch) : Launch :=
  { id := l.id, ctx := l.ctx, origin := l.origin, graphOf := l.graphOf, bad := l.bad, launchid := l.launchid, code := l.code
    frame := l.frame, fstride := l.fstride, prio := l.prio, coresident := l.coresident, migrate := l.migrate, ramppin := l.ramppin
    rampclass := l.rampclass, rampmax := l.rampmax, maxDepth := l.maxDepth, levels := l.levels, completion := l.completion
    faultArea := l.faultArea, faultCap := l.faultCap, tarns := l.tarns.filter (·.shape.isNone), faults := l.faults
    faultCode := l.faultCode, failed := l.failed }

/-- R493: a packet that was under way at the close, without a launch or a graph that restarts, starts again. -/
def Packet.restarted (p : Packet) : Packet :=
  if p.done ∨ p.launch.isSome ∨ p.graph.isSome then p else { p with started := false, checked := 0, admin := none }

/-- R493: a queue's NEXT and RETIRED, with the packets between them, as they stood; a queue enabled since starts afresh. -/
def restoreQueue (snap : Snap) (q : Nat) (u : Queue) : Queue :=
  let v := match sfind snap.queues q with
    | some v => { u with next := v.next, retired := v.retired, packets := v.packets.map (·.restarted), error := v.error, errSet := v.errSet, invalid := none, awake := true }
    | none => { u with next := u.from_.1, retired := u.from_.2, packets := [], error := none, errSet := false, invalid := none, awake := true }
  if u.slot.isNone then v.unmap u.pending else v

/-- R493: the records and the mirrors of what has been restored. -/
def announce (s : State) (c : Nat) (snap : Snap) : State :=
  let s1 := s.queues.foldl (fun s e => mirrorFlags (mirrorRetired (mirrorNext s e.1) e.1) e.1) s
  snap.launches.foldl (fun s e => reportFault s e.1 (rollbackRec s e.2 c)) s1

/-- R493: the rollback to the close of interval `c`. -/
def rollbackTo (s : State) (c : Nat) (snap : Snap) : State :=
  let s1 := undoTo (dropL2 (killAll s)) c
  let s2 := clearPads (s1.tarns.foldl (rollTarn c) s1)
  let late := (s.started.filter fun e => decide (c < e.1)).map fun e => (e.2.1, e.2.2, c)
  let s3 := { s2 with
    queues := s2.queues.map fun e => (e.1, restoreQueue snap e.1 e.2)
    graphs := snap.graphs, completions := snap.completions
    launches := snap.launches.map fun e => (e.1, e.2.restarted)
    ran := [], started := [], rolled := s2.rolled ++ late
    snaps := [snap]
    ckpt := { s2.ckpt with
      current := c + 1, openedAt := s.tick, lenNow := Nat.max 1 s.ckpt.len.toNat, intervals := [{ n := c + 1 }], undo := [], logging := true
      rollbacks := if s.ckpt.rollbacks = 0xFFFF then s.ckpt.rollbacks else s.ckpt.rollbacks + 1 } }
  let s4 := announce s3 c snap
  if s4.ckpt.rollen then sendMsix s4 s4.ckpt.rollvec.toNat else s4

/-! ## A failure without protected state (R494) -/

def uncontained2 : Trap := trapOf Code.uncontained 2

/-- R494: a launch that had a job on a failed core: its jobs are killed, and it completes FAILED. -/
def failStruck (s : State) (id : Nat) : State :=
  match s.launch id with
  | none => s
  | some l =>
    let mine := (s.slots.filter fun e => e.1 < 3072 && e.2.state != .free && e.2.launch == id).map (·.1)
    let s1 := mine.foldl freeJob s
    let r : TrapRec := { code := Code.uncontained, source := 7, launchid := l.launchid, status := 2, tick := BitVec.ofNat 64 s.tick }
    let s2 := (reportFault s1 id r).modLaunch id ({ · with failed := true, faultCode := Code.uncontained })
    completeLaunch { s2 with saves := s2.saves.filter fun e => e.2.slot.launch != id } id

/-- R494: the same of a launch that has completed: its completion record is written again, and its graph takes the fault path. -/
def failRan (s : State) (e : Ran) : State :=
  if (s.launch e.launch).isSome then s
  else
    let s1 := storeLater s (engineReq 3 e.ctx) e.completion (natBytes 1 2 ++ natBytes 1 Code.uncontained)
    match e.origin with
    | .packet _ _ => s1
    | .node g i => match s1.graph g with
      | some v => if v.failed then s1 else failNode s1 g i Code.uncontained 2
      | none => s1

/-- R494: the launches that had a job on a core in an uncommitted interval. -/
def struckBy (s : State) (core : Nat) : State :=
  let here := ((upTo (2 * core) 2).filter fun n => (s.slot n).state != .free).map fun n => (s.slot n).launch
  let past := s.ran.filter fun e => e.core == core
  let s1 := past.foldl failRan s
  (here ++ past.map (·.launch)).foldl failStruck s1

/-- What asks for the stops of a cluster that is down, in TaskQ.stopReqs: no record's number. -/
def downAsker : Nat := 2 ^ 71

/-- R504: the jobs that are left on the cores of a cluster that is down are stopped and handed back, as a pre-emption does; they issue
nothing more (log 152). -/
def clearCluster (s : State) (cl : Nat) : State :=
  if !s.ckpt.down.contains cl then s
  else ((upTo (192 * cl) 192).filter fun n => (s.slot n).state == .running && (sfind s.tq.stopReqs n).isNone).foldl
    (fun s n => requestStop s n downAsker) s

/-- R493, R494, R495, R528: ROLLBACK: the first failure that no action has been taken on, once no switch is under way and every close
is complete; the next one follows it. -/
def execRollback (s : State) : Host.Outcome State Fault Refusal :=
  match s.ckpt.failed with
  | [] => .next s
  | core :: rest =>
    if (s.upd.busy ∧ s.upd.phase = 4) ∨ s.tarns.any (·.cleaning != []) then .next (cleanRest s)
    else
      let s1 := s.modCkpt ({ · with failed := rest })
      match s.ckpt.committed, s.ckpt.intervals.any (·.unprot), s.snaps.find? (fun e => s.ckpt.committed == some e.n) with
      | some c, false, some snap => .next (rollbackTo s1 c snap)
      | _, _, _ => .next (clearCluster (struckBy s1 core) (core / 96))

/-! ## Spares (R503, R505) -/

/-- R503: a slice reports an error: a corrected one, or, past correction, one of a line that it holds, whose data fails its check from
then on (R497). -/
def sliceError (s : State) (slice : Nat) (line : Option Nat) : State :=
  if 128 ≤ slice then s
  else match line with
    | none => s.modCkpt fun c => { c with sliceErrs := sput c.sliceErrs slice (sget c.sliceErrs 0 slice + 1) }
    | some l =>
      let held := s.l2tags.any fun e => e.1 / 1024 == slice && e.2.any (·.line == l)
      { s with
        badLines := if held ∧ !s.badLines.contains l then l :: s.badLines else s.badLines
        ckpt := { s.ckpt with sliceBad := if s.ckpt.sliceBad.contains slice then s.ckpt.sliceBad else slice :: s.ckpt.sliceBad } }

/-- R503: a slice's spare is brought in: more than 4096 corrected errors in the open interval, or an uncorrectable one. -/
def sliceFails (s : State) (slice : Nat) : Bool :=
  decide (4096 < sget s.ckpt.sliceErrs 0 slice) || s.ckpt.sliceBad.contains slice

/-- R503: SLICE_SPARE: the slice's dirty lines are written back, and a spare takes its number (log 53). -/
def execSliceSpare (slice : Nat) (s : State) : Host.Outcome State Fault Refusal :=
  if s.ckpt.slices = 0 ∨ !sliceFails s slice then .next s
  else
    let s1 := cleanSectors s (inSlice s slice)
    .next { s1 with
      l2tags := s1.l2tags.filter fun e => e.1 / 1024 != slice
      badLines := s1.badLines.filter fun l => !inSlice s slice (4 * l)
      ckpt := { s1.ckpt with
        slices := s1.ckpt.slices - 1, sliceErrs := sdel s1.ckpt.sliceErrs slice, sliceBad := s1.ckpt.sliceBad.filter (· != slice) } }

/-- R503: LASER_SPARE: a bank's spare replaces the laser; the fabric lanes that the bank feeds are shed, and come back as they have been
trained again (R419). -/
def execLaserSpare (bank : Nat) (s : State) : Host.Outcome State Fault Refusal :=
  if Config.laserSpares bank ≤ sget s.ckpt.lasers 0 bank then .next s
  else
    let s1 := s.modCkpt fun c => { c with lasers := sput c.lasers bank (sget c.lasers 0 bank + 1) }
    .next ((Config.laserLanes bank).foldl (fun s e => shedFed s e.1 e.2) s1)

/-- R505: the spare lasers that are left. -/
def lasersLeft (s : State) : Nat := Config.lasers - (s.ckpt.lasers.map (·.2)).foldr (· + ·) 0

/-- R505: SPARE.STAT. -/
def spareStat (s : State) : Word :=
  let cores := (upTo 0 16).foldl (fun a c => a + sget s.ckpt.spares 4 c * 2 ^ (3 * c)) 0
  BitVec.ofNat 64 (min 255 (lasersLeft s) * 2 ^ 56 + s.ckpt.slices * 2 ^ 52 + cores)

/-! ## Hedge table registers (R508, R509) -/

def rejectHedge (s : State) : State := { s with hedge := { s.hedge with reject := true } }

/-- R509: HEDGE_SEL_WRITE; it waits through a switch of the management controller (R523). -/
def execHedgeSelWrite (m : Master) (d : Word) (s : State) : Host.Outcome State Fault Refusal :=
  if !hedgeMaster m then .next s
  else if mgmtWaits s m then .next s.stall
  else if s.hedge.pending.isSome then .next (rejectHedge s)
  else .next { s with hedge := { s.hedge with sel := keepFields d [(0, 16), (48, 4), (57, 7)] } }

/-- R509: HEDGE_DATA_WRITE; it waits through a switch of the management controller (R523, R527). -/
def execHedgeDataWrite (m : Master) (d : Word) (s : State) : Host.Outcome State Fault Refusal :=
  if !hedgeMaster m then .next s
  else if mgmtWaits s m then .next s.stall
  else if s.hedge.pending.isSome ∨ 26 < bits s.hedge.sel 58 6 then .next (rejectHedge s)
  else .next { s with hedge := { s.hedge with pending := some (s.hedge.sel, d) } }

/-- R509: an entry or the bounds of a window, stored in a target's table. -/
def HedgeTable.store (t : HedgeTable) (sel d : Word) : HedgeTable :=
  if bit sel 57 then { t with windows := sput t.windows (bits sel 48 4) (bits d 0 32, bits d 32 32) }
  else { t with perms := sput t.perms (bits sel 0 16) (d.setWidth 32) }

/-- R508: HEDGE_APPLY. -/
def execHedgeApply (s : State) : Host.Outcome State Fault Refusal :=
  match s.hedge.pending with
  | none => .next s
  | some (sel, d) =>
    let k := bits sel 58 6
    .next { s with hedge := { s.hedge with pending := none, tables := sput s.hedge.tables k ((sget s.hedge.tables {} k).store sel d) } }

/-- R509: HEDGE.DATA reads as the selected item. -/
def hedgeData (s : State) : Word :=
  let t := sget s.hedge.tables {} (bits s.hedge.sel 58 6)
  if bit s.hedge.sel 57 then
    let w := sget t.windows (0, 0) (bits s.hedge.sel 48 4)
    BitVec.ofNat 64 (w.2 * 2 ^ 32 + w.1)
  else (t.entry (bits s.hedge.sel 0 16)).setWidth 64

end Sys2Proof.Machine
end

