-- ==== Sys2Proof/Machine/Channels.lean ====
section
/-!
DEFINITION. The HBM channels as events of the module (R514 to R518): register writes by a stack's sequencer or by the management
controller, and what ends a pattern test or a channel's service.
-/

namespace Sys2Proof.Machine

/-- R513: a stack's sequencer (class 5) and the management controller (class 15) reach its channel registers, through their own
maps; no other master does. -/
def chanMaster (m : Master) : Bool := m.toNat % 16 == 5 || m.toNat % 16 == 15

/-- R527: through a switch of its sequencer image a stack's sequencer makes no request. -/
def sequencerPaused (s : State) (m : Master) (stack : Nat) : Bool := m.toNat % 16 == 5 && classPaused s 2 && s.upd.inst == stack

/-- A write of the register at an offset of channel `ch` of a stack; it waits through a switch of its writer (R523, R527). -/
def chanEvent (s : State) (m : Master) (stack ch off : Nat) (d : Word) : Host.Outcome State Fault Refusal :=
  if sequencerPaused s m stack ∨ mgmtWaits s m then .next s.stall
  else if chanMaster m ∧ stack < 16 ∧ ch < 32 then .next (chanWrite s (32 * stack + ch) off d) else .next s

/-- R515: PATTERN_TEST: a write of CHCTL. -/
def execPatternTest (m : Master) (stack ch : Nat) (d : Word) (s : State) : Host.Outcome State Fault Refusal :=
  chanEvent s m stack ch 0x000 d

def execRdallWrite (m : Master) (stack ch : Nat) (d : Word) (s : State) : Host.Outcome State Fault Refusal :=
  chanEvent s m stack ch 0x020 d

def execWdallWrite (m : Master) (stack ch : Nat) (d : Word) (s : State) : Host.Outcome State Fault Refusal :=
  chanEvent s m stack ch 0x028 d

def execRepairWrite (m : Master) (stack ch : Nat) (d : Word) (s : State) : Host.Outcome State Fault Refusal :=
  chanEvent s m stack ch 0x030 d

def execChmodeWrite (m : Master) (stack ch : Nat) (d : Word) (s : State) : Host.Outcome State Fault Refusal :=
  chanEvent s m stack ch 0x038 d

/-- R515: the cycles that a test lasts. -/
def testCycles (d : Word) : Nat := 96 + 4 * Nat.max 1 (bits d 16 16)

/-- R517: the physical lane that carries a lane of the interface. -/
def Chan.lane (c : Chan) (k : Nat) : Nat :=
  if bit c.repair 7 ∧ bits c.repair 0 7 = k then 64 else if bit c.repair 15 ∧ bits c.repair 8 7 = k then 65 else k

/-- R514 to R517: the results of a test: which physical lanes passed (of these, TRAIN = 1 shows all, else each lane of the interface
shows the one that carries it), and how many bits were wrong. -/
def Chan.tested (c : Chan) (d : Word) (pass : BitVec 66) (errs : Word) : Chan :=
  { c with
    busy := false, test := none
    pass := if bit d 2 then pass.setWidth 64 else BitVec.ofNat 64 ((upTo 0 64).foldl (fun n k => n + b2n (bit pass (c.lane k)) * 2 ^ k) 0)
    passx := if bit d 2 then BitVec.ofNat 2 (bits pass 64 2) else 0
    errs := BitVec.ofNat 32 (min errs.toNat 0xFFFFFFFF) }

/-- R515, R516: PATTERN_TEST_COMPLETE. -/
def execPatternTestComplete (stack ch : Nat) (pass : BitVec 66) (errs : Word) (s : State) : Host.Outcome State Fault Refusal :=
  let n := 32 * stack + ch
  match (s.chan n).test with
  | none => .next s
  | some (d, t) =>
    if stack < 16 ∧ ch < 32 ∧ t + testCycles d ≤ s.tick then .next (s.setChan n ((s.chan n).tested d pass errs)) else .next s

/-- R518: CHANNEL_OFFLINE: the requests that were outstanding when ONLINE was cleared have performed (log 8). -/
def execChannelOffline (stack ch : Nat) (s : State) : Host.Outcome State Fault Refusal :=
  let n := 32 * stack + ch
  let c := s.chan n
  if stack < 16 ∧ ch < 32 ∧ c.holding then .next (s.setChan n { c with online := false, holding := false }) else .next s

end Sys2Proof.Machine
end

