-- ==== Sys2Proof/Machine/Hash.lean ====
section
/-!
DEFINITION. SHA-512, which the spec names (R519, R521) and does not define: the function of FIPS 180-4 (PRESUMED, log 54). Its
constants are the first 64 fraction bits of square and cube roots of the first primes.
-/

namespace Sys2Proof.Machine

/-- The largest `r` below 2^bits with `r ^ k ≤ n`. -/
def rootFloor (k n : Nat) : Nat → Nat → Nat
  | 0, r => r
  | i + 1, r => rootFloor k n i (if (r + 2 ^ i) ^ k ≤ n then r + 2 ^ i else r)

def isPrime (n : Nat) : Bool := (upTo 2 (n - 2)).all fun d => n % d != 0

/-- The first eighty primes. -/
def primes80 : List Nat := (upTo 2 408).filter isPrime

def shaK : List Word := primes80.map fun p => BitVec.ofNat 64 (rootFloor 3 (p * 2 ^ 192) 68 0)

/-- The eight words of a hash value. -/
structure Sha where
  a : Word
  b : Word
  c : Word
  d : Word
  e : Word
  f : Word
  g : Word
  h : Word
deriving DecidableEq, Repr

def shaStart : Sha :=
  let k (i : Nat) : Word := BitVec.ofNat 64 (rootFloor 2 (primes80.getD i 0 * 2 ^ 128) 70 0)
  ⟨k 0, k 1, k 2, k 3, k 4, k 5, k 6, k 7⟩

/-- One round, with a constant and a word of the schedule. -/
def Sha.round (s : Sha) (kw : Word × Word) : Sha :=
  let s1 := s.e.rotateRight 14 ^^^ s.e.rotateRight 18 ^^^ s.e.rotateRight 41
  let ch := (s.e &&& s.f) ^^^ (~~~s.e &&& s.g)
  let t1 := s.h + s1 + ch + kw.1 + kw.2
  let s0 := s.a.rotateRight 28 ^^^ s.a.rotateRight 34 ^^^ s.a.rotateRight 39
  let maj := (s.a &&& s.b) ^^^ (s.a &&& s.c) ^^^ (s.b &&& s.c)
  ⟨t1 + s0 + maj, s.a, s.b, s.c, s.d + t1, s.e, s.f, s.g⟩

/-- The message schedule, `n` words more than the sixteen given; the list is newest first. -/
def shaExtend : Nat → List Word → List Word
  | 0, w => w
  | n + 1, w =>
    let x := w.getD 14 0
    let y := w.getD 1 0
    let s0 := x.rotateRight 1 ^^^ x.rotateRight 8 ^^^ x >>> 7
    let s1 := y.rotateRight 19 ^^^ y.rotateRight 61 ^^^ y >>> 6
    shaExtend n ((s1 + w.getD 6 0 + s0 + w.getD 15 0) :: w)

/-- A big-endian number. -/
def beNat (bs : List Byte) : Nat := bs.foldl (fun n b => 256 * n + b.toNat) 0
def beBytes (n v : Nat) : List Byte := (natBytes n v).reverse

def Sha.block (k : List Word) (s : Sha) (bs : List Byte) : Sha :=
  let w := (shaExtend 64 ((upTo 0 16).map fun i => BitVec.ofNat 64 (beNat ((bs.drop (8 * i)).take 8))).reverse).reverse
  let t := (k.zip w).foldl Sha.round s
  ⟨s.a + t.a, s.b + t.b, s.c + t.c, s.d + t.d, s.e + t.e, s.f + t.f, s.g + t.g, s.h + t.h⟩

def Sha.blocks (k : List Word) : Nat → Sha → List Byte → Sha
  | 0, s, _ => s
  | n + 1, s, bs => Sha.blocks k n (s.block k (bs.take 128)) (bs.drop 128)

/-- The 64 bytes of the hash of some bytes. -/
def sha512 (bs : List Byte) : List Byte :=
  let pad := (128 - (bs.length + 17) % 128) % 128
  let m := bs ++ [0x80#8] ++ List.replicate pad 0 ++ beBytes 16 (8 * bs.length)
  let t := shaStart.blocks shaK (m.length / 128) m
  ([t.a, t.b, t.c, t.d, t.e, t.f, t.g, t.h].map fun w => beBytes 8 w.toNat).foldr (· ++ ·) []

end Sys2Proof.Machine
end

