-- ==== Sys2Proof/Machine/HandOver.lean ====
section
/-!
DEFINITION. The hand-over record of a switch (R529): what an active image writes at its switch point (R525), and the check that the
new image makes before it writes HEALTHY.
-/

namespace Sys2Proof.Machine

/-! ## The record (R529) -/

/-- R511: the class of a controller. -/
def ctlClass (n : Nat) : Nat := if n < 4 then 0 else if n = 4 then 1 else if n < 21 then 2 else n - 18

/-- R317: TQ.CFG. -/
def tqCfg (t : TaskQ) : Word := BitVec.ofNat 64 (t.cowait.toNat * 2 ^ 32 + t.prewait.toNat * 2 ^ 16 + t.affwait.toNat)

/-- The bytes of the entries of a table, one after another. -/
def tableRows (n : Nat) (f : Nat → List Byte) : List Byte := ((upTo 0 n).map f).foldr (· ++ ·) []

/-- R529: an entry of the queue map. -/
def queueRow (s : State) (h : Nat) : List Byte :=
  match s.queues.find? fun e => e.2.slot == some h with
  | some (q, u) => natBytes 4 (q % 4096 + 32768 + min ((s.tick - u.mappedAt) / us) 0xFFFF * 65536)
  | none => natBytes 4 0

/-- R529: an entry of the graphs; `first` counts the resident nodes of the graphs before it. -/
def graphRow (first : Nat) (v : Graph) : List Byte :=
  natBytes 8 v.table.toNat ++ natBytes 2 v.q ++ natBytes 6 v.idx ++ natBytes 4 first ++ natBytes 2 v.nodes.length ++
    natBytes 1 (b2n v.loaded) ++ natBytes 1 0 ++ natBytes 8 v.start.toNat

def graphRows : Nat → List Graph → List Byte
  | _, [] => []
  | first, v :: vs => graphRow first v ++ graphRows (first + if v.loaded then v.nodes.length else 0) vs

/-- R529: the body of class 0: the queue map, PENDING, the graphs and the task queue. -/
def body0 (s : State) : List Byte :=
  let graphs := (s.graphs.map (·.2)).take 64
  tableRows 256 (queueRow s) ++ natBytes 32 ((upTo 0 256).foldl (fun a h => a + b2n (s.upd.pending.contains h) * 2 ^ h) 0) ++
    graphRows 0 graphs ++ List.replicate (32 * (64 - graphs.length)) 0 ++
    natBytes 8 (tqCfg s.tq).toNat ++ natBytes 8 s.tq.spillbase.toNat ++
    tableRows 8 fun b => natBytes 2 (s.tq.records.filter fun e => e.2.bank == b).length

/-- R529: the body of class 1: the count of table writes, the escape tree (whose root and version the fabric manager alone knows:
`free`), the lane maps, the sequence numbers of the links and their health. -/
def body1 (s : State) (free : Word) : List Byte :=
  natBytes 8 s.fab.routeWrites ++ natBytes 1 (b2n s.fab.escActive) ++ natBytes 7 (bits free 0 56) ++
    (tableRows 128 fun n => let p := s.port n
      natBytes 2 p.active.toNat ++ natBytes 2 p.standby.toNat ++ natBytes 2 p.rxActive.toNat ++ natBytes 2 0) ++
    (tableRows 128 fun n => natBytes 4 ((s.port n).seq % 4096 + (s.port n).ackSeq * 4096)) ++
    tableRows 128 fun n => natBytes 1 (s.port n).health

/-- R529: a record: the header over a body, with its check. -/
def sealedRecord (cls seq tick : Nat) (body : List Byte) : List Byte :=
  let head (crc : Nat) : List Byte :=
    natBytes 4 0x44524348 ++ natBytes 1 cls ++ natBytes 1 0 ++ natBytes 2 1 ++ natBytes 8 (64 + body.length) ++ natBytes 8 seq ++
      natBytes 8 tick ++ natBytes 4 crc ++ List.replicate 28 0
  head (crc32 (head 0 ++ body)) ++ body

/-- R529: the record that controller `n` hands over. Classes 2 to 4 have bodies of their own, here empty (log 151). -/
def handOver (s : State) (n : Nat) (free : Word) : List Byte :=
  let cls := ctlClass n
  sealedRecord cls s.upd.seq.toNat s.tick (match cls with | 0 => body0 s | 1 => body1 s free | _ => [])

/-- R529: the new image's check of a record in its local RAM: magic, version, check. -/
def recordGood (s : State) (cn at_ : Nat) : Bool :=
  let size := min (memNat s (ramKey cn (at_ + 8)) 8) (2 ^ 18 - at_)
  let bs := readBytes s.mem (ramKey cn at_) size
  decide (64 ≤ size) && recNat bs 0 4 == 0x44524348 && recNat bs 6 2 == 1 &&
    recNat bs 32 4 == crc32 (bs.take 32 ++ List.replicate 4 0 ++ bs.drop 36)

/-! ## The events of a switch (R524, R525) -/

/-- R525: whether the active image of a controller stands at a switch point, as far as the module's state shows it: no fetched packet
of a mapped queue waits for its start; no channel of the sequencer's stack tests, drains or is off line within a routine. -/
def switchPoint (s : State) (n : Nat) : Bool :=
  match ctlClass n with
  | 0 => s.qregs.busy.isNone && s.qregs.enabling.isNone &&
      s.queues.all fun e => e.2.slot.isNone || e.2.error.isSome || e.2.packets.all (·.started)
  | 2 => (upTo (32 * (n - 5)) 32).all fun c => let x := s.chan c; !x.busy && !x.holding && (x.online || !x.trained)
  | 4 => s.hedge.pending.isNone
  | _ => true

/-- Where an image that has not written RECORD leaves its record (log 151). -/
def recordDefault : Nat := 0x3F000

/-- R524, R529: the record is written in the active image's RAM, at RECORD. -/
def writeHandOver (s : State) (n : Nat) : State :=
  let c := s.ctl n
  let at_ := if c.sig.record = 0 then recordDefault else c.sig.record.toNat % 2 ^ 18
  let (v, s1) := if ctlClass n = 1 then s.drawFree else (0, s)
  let bs := (handOver s n v).take (2 ^ 18 - at_)
  modSig { s1 with mem := writeBytes s1.mem (ramKey (c.activeCtx n) at_) bs } n ({ · with record := BitVec.ofNat 32 at_ })

end Sys2Proof.Machine
end

