-- ==== Sys2Proof/Machine/Updates.lean ====
section
/-!
DEFINITION. Image updates as events (R519 to R530): UPD.CMD, the course of a switch, the per-core firmware contexts, and the restart
of a stopped controller (R512).
-/

namespace Sys2Proof.Machine

def State.modUpd (s : State) (f : Upd → Upd) : State := { s with upd := f s.upd }

/-! ## UPD.CMD (R522) -/

def updCmdOff : Nat := 0x190008

/-- R522: a reserved value of UPD.CMD. -/
def updReserved (d : Word) : Bool :=
  bits d 24 24 != 0 || bits d 4 8 != 0 || bits d 0 4 == 0 || decide (4 < bits d 0 4) || decide (5 < bits d 12 4) ||
    (if bits d 12 4 = 2 then decide (15 < bits d 16 8) else bits d 16 8 != 0)

/-- R526: an ABORT before SWITCHING ends the operation in progress; every other write while BUSY is 1 is ignored. -/
def updBlocked (s : State) (d : Word) : Bool := s.upd.busy && !(bits d 0 4 == 3 && decide (s.upd.phase < 4))

/-- A write of UPD.CMD whose OP is `op`. -/
def updCommand (s : State) (m : Master) (op : Nat) (d : Word) (f : State) : Host.Outcome State Fault Refusal :=
  if !barWritable s m updCmdOff ∨ bits d 0 4 ≠ op then .next s
  else if mgmtWaits s m then .next s.stall
  else if updBlocked s d ∨ updReserved d then .next (s.modUpd ({ · with result := 10 }))
  else .next f

/-- A write of UPD.CMD with a reserved OP. -/
def updReservedOp (s : State) (d : Word) : State :=
  if bits d 0 4 = 0 ∨ 4 < bits d 0 4 then s.modUpd ({ · with result := 10 }) else s

/-! ## Staging (R519, R520) -/

def execStage (m : Master) (d : Word) (s : State) : Host.Outcome State Fault Refusal :=
  updCommand s m 1 d (s.modUpd fun u => { u with cmd := d, busy := true, phase := 1, startedAt := s.tick })

/-- R511: the controllers that hold the images of a class; class 5 has one pair of slots for every core. -/
def imageCtls (cls inst : Nat) : List Nat := if cls = 5 then [class5Ctl] else classCtls cls inst

/-- R519: the image of an envelope. -/
def imageOf (e : List Byte) (uzo : List Byte) : Image :=
  { cls := bnat e 4 1, savefmt := bnat e 6 2, readfmt := BitVec.ofNat 32 (bnat e 8 4), svn := bnat e 12 4
    digest := (e.drop 24).take 64, bytes := uzo, keyid := (e.drop 88).take 32, sig := (e.drop 120).take 64 }

/-- R519: the envelope's magic, reserved bytes and length. -/
def envelopeOk (a : Nat) (e : List Byte) : Bool :=
  let n := bnat e 16 8
  bnat e 0 4 == 0x31465A55 && bnat e 5 1 == 0 && (e.drop 184).all (· == 0) && decide (1 ≤ n) && decide (n ≤ 2 ^ 24) &&
    isHbm a && isHbm (a + 255 + n) && (a / 2 ^ 36 == (a + 255 + n) / 2 ^ 36) &&
    (bnat e 4 1 == 5 || (bnat e 6 2 == 0 && bnat e 8 4 == 0))

/-- R520, R522: the RESULT of verifying an envelope: the first check of R520 that fails, or 0. -/
def stageResult (s : State) (e uzo : List Byte) (okEnvelope : Bool) : Nat :=
  let cls := s.upd.cls
  let running := ((imageCtls cls s.upd.inst).head?.bind fun n => (s.ctl n).activeImage).map (·.savefmt)
  if !okEnvelope then 1
  else if bnat e 4 1 ≠ cls then 5
  else if sha512 uzo ≠ (e.drop 24).take 64 then 2
  else if (e.drop 88).take 32 ≠ Config.fusedKeyid ∨ !Config.signatureOk ((e.drop 24).take 64) ((e.drop 120).take 64) then 3
  else if bnat e 12 4 < sget s.upd.minima 0 cls then 4
  else if cls == 5 && (match running with | some f => decide (32 ≤ f) || !(bnat e 8 4).testBit f | none => false) then 8
  else 0

/-- R520: an image goes into the staged slot of a controller. -/
def putStaged (s : State) (n : Nat) (im : Image) : State :=
  let c := s.ctl n
  s.setCtl n (if c.activeB then { c with slotA := some im } else { c with slotB := some im })

/-- R520: STAGE_COMPLETE; an envelope that a channel holds is waited for (R518). -/
def execStageComplete (s : State) : Host.Outcome State Fault Refusal :=
  let u := s.upd
  if !u.busy ∨ u.phase ≠ 1 then .next s
  else
    let a := bits u.image 12 40 * 4096
    if !readReady s a 256 then .next s
    else
      let e := readBytes s.mem a 256
      let ok := envelopeOk a e
      let n := if ok then bnat e 16 8 else 0
      if !readReady s (a + 256) n then .next s
      else
        let uzo := readBytes s.mem (a + 256) n
        let r := stageResult s e uzo ok
        let s1 := if r = 0 then forCtls (fun s n => putStaged s n (imageOf e uzo)) s (imageCtls u.cls u.inst) else s
        .next (s1.modUpd fun u => { u with busy := false, phase := if r = 0 then 2 else 0, result := r })

/-! ## ACTIVATE, ABORT, SVNCOMMIT (R520, R523, R526, R530) -/

/-- R523, R530: a switch begins: the staged images start in their second contexts; the cores of class 5 switch one by one. -/
def beginSwitch (s : State) (d : Word) : State :=
  let cls := bits d 12 4
  let s1 := s.modUpd fun u => { u with cmd := d, busy := true, startedAt := s.tick, pausedAt := none, paused := [], switched := [],
                                       back := false, phase := if cls = 5 then 4 else 3 }
  if cls = 5 then { s1 with cores := s1.cores.map fun e => (e.1, { e.2 with fw := { e.2.fw with health := false } }) }
  else forCtls (fun s n => startCtl s ((s.ctl n).stagedCtx n) (s.ctl n).stagedImage) s1 (classCtls cls (bits d 16 8))

/-- ACTIVATE; the RESULT of one that finds no staged image is free (log 3, log 55). -/
def activateNow (s : State) (d : Word) : State :=
  if (imageCtls (bits d 12 4) (bits d 16 8)).all fun n => (s.ctl n).stagedImage.isSome then beginSwitch s d
  else
    let (v, s1) := s.drawFree
    s1.modUpd ({ · with result := bits v 0 8 })

def execActivate (m : Master) (d : Word) (s : State) : Host.Outcome State Fault Refusal := updCommand s m 2 d (activateNow s d)

/-- R526: ABORT before SWITCHING. -/
def abortNow (s : State) : State :=
  if !s.upd.busy then s.modUpd ({ · with result := 9 })
  else if s.upd.phase = 3 then failUpdate s 9
  else s.modUpd ({ · with busy := false, phase := 0, result := 9 })

def execAbort (m : Master) (d : Word) (s : State) : Host.Outcome State Fault Refusal := updCommand s m 3 d (abortNow s)

/-- R520: SVNCOMMIT: the class's fused minimum rises to the SVN of its active image. -/
def commitSvn (s : State) (d : Word) : State :=
  let cls := bits d 12 4
  let svn := (((imageCtls cls (bits d 16 8)).head?.bind fun n => (s.ctl n).activeImage).map (·.svn)).getD 0
  s.modUpd fun u => { u with minima := sput u.minima cls (Nat.max (sget u.minima 0 cls) svn), result := 0 }

def execSvncommit (m : Master) (d : Word) (s : State) : Host.Outcome State Fault Refusal := updCommand s m 4 d (commitSvn s d)

/-! ## The course of a switch (R523 to R526) -/

def execReady (ctl : Nat) (s : State) : Host.Outcome State Fault Refusal := .next (if ctl < 23 then sigReady s ctl else s)

/-- R524, R525, R529: HANDED: at a switch point the active image writes its record, and HANDED. -/
def execHanded (ctl : Nat) (s : State) : Host.Outcome State Fault Refusal :=
  if ctl < 23 ∧ updating s ctl ∧ (s.ctl ctl).sig.req ∧ !(s.ctl ctl).sig.handed ∧ switchPoint s ctl then
    .next (sigHanded (writeHandOver s ctl) ctl)
  else .next s

/-- R524, R529: HEALTHY: the new image takes over, where the record that it finds is good. -/
def execHealthy (ctl : Nat) (s : State) : Host.Outcome State Fault Refusal :=
  let c := s.ctl ctl
  if ctl < 23 ∧ recordGood s (c.stagedCtx ctl) (c.sig.record.toNat % 2 ^ 18) then .next (sigHealthy s ctl) else .next s

/-- R522: DEADLINE counts in ms. -/
def deadlineAt (s : State) (from_ : Nat) : Nat := from_ + s.upd.deadlineMs * 1000 * us

/-- R530: a core that was switched has not written HEALTHY in time. -/
def lateCore (s : State) : Bool :=
  s.upd.switched.any fun e => decide (deadlineAt s e.2 ≤ s.tick) && !(s.core e.1).fw.health

/-- R526, R530: UPDATE_DEADLINE. -/
def execUpdateDeadline (s : State) : Host.Outcome State Fault Refusal :=
  let u := s.upd
  if !u.busy then .next s
  else if u.cls = 5 then
    .next (if u.phase = 4 ∧ !u.back ∧ lateCore s then s.modUpd ({ · with result := 7, back := true }) else s)
  else if (u.phase = 3 ∨ u.phase = 4) ∧ deadlineAt s u.startedAt ≤ s.tick then
    .next (failUpdate s (if u.phase = 3 then 6 else 7))
  else .next s

/-- R523, R526: SWITCH_WINDOW_EXPIRE: 2 ms after the pause began. -/
def execSwitchWindowExpire (s : State) : Host.Outcome State Fault Refusal :=
  match s.upd.pausedAt with
  | some t => if s.upd.busy ∧ s.upd.phase = 4 ∧ t + 2000 * us ≤ s.tick then .next (failUpdate s 7) else .next s
  | none => .next s

/-! ## Class 5 (R530) -/

/-- R530: whether a core's firmware context may switch images now. -/
def fwSwitchPoint (s : State) (core : Nat) : Bool :=
  let a := s.slot (2 * core)
  let b := s.slot (2 * core + 1)
  let leaving (t : Slot) : Bool := t.state == .stopping || t.state == .killing
  !leaving a && !leaving b && !(s.core core).fw.busy &&
    s.cores.all (fun e => !(e.2.fw.busy && e.2.fw.target / 2 == core)) &&
    ((s.core core).fw.jobAt == some s.tick || (a.state == .free && b.state == .free))

/-- The core's context starts an image, its registers cleared; its FW registers stand. -/
def switchCore (s : State) (core image : Nat) (im : Option Image) : State :=
  startFw (s.modCore core fun c => { c with fw := { c.fw with image := image, health := false, faulted := none } }) core im

/-- R530: CORE_FIRMWARE_SWITCH: to the staged image, or back to the old one. With the last core every core runs the staged image (R521). -/
def execCoreFirmwareSwitch (core : Nat) (s : State) : Host.Outcome State Fault Refusal :=
  let u := s.upd
  let c := s.ctl class5Ctl
  if !u.busy ∨ u.cls ≠ 5 ∨ u.phase ≠ 4 ∨ 1536 ≤ core ∨ s.ckpt.down.contains (core / 96) ∨ !fwSwitchPoint s core then .next s
  else match u.back, (sfind u.switched core).isSome with
    | false, false =>
      let s1 := (switchCore s core 1 c.stagedImage).modUpd fun u => { u with switched := sput u.switched core s.tick }
      .next (s1.modUpd fun u => { u with allIn := u.allIn || (liveCores s1).all fun k => (sfind u.switched k).isSome })
    | true, true =>
      let s1 := (switchCore s core 0 c.activeImage).modUpd fun u => { u with switched := sdel u.switched core }
      .next (if s1.upd.switched = [] then endUpdate s1 7 2 else s1)
    | _, _ => .next s

def execFwHealth (core : Nat) (d : Word) (s : State) : Host.Outcome State Fault Refusal :=
  .next (if core < 1536 then fwHealthWrite s core d else s)

/-! ## Restarting a controller (R512) -/

/-- R512: an END or a fault has stopped the context that runs a controller's active image. -/
def ctlStopped (s : State) (n : Nat) : Bool :=
  let t := s.slot (ctlSlot ((s.ctl n).activeCtx n))
  t.state == .trapped || (t.state == .running && t.a.ended)

def execControllerRestart (n : Nat) (s : State) : Host.Outcome State Fault Refusal :=
  if n < 23 ∧ ctlStopped s n then .next (startCtl s ((s.ctl n).activeCtx n) (s.ctl n).activeImage) else .next s

end Sys2Proof.Machine
end

