-- ==== Sys2Proof/Machine/Boots.lean ====
section
/-!
DEFINITION. Boot and module reset (R531 to R533, R535), and the answers of the management controller (R521).
-/

namespace Sys2Proof.Machine

/-! ## Module reset (R535) -/

/-- Memory that does not belong to the module: that of the CXL devices (R539) and of the host (R537). -/
def outsideKey (a : Nat) : Bool := isCxl a || (decide (2 ^ 51 ≤ a) && decide (a < 2 ^ 52))

/-- R523: what a controller's flash keeps: its images and the active-slot choice. -/
def Ctl.kept (c : Ctl) : Ctl := { slotA := c.slotA, slotB := c.slotB, activeB := c.activeB }

/-- The module resets: everything is as after reset but what lies outside it (ATTEMPTS and the last failure on the carrier
board, the fused minima, images, dies' temperatures, foreign memory) and the data of the environment (log 56). -/
def moduleReset (s : State) (reason : Nat) : State :=
  { State.reset with
    boot := { attempts := s.boot.attempts, lastStage := s.boot.lastStage, reason := reason }
    ctls := s.ctls.map fun e => (e.1, e.2.kept)
    upd := { minima := s.upd.minima }
    deviceId := s.deviceId
    therm := { temps := s.therm.temps, held := s.therm.temps.any fun e => decide (100 ≤ e.2), inputv := s.therm.inputv, inputw := s.therm.inputw }
    mem := (dropL2 s).mem.filter fun e => outsideKey e.1
    poison := s.poison.filter fun u => outsideKey (8 * u), lost := s.lost
    outbox := s.outbox, agenda := s.agenda, focus := s.focus, freeCount := s.freeCount, powered := s.powered }

/-- R535: PERST#: a reset, after which a boot begins; ATTEMPTS stands. -/
def execPerst (s : State) : Host.Outcome State Fault Refusal := .next (if s.powered then moduleReset s 7 else s)

/-! ## Boot (R531, R532) -/

/-- The outcomes that the environment gives a boot attempt: entries 0 to 5 for the stages, 6 + k for the training of stack k;
those that are not given are good. -/
def stackTrains (ok : List Bool) (k : Nat) : Bool := ok.getD (6 + k) true

/-- R520, R531: an image passes the checks of R520 as a boot makes them. -/
def verified (s : State) (cls : Nat) (im : Option Image) : Bool :=
  match im with
  | none => false
  | some i => i.cls == cls && sha512 i.bytes == i.digest && i.keyid == Config.fusedKeyid && Config.signatureOk i.digest i.sig &&
      decide (sget s.upd.minima 0 cls ≤ i.svn)

/-- R531: the management controller's slots, the active one first: the one that the boot ROM takes (log 112). -/
def romSlot (s : State) : Option Bool :=
  let c := s.ctl 22
  [c.activeB, !c.activeB].find? fun b => verified s 4 (if b then c.slotB else c.slotA)

/-- R531: the controllers whose images stage 2 verifies: all but the management controller's, and the per-core firmware's pair. -/
def stage2Ctls : List Nat := upTo 0 22 ++ [class5Ctl]

def imageVerified (s : State) (n : Nat) : Bool := verified s (if n = class5Ctl then 5 else ctlClass n) (s.ctl n).activeImage

def stagePasses (s : State) (ok : List Bool) (k : Nat) : Bool :=
  ok.getD k true && (k != 0 || (romSlot s).isSome) && (k != 2 || stage2Ctls.all (imageVerified s)) &&
    (k != 3 || (upTo 0 16).all (stackTrains ok))

/-- R531: the slot that the boot ROM takes is the active one. -/
def takeRomSlot (s : State) : State :=
  match romSlot s with
  | some b => s.setCtl 22 { s.ctl 22 with activeB := b }
  | none => s

/-- R533: the REASON of a failure at a stage; one at stage 2 is of either kind. -/
def failReason (k : Nat) (free : Word) : Nat :=
  match k with
  | 0 => 1 | 1 => 2 | 2 => if bit free 0 then 1 else 2 | _ => k

/-- R531: an attempt fails at stage `k`: the module resets, and the count, of at most 3, rises. -/
def failBoot (s : State) (k : Nat) : State :=
  let (v, s1) := s.drawFree
  let s2 := moduleReset s1 (failReason k v)
  { s2 with boot := { s2.boot with attempts := min 3 (s.boot.attempts + 1), lastStage := k } }

def startImage (s : State) (n : Nat) : State := startCtl s n (s.ctl n).activeImage

/-- The channels of stacks are trained and ONLINE. -/
def trainStacks (s : State) (ks : List Nat) : State :=
  ks.foldl (fun s k => (upTo (32 * k) 32).foldl (fun s c => s.setChan c { s.chan c with online := true, trained := true }) s) s

/-- R521: the alias key is derived from the measured management controller image. -/
def measure (s : State) : List Byte := ((s.ctl 22).activeImage.map (·.digest)).getD []

/-- R531: every core's firmware context starts, and every core passes its first scan. -/
def startCores (s : State) : State :=
  (upTo 0 1536).foldl (fun s c => startFw (s.modCore c ({ · with passAt := some s.tick })) c (s.ctl class5Ctl).activeImage) s

/-- R531: the ports that are not spare train with every lane (log 57). -/
def trainPorts (s : State) : State :=
  (upTo 0 128).foldl (fun s n =>
    if (s.port n).role = 3 then s
    else s.modPort n fun p => { p with active := 0xFFFF, rxActive := 0xFFFF, trained := 0xFFFF, rxTrained := 0xFFFF }) s

/-- R431, R531: the escape tree is in the active bank of every routing entry; which tree it is, the modules that can be reached decide
(log 112). -/
def installTree (s : State) : State :=
  let entry (n : Nat) : Word := BitVec.ofNat 64 (Config.escTree n % 256 * 2 ^ (if s.fab.escActive then 40 else 32))
  { s with fab := { s.fab with
      grt := (upTo 0 1024).map fun g => (g, entry g)
      lrt := (upTo 0 256).map fun k => (k, entry (1024 + k))
      routeWrites := s.fab.routeWrites + 1280 } }

/-- R531: every stage passes. -/
def fullBoot (s0 : State) : State :=
  let s := takeRomSlot s0
  let s1 := (upTo 0 23).foldl startImage s
  let s2 := installTree <| trainPorts (startCores (trainStacks s1 (upTo 0 16)))
  { s2 with boot := { s2.boot with attempts := 0, stage := 6, ready := true, measured := measure s } }

/-- R532: minimal mode: the management controller, command processor 0 and the lowest-numbered stack that trains. -/
def minimalBoot (s0 : State) (ok : List Bool) : State :=
  let s := takeRomSlot s0
  let k := (upTo 0 16).find? (stackTrains ok)
  let s1 := (if imageVerified s 0 then [0, 22] else [22]).foldl startImage s
  let s2 := match k with | some k => trainStacks s1 [k] | none => s1
  { s2 with boot := { s2.boot with stage := 1, minimal := true, stack := k.getD 15, measured := measure s } }

/-- R531, R532: BOOT: one attempt of a module that has not booted, which power has come back to. -/
def execBoot (ok : List Bool) (s : State) : Host.Outcome State Fault Refusal :=
  let s1 := { s with powered := true }
  if s.boot.ready ∨ s.boot.minimal then .next s
  else if 3 ≤ s.boot.attempts then
    .next (match (upTo 0 2).find? (!stagePasses s ok ·) with | some k => failBoot s1 k | none => minimalBoot s1 ok)
  else .next (match (upTo 0 6).find? (!stagePasses s ok ·) with | some k => failBoot s1 k | none => fullBoot s1)

/-! ## BOOT.CTL and BOOT.STATUS (R533) -/

def bootCtlOff : Nat := 0x190028

def clearAttempts (s : State) : State := { s with boot := { s.boot with attempts := 0 } }

/-- R533: BOOT.CTL.CLEAR. -/
def execClear (m : Master) (s : State) : Host.Outcome State Fault Refusal :=
  if !barWritable s m bootCtlOff then .next s
  else if mgmtWaits s m then .next s.stall
  else .next (clearAttempts s)

/-- R533: BOOT.CTL.RETRY. -/
def execRetry (m : Master) (s : State) : Host.Outcome State Fault Refusal :=
  if !barWritable s m bootCtlOff then .next s
  else if mgmtWaits s m then .next s.stall
  else .next (moduleReset (clearAttempts s) 7)

/-- R543: a write over I3C: BOOT.CTL alone. -/
def i3cWrite (s : State) (off : Nat) (d : Word) : State :=
  if off ≠ bootCtlOff then s
  else if bit d 0 then moduleReset (clearAttempts s) 7
  else if bit d 1 then clearAttempts s
  else s

/-- R533: BOOT.STATUS. -/
def bootStatus (s : State) : Word :=
  let b := s.boot
  BitVec.ofNat 64 (b.attempts * 2 ^ 56 + b.reason * 2 ^ 48 + b.stack * 2 ^ 44 + b.lastStage * 2 ^ 40 + b2n b.minimal * 2 + b2n b.ready)

/-! ## SPDM (R521, R543) -/

/-- The management controller answers once it has started (R531); through its own switch requests wait (R527). -/
def spdmAnswer (s : State) (a : SpdmAns) : Host.Outcome State Fault Refusal :=
  if classPaused s 4 then .next s.stall
  else if s.powered ∧ 1 ≤ s.boot.stage then .next { s with outbox := s.outbox ++ [.spdm a] } else .next s

def execGetVersion (_req : SpdmReq) (s : State) : Host.Outcome State Fault Refusal := spdmAnswer s (.version 1 3)

/-- R521: certificates, CHALLENGE and measurements; neither KEY_EXCHANGE nor secured sessions. -/
def execGetCapabilities (_req : SpdmReq) (s : State) : Host.Outcome State Fault Refusal :=
  spdmAnswer s (.capabilities true true true false false)

def execNegotiateAlgorithms (_req : SpdmReq) (s : State) : Host.Outcome State Fault Refusal :=
  spdmAnswer s (.algorithms "Ed25519" "SHA-512")

def chainOf (s : State) : List Byte := Config.certChain s.boot.measured

/-- R521: slot 0 alone holds a chain. -/
def execGetDigests (_req : SpdmReq) (s : State) : Host.Outcome State Fault Refusal := spdmAnswer s (.digests 0 (sha512 (chainOf s)))

def execGetCertificate (req : SpdmReq) (s : State) : Host.Outcome State Fault Refusal :=
  let chain := chainOf s
  let part := (chain.drop req.offset).take req.length
  if req.slot ≠ 0 ∨ chain.length < req.offset then spdmAnswer s .error
  else spdmAnswer s (.certificate 0 part (chain.length - req.offset - part.length))

/-- The answer to a request that is signed: over what was asked, the requester's nonce, the responder's (free) and the body. -/
def signed (s : State) (req : SpdmReq) (code : Nat) (body : List Byte) : State × Word × List Byte :=
  let (v, s1) := s.drawFree
  (s1, v, Config.aliasSign s.boot.measured (natBytes 1 code ++ natBytes 32 req.nonce.toNat ++ natBytes 8 v.toNat ++ body))

/-- R521: CHALLENGE (SPDM request 0x83). -/
def execChallenge (req : SpdmReq) (s : State) : Host.Outcome State Fault Refusal :=
  if req.slot ≠ 0 then spdmAnswer s .error
  else
    let (s1, nonce, sig) := signed s req 0x83 (sha512 (chainOf s))
    spdmAnswer s1 (.challengeAuth 0 nonce sig)

/-- R521: the measurement of index i + 1: the digest of the active image of class i; for class 5, that of the staged one once every core
has switched to it. -/
def measurement (s : State) (i : Nat) : List Byte :=
  let im (c : Ctl) : Option Image := if i = 5 ∧ s.upd.allIn then c.stagedImage else c.activeImage
  (((imageCtls i 0).head?.bind fun n => im (s.ctl n)).map (·.digest)).getD []

/-- R521: GET_MEASUREMENTS (SPDM request 0xE0): the offset gives the index, 0 for their count, 0xFF for all. -/
def execGetMeasurements (req : SpdmReq) (s : State) : Host.Outcome State Fault Refusal :=
  let all := (upTo 0 6).map fun i => (i + 1, measurement s i)
  let list := if req.offset = 0 then [] else if req.offset = 0xFF then all else all.filter fun e => e.1 == req.offset
  if req.slot ≠ 0 ∨ (6 < req.offset ∧ req.offset ≠ 0xFF) then spdmAnswer s .error
  else
    let (s1, nonce, sig) := signed s req 0xE0 ((list.map fun e => natBytes 1 e.1 ++ e.2).foldr (· ++ ·) [])
    spdmAnswer s1 (.measurements 6 list nonce sig)

end Sys2Proof.Machine
end

