-- ==== Sys2Proof/Machine/Edges.lean ====
section
/-!
DEFINITION. The module's edges (chapter 19): the BAR4 window (R536), MSI-X masks (R538), CXL links (R540), power and temperature
(R541, R542), and BAR0 (R544): the register writes that have no event of their own, and what every register reads as.
-/

namespace Sys2Proof.Machine

/-! ## BAR4 (R536) -/

/-- R536: the physical address of an offset of the window. -/
def bar4Addr (s : State) (off : Nat) : Nat := s.bar4map.toNat / 2 ^ s.bar4log2 * 2 ^ s.bar4log2 + off

/-- R536: the host sets the size of the window: 1 GiB to 2 TiB. -/
def resizeBar4 (s : State) (n : Nat) : State := if 30 ≤ n ∧ n ≤ 41 then { s with bar4log2 := n } else s

/-- R506, R537: the host may make an access of `n` bytes at a physical address under target 24. -/
def bar4Ok (s : State) (acc : Acc) (a n : Nat) : Bool :=
  (unitsOf 65536 a n).all fun u =>
    match physTarget s (65536 * u) with
    | some (_, _, only15) => !only15 && hedgeOk s 24 hostMaster acc (65536 * u)
    | none => false

def execBar4Access (off : Nat) (op : HostOp) (s : State) : Host.Outcome State Fault Refusal :=
  if bar0Only s ∨ 2 ^ s.bar4log2 < off + HostOp.len op then .next s
  else if bar4Ok s (HostOp.acc op) (bar4Addr s off) (HostOp.len op) then .next (hostAccess s (bar4Addr s off) op)
  else .next (hostDenied s op)

/-! ## MSI-X (R538) -/

/-- R538: the mask of a vector changes; a message that became pending is sent once, when its vector is unmasked. -/
def setMask (s : State) (vec : Nat) (masked : Bool) : State :=
  let v := sget s.msix {} vec
  let s1 := { s with msix := sput s.msix vec { v with masked := masked, pending := v.pending && masked } }
  if v.pending && !masked then { s1 with outbox := s1.outbox ++ [.msix vec] } else s1

def execMsixMaskWrite (m : Master) (vec : Nat) (masked : Bool) (s : State) : Host.Outcome State Fault Refusal :=
  if 2048 ≤ vec ∨ !barWritable s m (16 * vec + 8) then .next s
  else if mgmtWaits s m then .next s.stall
  else .next (setMask s vec masked)

/-! ## CXL links (R539, R540) -/

def State.modCxl (s : State) (p : Nat) (f : CxlPort → CxlPort) : State := { s with cxl := sput s.cxl p (f (sget s.cxl {} p)) }

/-- R540: what memory holds of writes that have performed stays on the device. -/
def execCxlLinkDown (p : Nat) (s : State) : Host.Outcome State Fault Refusal :=
  if p < 4 then .next (s.modCxl p ({ · with linkup := false })) else .next s

/-- R540: what the device of a port holds where write-backs were dropped while its link was down. -/
def deviceBytes (s : State) (p : Nat) : State :=
  let mine (u : Nat) : Bool := isCxl (32 * u) && (32 * u - 2 ^ 40) / 2 ^ 39 == p
  { (s.lost.filter fun e => mine e.1).foldl (fun s e => { s with mem := writeBytes s.mem (32 * e.1) (natBytes 32 e.2.toNat) }) s with
    lost := s.lost.filter fun e => !mine e.1 }

/-- R540: the port trains; its width, at most x16, is free (log 3), its device at most 512 GiB (R539). Minimal mode has no CXL
port (R532). -/
def execCxlLinkUp (p : Nat) (s : State) : Host.Outcome State Fault Refusal :=
  let (v, s1) := s.drawFree
  if p < 4 ∧ !s.boot.minimal then
    .next ((deviceBytes s1 p).modCxl p ({ · with linkup := true, width := 2 ^ bits v 0 2, size := min 512 (Config.cxlCapacity p) }))
  else .next s

/-! ## Power and temperature (R541, R542) -/

/-- Power goes: the next boot begins from a reset, and reports REASON 6. -/
def removePower (s : State) : State := { moduleReset s 6 with powered := false }

/-- R541: UNDERVOLTAGE. -/
def execUndervoltage (s : State) : Host.Outcome State Fault Refusal := .next (removePower s)

/-- R542: a die's junction temperature; admission is held while any die is at THROTTLE or above. -/
def setTemps (t : Therm) (l : List (Nat × Nat)) : Therm :=
  let temps := l.foldl (fun m e => sput m e.1 e.2) t.temps
  { t with temps := temps, held := temps.any fun e => decide (t.throttle ≤ e.2) }

/-- R542: THERMAL_THROTTLE. -/
def execThermalThrottle (die temp : Nat) (s : State) : Host.Outcome State Fault Refusal :=
  if die ≤ 8 ∧ s.therm.throttle ≤ temp then .next { s with therm := setTemps s.therm [(die, temp)] } else .next s

/-- R542: THROTTLE_RELEASE: every die's temperature is below THROTTLE. -/
def execThrottleRelease (temps : List Nat) (s : State) : Host.Outcome State Fault Refusal :=
  if temps.length = 9 ∧ temps.all (decide <| · < s.therm.throttle) then
    .next { s with therm := setTemps s.therm ((upTo 0 9).zip temps) }
  else .next s

/-- R542: OVERTEMPERATURE. -/
def execOvertemperature (die temp : Nat) (s : State) : Host.Outcome State Fault Refusal :=
  if die ≤ 8 ∧ 115 ≤ temp then .next (removePower { s with therm := setTemps s.therm [(die, temp)] }) else .next s

/-- R542: what the sensors of the nine dies and of the input show; a die at 115 °C has power removed. -/
def readSensors (s : State) (temps : List Nat) (inputv inputw : Nat) : State :=
  let t := setTemps s.therm ((upTo 0 9).zip temps)
  let s1 := { s with therm := { t with inputv := inputv % 65536, inputw := inputw % 65536 } }
  if (temps.take 9).any (decide <| 115 ≤ ·) then removePower s1 else s1

/-- R542: the highest temperature, and the lowest die that has it. -/
def hottest (t : Therm) : Nat × Nat :=
  (upTo 0 9).foldl (fun a d => if a.1 < sget t.temps 0 d then (sget t.temps 0 d, d) else a) (0, 0)

/-- R542: THERM. -/
def thermWord (t : Therm) : Word :=
  let (h, d) := hottest t
  BitVec.ofNat 64 (t.throttle * 2 ^ 48 + min h 255 * 2 ^ 40 + d * 2 ^ 36 + b2n t.held * 2 ^ 32 + t.inputv * 2 ^ 16 + t.inputw)

/-- R542: a write of THROTTLE, by class 15 alone. -/
def writeTherm (s : State) (m : Master) (d : Word) : State :=
  let n := bits d 48 8
  if m.toNat % 16 = 15 ∧ 80 ≤ n ∧ n ≤ 110 then { s with therm := setTemps { s.therm with throttle := n } [] } else s

/-! ## Register writes without an event of their own (R544) -/

/-- R538: the table entry of a vector: address, then data and mask. -/
def writeMsix (s : State) (off : Nat) (d : Word) : State :=
  let vec := off / 16
  if off % 16 = 0 then { s with msix := sput s.msix vec { sget s.msix {} vec with addr := d } }
  else setMask { s with msix := sput s.msix vec { sget s.msix {} vec with data := d.setWidth 32 } } vec (bit d 32)

/-- R37. -/
def writeQueueReg (s : State) (off : Nat) (d : Word) : State :=
  let q := s.qregs
  match off with
  | 0x00 => { s with qregs := { q with qtbase := keepFields d [(19, 45)] } }
  | 0x08 => if bits d 28 4 = 1 ∨ bits d 28 4 = 2 then s else rejectQ s
  | 0x10 => { s with qregs := { q with reject := q.reject && !bit d 1 } }
  | 0x18 => { s with qregs := { q with ringwin := keepFields d [(24, 40)] } }
  | _ => s

/-- R342: RANGE.n.BASE and LIMIT. -/
def writeRange (s : State) (off : Nat) (d : Word) : State :=
  let n := off / 32
  let r := sget s.ranges {} n
  let v := keepFields d [(16, 36)]
  match off % 32 with
  | 0 => { s with ranges := sput s.ranges n { r with base := v } }
  | 8 => { s with ranges := sput s.ranges n { r with limit := v } }
  | _ => s

/-- R492: CKPT.CTL. -/
def writeCkptCtl (s : State) (d : Word) : State :=
  s.modCkpt ({ · with rollvec := BitVec.ofNat 11 (bits d 48 11), rollen := bit d 47, defer := BitVec.ofNat 15 (bits d 32 15)
                      len := d.setWidth 8 })

/-- R423, R428: the fabric manager's registers, which only it and the management plane write. -/
def fabMaster (m : Master) : Bool := m.toNat % 16 == 5 || m.toNat % 16 == 15

/-- R423: the fields of a port's CFG that are stored. -/
def portCfgFields : List (Nat × Nat) := [(48, 16), (32, 8), (16, 4), (4, 4), (0, 2)]

/-- R411, R412, R423, R428: the fabric's registers; the fabric manager's wait through a class 1 switch (R523, R527). -/
def writeFabReg (s : State) (m : Master) (off : Nat) (d : Word) : State :=
  if routesFrozen s ∧ fabMaster m ∧ (off < 0x1000 ∨ 0x2000 ≤ off) then s.stall
  else if off < 0x800 then
    if off % 16 = 0 ∧ fabMaster m then s.modPort (off / 16) ({ · with cfg := keepFields d portCfgFields }) else s
  else if 0x1000 ≤ off ∧ off < 0x1100 then
    let n := (off - 0x1000) / 16
    let w := sget s.windows {} n
    if off % 16 = 0 then { s with windows := sput s.windows n { w with map := keepFields d [(63, 1), (40, 12), (0, 39)] } }
    else { s with windows := sput s.windows n (w.boundTo (keepFields d [(58, 6), (35, 13), (0, 32)])) }
  else if !fabMaster m then s
  else if 0x2000 ≤ off ∧ off < 0x4000 then
    { s with fab := { s.fab with routeWrites := s.fab.routeWrites + 1, grt := sput s.fab.grt ((off - 0x2000) / 8) (keepFields d [(0, 48)]) } }
  else if 0x4000 ≤ off ∧ off < 0x4800 then
    { s with fab := { s.fab with routeWrites := s.fab.routeWrites + 1, lrt := sput s.fab.lrt ((off - 0x4000) / 8) (keepFields d [(0, 48)]) } }
  else s

/-- The register of a BAR0 offset takes a value; one with an event of its own, and an offset not listed, changes nothing. -/
def writeBar0 (s : State) (m : Master) (off : Nat) (d : Word) : State :=
  if off % 8 ≠ 0 then s
  else if off < 0x8000 then writeMsix s off d
  else if 0x100000 ≤ off ∧ off < 0x101000 then writeQueueReg s (off - 0x100000) d
  else if off = 0x120000 then writeTqCfg s d
  else if off = 0x120008 then writeSpillbase s d
  else if off = 0x140000 then { s with ctxbase := keepFields d [(20, 32)] }
  else if 0x150000 ≤ off ∧ off < 0x150200 then writeRange s (off - 0x150000) d
  else if off = 0x170000 then writeCkptCtl s d
  else if off = 0x171010 then
    if hedgeMaster m then { s with hedge := { s.hedge with reject := s.hedge.reject && !bit d 1 } } else s
  else if 0x180000 ≤ off ∧ off < 0x185000 then writeFabReg s m (off - 0x180000) d
  else if off = 0x190000 then
    s.modUpd fun u => if u.busy then { u with result := 10 } else { u with image := keepFields d [(12, 40)] }
  else if off = updCmdOff then updReservedOp s d
  else if off = 0x1A0000 then { s with bar4map := keepFields d [(30, 22)] }
  else if off = 0x1A2000 then writeTherm s m d
  else s

/-- R544: REGISTER_WRITE, as the Hedge table grants it (R507); the management plane's waits through its switch (R523). -/
def execRegisterWrite (m : Master) (off : Nat) (d : Word) (s : State) : Host.Outcome State Fault Refusal :=
  if !barWritable s m off then .next s
  else if mgmtWaits s m then .next s.stall
  else .next (writeBar0 s m off d)

end Sys2Proof.Machine
end

