-- ==== Sys2Proof/Machine/Dispatch.lean ====
section
/-!
DEFINITION. One arm per instruction: a direct call of its meaning.
-/

namespace Sys2Proof.Machine

def exec (i : Instr) (s : State) : Host.Outcome State Fault Refusal :=
  match i with
  | .notify m q => Sys2Proof.Machine.execNotify m q s
  | .bar2RingAccess off op => Sys2Proof.Machine.execBar2RingAccess off op s
  | .entryFetch h => Sys2Proof.Machine.execEntryFetch h s
  | .fetchPoll h => Sys2Proof.Machine.execFetchPoll h s
  | .nopPacket h => Sys2Proof.Machine.execNopPacket h s
  | .launchPacket h => Sys2Proof.Machine.execLaunchPacket h s
  | .graphPacket h => Sys2Proof.Machine.execGraphPacket h s
  | .writePacket h => Sys2Proof.Machine.execWritePacket h s
  | .fillPacket h => Sys2Proof.Machine.execFillPacket h s
  | .copyPacket h => Sys2Proof.Machine.execCopyPacket h s
  | .signalPacket h => Sys2Proof.Machine.execSignalPacket h s
  | .waitPacket h => Sys2Proof.Machine.execWaitPacket h s
  | .waitRecheck h => Sys2Proof.Machine.execWaitRecheck h s
  | .waitTimeout h => Sys2Proof.Machine.execWaitTimeout h s
  | .fencePacket h => Sys2Proof.Machine.execFencePacket h s
  | .timestampPacket h => Sys2Proof.Machine.execTimestampPacket h s
  | .segadminNew h => Sys2Proof.Machine.execSegadminNew h s
  | .segadminEvict h => Sys2Proof.Machine.execSegadminEvict h s
  | .segadminDrop h => Sys2Proof.Machine.execSegadminDrop h s
  | .segadminQuery h => Sys2Proof.Machine.execSegadminQuery h s
  | .packetComplete h n => Sys2Proof.Machine.execPacketComplete h n s
  | .enable m q => Sys2Proof.Machine.execEnable m q s
  | .disable m q => Sys2Proof.Machine.execDisable m q s
  | .disableComplete => Sys2Proof.Machine.execDisableComplete s
  | .queueMap => Sys2Proof.Machine.execQueueMap s
  | .idleUnmap h => Sys2Proof.Machine.execIdleUnmap h s
  | .timesliceUnmap h => Sys2Proof.Machine.execTimesliceUnmap h s
  | .blockHeader r e t k l n => Sys2Proof.Machine.execBlockHeader r e t k l n s
  | .compactAddX0 a b => Sys2Proof.Machine.execCompactAddX0 a b s
  | .compactAdd a b => Sys2Proof.Machine.execCompactAdd a b s
  | .compactSub a b => Sys2Proof.Machine.execCompactSub a b s
  | .compactAnd a b => Sys2Proof.Machine.execCompactAnd a b s
  | .compactOr a b => Sys2Proof.Machine.execCompactOr a b s
  | .compactXor a b => Sys2Proof.Machine.execCompactXor a b s
  | .compactAddi a imm => Sys2Proof.Machine.execCompactAddi a imm s
  | .compactMovi a imm => Sys2Proof.Machine.execCompactMovi a imm s
  | .compactShli a n => Sys2Proof.Machine.execCompactShli a n s
  | .compactShri a n => Sys2Proof.Machine.execCompactShri a n s
  | .compactSari a n => Sys2Proof.Machine.execCompactSari a n s
  | .compactLdd a b => Sys2Proof.Machine.execCompactLdd a b s
  | .compactStd a b => Sys2Proof.Machine.execCompactStd a b s
  | .compactSaddi n imm => Sys2Proof.Machine.execCompactSaddi n imm s
  | .compactQput q b => Sys2Proof.Machine.execCompactQput q b s
  | .compactQget a q => Sys2Proof.Machine.execCompactQget a q s
  | .compactNop => Sys2Proof.Machine.execCompactNop s
  | .compactEnd => Sys2Proof.Machine.execCompactEnd s
  | .add h d a b => Sys2Proof.Machine.execAdd h d a b s
  | .sub h d a b => Sys2Proof.Machine.execSub h d a b s
  | .and h d a b => Sys2Proof.Machine.execAnd h d a b s
  | .or h d a b => Sys2Proof.Machine.execOr h d a b s
  | .xor h d a b => Sys2Proof.Machine.execXor h d a b s
  | .shl h d a b => Sys2Proof.Machine.execShl h d a b s
  | .shr h d a b => Sys2Proof.Machine.execShr h d a b s
  | .sar h d a b => Sys2Proof.Machine.execSar h d a b s
  | .min h d a b => Sys2Proof.Machine.execMin h d a b s
  | .max h d a b => Sys2Proof.Machine.execMax h d a b s
  | .umin h d a b => Sys2Proof.Machine.execUmin h d a b s
  | .umax h d a b => Sys2Proof.Machine.execUmax h d a b s
  | .mul h d a b => Sys2Proof.Machine.execMul h d a b s
  | .mulh h d a b => Sys2Proof.Machine.execMulh h d a b s
  | .umulh h d a b => Sys2Proof.Machine.execUmulh h d a b s
  | .div h d a b => Sys2Proof.Machine.execDiv h d a b s
  | .udiv h d a b => Sys2Proof.Machine.execUdiv h d a b s
  | .rem h d a b => Sys2Proof.Machine.execRem h d a b s
  | .urem h d a b => Sys2Proof.Machine.execUrem h d a b s
  | .clz h d a => Sys2Proof.Machine.execClz h d a s
  | .popc h d a => Sys2Proof.Machine.execPopc h d a s
  | .brev h d a => Sys2Proof.Machine.execBrev h d a s
  | .sextb h d a => Sys2Proof.Machine.execSextb h d a s
  | .sexth h d a => Sys2Proof.Machine.execSexth h d a s
  | .sextw h d a => Sys2Proof.Machine.execSextw h d a s
  | .zextw h d a => Sys2Proof.Machine.execZextw h d a s
  | .slt h d a b => Sys2Proof.Machine.execSlt h d a b s
  | .uslt h d a b => Sys2Proof.Machine.execUslt h d a b s
  | .addi h d a imm => Sys2Proof.Machine.execAddi h d a imm s
  | .andi h d a imm => Sys2Proof.Machine.execAndi h d a imm s
  | .ori h d a imm => Sys2Proof.Machine.execOri h d a imm s
  | .xori h d a imm => Sys2Proof.Machine.execXori h d a imm s
  | .shli h d a n => Sys2Proof.Machine.execShli h d a n s
  | .shri h d a n => Sys2Proof.Machine.execShri h d a n s
  | .sari h d a n => Sys2Proof.Machine.execSari h d a n s
  | .movi h d imm => Sys2Proof.Machine.execMovi h d imm s
  | .ldlit h d imm => Sys2Proof.Machine.execLdlit h d imm s
  | .setlc h a imm => Sys2Proof.Machine.execSetlc h a imm s
  | .cmp h p a b c k => Sys2Proof.Machine.execCmp h p a b c k s
  | .cmpi h p a imm c k => Sys2Proof.Machine.execCmpi h p a imm c k s
  | .br h o => Sys2Proof.Machine.execBr h o s
  | .call h o => Sys2Proof.Machine.execCall h o s
  | .jmp h a => Sys2Proof.Machine.execJmp h a s
  | .callr h a => Sys2Proof.Machine.execCallr h a s
  | .ret h => Sys2Proof.Machine.execRet h s
  | .pand h d a b => Sys2Proof.Machine.execPand h d a b s
  | .por h d a b => Sys2Proof.Machine.execPor h d a b s
  | .pxor h d a b => Sys2Proof.Machine.execPxor h d a b s
  | .pandn h d a b => Sys2Proof.Machine.execPandn h d a b s
  | .pnot h d a => Sys2Proof.Machine.execPnot h d a s
  | .pmov h d a => Sys2Proof.Machine.execPmov h d a s
  | .pbcast h d a => Sys2Proof.Machine.execPbcast h d a s
  | .pcnt h d a => Sys2Proof.Machine.execPcnt h d a s
  | .ldb h d a c o => Sys2Proof.Machine.execLdb h d a c o s
  | .ldh h d a c o => Sys2Proof.Machine.execLdh h d a c o s
  | .ldw h d a c o => Sys2Proof.Machine.execLdw h d a c o s
  | .ldd h d a c o => Sys2Proof.Machine.execLdd h d a c o s
  | .stb h d a c o => Sys2Proof.Machine.execStb h d a c o s
  | .sth h d a c o => Sys2Proof.Machine.execSth h d a c o s
  | .stw h d a c o => Sys2Proof.Machine.execStw h d a c o s
  | .std h d a c o => Sys2Proof.Machine.execStd h d a c o s
  | .amo h d a b f => Sys2Proof.Machine.execAmo h d a b f s
  | .amow h d a b f => Sys2Proof.Machine.execAmow h d a b f s
  | .amon h a b f => Sys2Proof.Machine.execAmon h a b f s
  | .cas h d a b => Sys2Proof.Machine.execCas h d a b s
  | .casw h d a b => Sys2Proof.Machine.execCasw h d a b s
  | .asc h d a b f => Sys2Proof.Machine.execAsc h d a b f s
  | .ascCas h d a b => Sys2Proof.Machine.execAscCas h d a b s
  | .fence h m e => Sys2Proof.Machine.execFence h m e s
  | .sadd h n a => Sys2Proof.Machine.execSadd h n a s
  | .saddi h n imm => Sys2Proof.Machine.execSaddi h n imm s
  | .swait h n a => Sys2Proof.Machine.execSwait h n a s
  | .sread h d n => Sys2Proof.Machine.execSread h d n s
  | .sset h n a => Sys2Proof.Machine.execSset h n a s
  | .qput h q a => Sys2Proof.Machine.execQput h q a s
  | .qget h d q => Sys2Proof.Machine.execQget h d q s
  | .qcount h d q => Sys2Proof.Machine.execQcount h d q s
  | .qflush h q => Sys2Proof.Machine.execQflush h q s
  | .brq h q o => Sys2Proof.Machine.execBrq h q o s
  | .csrr h d c => Sys2Proof.Machine.execCsrr h d c s
  | .csrw h a c => Sys2Proof.Machine.execCsrw h a c s
  | .csrwSet h a c => Sys2Proof.Machine.execCsrwSet h a c s
  | .csrwClr h a c => Sys2Proof.Machine.execCsrwClr h a c s
  | .nop h => Sys2Proof.Machine.execNop h s
  | .rdv h m => Sys2Proof.Machine.execRdv h m s
  | .sysEnd h => Sys2Proof.Machine.execSysEnd h s
  | .trap h c => Sys2Proof.Machine.execTrap h c s
  | .bkpt h => Sys2Proof.Machine.execBkpt h s
  | .lbar h k => Sys2Proof.Machine.execLbar h k s
  | .mwait h a => Sys2Proof.Machine.execMwait h a s
  | .mwaitTimeout slot st => Sys2Proof.Machine.execMwaitTimeout slot st s
  | .eret h => Sys2Proof.Machine.execEret h s
  | .wfe h => Sys2Proof.Machine.execWfe h s
  | .stopack h => Sys2Proof.Machine.execStopack h s
  | .taskadd h d a b => Sys2Proof.Machine.execTaskadd h d a b s
  | .taskjoin h d a b => Sys2Proof.Machine.execTaskjoin h d a b s
  | .taskget h d a b => Sys2Proof.Machine.execTaskget h d a b s
  | .taskgetTimeout slot => Sys2Proof.Machine.execTaskgetTimeout slot s
  | .cpyLin h d a b => Sys2Proof.Machine.execCpyLin h d a b s
  | .cpyShp h d a b => Sys2Proof.Machine.execCpyShp h d a b s
  | .cpySlot h d a b => Sys2Proof.Machine.execCpySlot h d a b s
  | .cpyFill h d a b => Sys2Proof.Machine.execCpyFill h d a b s
  | .cpyCirc h d a b => Sys2Proof.Machine.execCpyCirc h d a b s
  | .gath h d a b => Sys2Proof.Machine.execGath h d a b s
  | .scat h d a b => Sys2Proof.Machine.execScat h d a b s
  | .racq h d n r => Sys2Proof.Machine.execRacq h d n r s
  | .rrel h n r => Sys2Proof.Machine.execRrel h n r s
  | .rcan h n r => Sys2Proof.Machine.execRcan h n r s
  | .rstat h d n => Sys2Proof.Machine.execRstat h d n s
  | .fempty h a b => Sys2Proof.Machine.execFempty h a b s
  | .ftest h d a => Sys2Proof.Machine.execFtest h d a s
  | .fput h d a b => Sys2Proof.Machine.execFput h d a b s
  | .fget h d a b => Sys2Proof.Machine.execFget h d a b s
  | .fred h d a b f => Sys2Proof.Machine.execFred h d a b f s
  | .fll h d a => Sys2Proof.Machine.execFll h d a s
  | .fsc h d a b => Sys2Proof.Machine.execFsc h d a b s
  | .fsig h d a b => Sys2Proof.Machine.execFsig h d a b s
  | .fcoll h d a b => Sys2Proof.Machine.execFcoll h d a b s
  | .segnew h d a b => Sys2Proof.Machine.execSegnew h d a b s
  | .segatt h d a l w => Sys2Proof.Machine.execSegatt h d a l w s
  | .segdet h d a => Sys2Proof.Machine.execSegdet h d a s
  | .segevict h d a => Sys2Proof.Machine.execSegevict h d a s
  | .segdrop h d a => Sys2Proof.Machine.execSegdrop h d a s
  | .segqry h d a => Sys2Proof.Machine.execSegqry h d a s
  | .cflush h d a b => Sys2Proof.Machine.execCflush h d a b s
  | .cinv h d a b => Sys2Proof.Machine.execCinv h d a b s
  | .cclean h d a b => Sys2Proof.Machine.execCclean h d a b s
  | .cpref h d a b => Sys2Proof.Machine.execCpref h d a b s
  | .vadd h d a b m => Sys2Proof.Machine.execVadd h d a b m s
  | .vsub h d a b m => Sys2Proof.Machine.execVsub h d a b m s
  | .vmul h d a b m => Sys2Proof.Machine.execVmul h d a b m s
  | .vfma h d a b m => Sys2Proof.Machine.execVfma h d a b m s
  | .vfms h d a b m => Sys2Proof.Machine.execVfms h d a b m s
  | .vfnma h d a b m => Sys2Proof.Machine.execVfnma h d a b m s
  | .vmax h d a b m => Sys2Proof.Machine.execVmax h d a b m s
  | .vmin h d a b m => Sys2Proof.Machine.execVmin h d a b m s
  | .vabs h d a => Sys2Proof.Machine.execVabs h d a s
  | .vneg h d a => Sys2Proof.Machine.execVneg h d a s
  | .vrcpe h d a => Sys2Proof.Machine.execVrcpe h d a s
  | .vrsqe h d a => Sys2Proof.Machine.execVrsqe h d a s
  | .vfloor h d a => Sys2Proof.Machine.execVfloor h d a s
  | .vrnd h d a => Sys2Proof.Machine.execVrnd h d a s
  | .vscale h d a b m => Sys2Proof.Machine.execVscale h d a b m s
  | .viadd h d a b m => Sys2Proof.Machine.execViadd h d a b m s
  | .visub h d a b m => Sys2Proof.Machine.execVisub h d a b m s
  | .vimul h d a b m => Sys2Proof.Machine.execVimul h d a b m s
  | .vand h d a b m => Sys2Proof.Machine.execVand h d a b m s
  | .vor h d a b m => Sys2Proof.Machine.execVor h d a b m s
  | .vxor h d a b m => Sys2Proof.Machine.execVxor h d a b m s
  | .vshl h d a b m => Sys2Proof.Machine.execVshl h d a b m s
  | .vsar h d a b m => Sys2Proof.Machine.execVsar h d a b m s
  | .vmov h d b m => Sys2Proof.Machine.execVmov h d b m s
  | .vsel h d a b m => Sys2Proof.Machine.execVsel h d a b m s
  | .vclamp h d a b m => Sys2Proof.Machine.execVclamp h d a b m s
  | .vshr h d a b m => Sys2Proof.Machine.execVshr h d a b m s
  | .vcvt h d a t c r => Sys2Proof.Machine.execVcvt h d a t c r s
  | .vcmp h p a b c k => Sys2Proof.Machine.execVcmp h p a b c k s
  | .vradd h d a => Sys2Proof.Machine.execVradd h d a s
  | .vrmax h d a => Sys2Proof.Machine.execVrmax h d a s
  | .vrmin h d a => Sys2Proof.Machine.execVrmin h d a s
  | .vraddx h d a => Sys2Proof.Machine.execVraddx h d a s
  | .vperm h d a b m => Sys2Proof.Machine.execVperm h d a b m s
  | .vrot h d a b m => Sys2Proof.Machine.execVrot h d a b m s
  | .vshft h d a b m => Sys2Proof.Machine.execVshft h d a b m s
  | .vdup h d a b m => Sys2Proof.Machine.execVdup h d a b m s
  | .vbc h d a => Sys2Proof.Machine.execVbc h d a s
  | .vext h d a b => Sys2Proof.Machine.execVext h d a b s
  | .vld h d a c o => Sys2Proof.Machine.execVld h d a c o s
  | .vst h d a c o => Sys2Proof.Machine.execVst h d a c o s
  | .vldl h d a o => Sys2Proof.Machine.execVldl h d a o s
  | .vstl h d a o => Sys2Proof.Machine.execVstl h d a o s
  | .vcord h d a n f => Sys2Proof.Machine.execVcord h d a n f s
  | .vwin h t u k => Sys2Proof.Machine.execVwin h t u k s
  | .pgo h p => Sys2Proof.Machine.execPgo h p s
  | .pstop h p => Sys2Proof.Machine.execPstop h p s
  | .vstp h d p => Sys2Proof.Machine.execVstp h d p s
  | .vstat h d a => Sys2Proof.Machine.execVstat h d a s
  | .portPrefetch slot port => Sys2Proof.Machine.execPortPrefetch slot port s
  | .mcfg h c a => Sys2Proof.Machine.execMcfg h c a s
  | .mma h => Sys2Proof.Machine.execMma h s
  | .mmac h => Sys2Proof.Machine.execMmac h s
  | .trn h d t => Sys2Proof.Machine.execTrn h d t s
  | .prm h d t => Sys2Proof.Machine.execPrm h d t s
  | .rred h d t => Sys2Proof.Machine.execRred h d t s
  | .zero h m => Sys2Proof.Machine.execZero h m s
  | .mclaim h n => Sys2Proof.Machine.execMclaim h n s
  | .mrel h n => Sys2Proof.Machine.execMrel h n s
  | .mwaitn h a => Sys2Proof.Machine.execMwaitn h a s
  | .mpri h a => Sys2Proof.Machine.execMpri h a s
  | .mfmt h e a => Sys2Proof.Machine.execMfmt h e a s
  | .mret h t => Sys2Proof.Machine.execMret h t s
  | .mstat h c d => Sys2Proof.Machine.execMstat h c d s
  | .nestStart core => Sys2Proof.Machine.execNestStart core s
  | .kstep core => Sys2Proof.Machine.execKstep core s
  | .retirementComplete core => Sys2Proof.Machine.execRetirementComplete core s
  | .tileOpComplete core => Sys2Proof.Machine.execTileOpComplete core s
  | .nestEntryComplete slot => Sys2Proof.Machine.execNestEntryComplete slot s
  | .streamAgeTick => Sys2Proof.Machine.execStreamAgeTick s
  | .nestAgeTick => Sys2Proof.Machine.execNestAgeTick s
  | .recordAgeTick => Sys2Proof.Machine.execRecordAgeTick s
  | .packetAgeTick => Sys2Proof.Machine.execPacketAgeTick s
  | .commandStart slot fq => Sys2Proof.Machine.execCommandStart slot fq s
  | .commandUnitLand slot fq idx unit => Sys2Proof.Machine.execCommandUnitLand slot fq idx unit s
  | .commandComplete slot fq idx => Sys2Proof.Machine.execCommandComplete slot fq idx s
  | .circuitSlot cluster => Sys2Proof.Machine.execCircuitSlot cluster s
  | .reservationExpire => Sys2Proof.Machine.execReservationExpire s
  | .fabricTimeout tag => Sys2Proof.Machine.execFabricTimeout tag s
  | .graphTableLoad g => Sys2Proof.Machine.execGraphTableLoad g s
  | .completionProcessing imm => Sys2Proof.Machine.execCompletionProcessing imm s
  | .loopEvaluate g node => Sys2Proof.Machine.execLoopEvaluate g node s
  | .endNode g node => Sys2Proof.Machine.execEndNode g node s
  | .launchAdmission => Sys2Proof.Machine.execLaunchAdmission s
  | .coresidentReserve launch slot => Sys2Proof.Machine.execCoresidentReserve launch slot s
  | .cowaitTimeout launch => Sys2Proof.Machine.execCowaitTimeout launch s
  | .hierarchyExpansion launch => Sys2Proof.Machine.execHierarchyExpansion launch s
  | .recordReady record => Sys2Proof.Machine.execRecordReady record s
  | .taskPop slot pick => Sys2Proof.Machine.execTaskPop slot pick s
  | .jobStart slot => Sys2Proof.Machine.execJobStart slot s
  | .jobEnd slot => Sys2Proof.Machine.execJobEnd slot s
  | .spillRefill bank => Sys2Proof.Machine.execSpillRefill bank s
  | .preemptionRequest id victim => Sys2Proof.Machine.execPreemptionRequest id victim s
  | .affinityRelax record => Sys2Proof.Machine.execAffinityRelax record s
  | .tqReprio m d => Sys2Proof.Machine.execTqReprio m d s
  | .clusterShareWrite m cluster d => Sys2Proof.Machine.execClusterShareWrite m cluster d s
  | .tlbinv m d => Sys2Proof.Machine.execTlbinv m d s
  | .tlbinvComplete => Sys2Proof.Machine.execTlbinvComplete s
  | .rangeCtlWrite m range d => Sys2Proof.Machine.execRangeCtlWrite m range d s
  | .govLimitsWrite m d => Sys2Proof.Machine.execGovLimitsWrite m d s
  | .ballastStep => Sys2Proof.Machine.execBallastStep s
  | .tarnFillComplete ctx name => Sys2Proof.Machine.execTarnFillComplete ctx name s
  | .tarnWritebackComplete ctx name => Sys2Proof.Machine.execTarnWritebackComplete ctx name s
  | .tarnMigration ctx name => Sys2Proof.Machine.execTarnMigration ctx name s
  | .dataFlit port flit => Sys2Proof.Machine.execDataFlit port flit s
  | .creditFlit port flit => Sys2Proof.Machine.execCreditFlit port flit s
  | .nackFlit port flit => Sys2Proof.Machine.execNackFlit port flit s
  | .shedreqFlit port flit => Sys2Proof.Machine.execShedreqFlit port flit s
  | .restripeFlit port flit => Sys2Proof.Machine.execRestripeFlit port flit s
  | .abortFlit port flit => Sys2Proof.Machine.execAbortFlit port flit s
  | .uncorrectableCodeword port lane => Sys2Proof.Machine.execUncorrectableCodeword port lane s
  | .shedWindowEnd port => Sys2Proof.Machine.execShedWindowEnd port s
  | .linkDown port dir => Sys2Proof.Machine.execLinkDown port dir s
  | .routeSelect port vc => Sys2Proof.Machine.execRouteSelect port vc s
  | .escapeEntry port vc => Sys2Proof.Machine.execEscapeEntry port vc s
  | .egressSend port => Sys2Proof.Machine.execEgressSend port s
  | .escctlFlip m d => Sys2Proof.Machine.execEscctlFlip m d s
  | .put => Sys2Proof.Machine.execPut s
  | .getreq => Sys2Proof.Machine.execGetreq s
  | .getdata => Sys2Proof.Machine.execGetdata s
  | .sig => Sys2Proof.Machine.execSig s
  | .fllRequest => Sys2Proof.Machine.execFllRequest s
  | .fscRequest => Sys2Proof.Machine.execFscRequest s
  | .ack => Sys2Proof.Machine.execAck s
  | .install m addr => Sys2Proof.Machine.execInstall m addr s
  | .remove m addr => Sys2Proof.Machine.execRemove m addr s
  | .removeComplete => Sys2Proof.Machine.execRemoveComplete s
  | .collectiveStart slot => Sys2Proof.Machine.execCollectiveStart slot s
  | .bucketSend group inst => Sys2Proof.Machine.execBucketSend group inst s
  | .red => Sys2Proof.Machine.execRed s
  | .bucketTimeout node key => Sys2Proof.Machine.execBucketTimeout node key s
  | .collResult => Sys2Proof.Machine.execCollResult s
  | .collIncomplete => Sys2Proof.Machine.execCollIncomplete s
  | .collError => Sys2Proof.Machine.execCollError s
  | .noResultTimeout group inst => Sys2Proof.Machine.execNoResultTimeout group inst s
  | .stop core => Sys2Proof.Machine.execStop core s
  | .resume core => Sys2Proof.Machine.execResume core s
  | .kill core => Sys2Proof.Machine.execKill core s
  | .report core => Sys2Proof.Machine.execReport core s
  | .fwCommandComplete core => Sys2Proof.Machine.execFwCommandComplete core s
  | .fwSelWrite core d => Sys2Proof.Machine.execFwSelWrite core d s
  | .fwJcsrWrite core d => Sys2Proof.Machine.execFwJcsrWrite core d s
  | .fwTick => Sys2Proof.Machine.execFwTick s
  | .wdageExpire slot st => Sys2Proof.Machine.execWdageExpire slot st s
  | .jobTrap slot => Sys2Proof.Machine.execJobTrap slot s
  | .fwContextRestart core => Sys2Proof.Machine.execFwContextRestart core s
  | .scanDrain core => Sys2Proof.Machine.execScanDrain core s
  | .coppiceScan core => Sys2Proof.Machine.execCoppiceScan core s
  | .scanDeferTimeout core => Sys2Proof.Machine.execScanDeferTimeout core s
  | .scanEnd core pass => Sys2Proof.Machine.execScanEnd core pass s
  | .checkpointClose => Sys2Proof.Machine.execCheckpointClose s
  | .closeComplete => Sys2Proof.Machine.execCloseComplete s
  | .rollback => Sys2Proof.Machine.execRollback s
  | .sliceSpare slice => Sys2Proof.Machine.execSliceSpare slice s
  | .laserSpare bank => Sys2Proof.Machine.execLaserSpare bank s
  | .hedgeSelWrite m d => Sys2Proof.Machine.execHedgeSelWrite m d s
  | .hedgeDataWrite m d => Sys2Proof.Machine.execHedgeDataWrite m d s
  | .hedgeApply => Sys2Proof.Machine.execHedgeApply s
  | .patternTest m stack ch d => Sys2Proof.Machine.execPatternTest m stack ch d s
  | .patternTestComplete stack ch pass errs => Sys2Proof.Machine.execPatternTestComplete stack ch pass errs s
  | .rdallWrite m stack ch d => Sys2Proof.Machine.execRdallWrite m stack ch d s
  | .wdallWrite m stack ch d => Sys2Proof.Machine.execWdallWrite m stack ch d s
  | .repairWrite m stack ch d => Sys2Proof.Machine.execRepairWrite m stack ch d s
  | .chmodeWrite m stack ch d => Sys2Proof.Machine.execChmodeWrite m stack ch d s
  | .channelOffline stack ch => Sys2Proof.Machine.execChannelOffline stack ch s
  | .stage m d => Sys2Proof.Machine.execStage m d s
  | .stageComplete => Sys2Proof.Machine.execStageComplete s
  | .activate m d => Sys2Proof.Machine.execActivate m d s
  | .abort m d => Sys2Proof.Machine.execAbort m d s
  | .svncommit m d => Sys2Proof.Machine.execSvncommit m d s
  | .ready ctl => Sys2Proof.Machine.execReady ctl s
  | .handed ctl => Sys2Proof.Machine.execHanded ctl s
  | .healthy ctl => Sys2Proof.Machine.execHealthy ctl s
  | .updateDeadline => Sys2Proof.Machine.execUpdateDeadline s
  | .switchWindowExpire => Sys2Proof.Machine.execSwitchWindowExpire s
  | .coreFirmwareSwitch core => Sys2Proof.Machine.execCoreFirmwareSwitch core s
  | .fwHealth core d => Sys2Proof.Machine.execFwHealth core d s
  | .boot ok => Sys2Proof.Machine.execBoot ok s
  | .clear m => Sys2Proof.Machine.execClear m s
  | .retry m => Sys2Proof.Machine.execRetry m s
  | .getVersion req => Sys2Proof.Machine.execGetVersion req s
  | .getCapabilities req => Sys2Proof.Machine.execGetCapabilities req s
  | .negotiateAlgorithms req => Sys2Proof.Machine.execNegotiateAlgorithms req s
  | .getDigests req => Sys2Proof.Machine.execGetDigests req s
  | .getCertificate req => Sys2Proof.Machine.execGetCertificate req s
  | .challenge req => Sys2Proof.Machine.execChallenge req s
  | .getMeasurements req => Sys2Proof.Machine.execGetMeasurements req s
  | .perst => Sys2Proof.Machine.execPerst s
  | .bar4Access off op => Sys2Proof.Machine.execBar4Access off op s
  | .msixMaskWrite m vec masked => Sys2Proof.Machine.execMsixMaskWrite m vec masked s
  | .cxlLinkDown p => Sys2Proof.Machine.execCxlLinkDown p s
  | .cxlLinkUp p => Sys2Proof.Machine.execCxlLinkUp p s
  | .undervoltage => Sys2Proof.Machine.execUndervoltage s
  | .thermalThrottle die temp => Sys2Proof.Machine.execThermalThrottle die temp s
  | .overtemperature die temp => Sys2Proof.Machine.execOvertemperature die temp s
  | .registerWrite m off d => Sys2Proof.Machine.execRegisterWrite m off d s
  | .throttleRelease temps => Sys2Proof.Machine.execThrottleRelease temps s
  | .laneRetrain port lane => Sys2Proof.Machine.execLaneRetrain port lane s
  | .controllerRestart n => Sys2Proof.Machine.execControllerRestart n s

end Sys2Proof.Machine
end

