-- ==== Sys2Proof/Machine/Issue.lean ====
section
/-!
DEFINITION. Issuing a stream's next bundle (R53, R60, R69, R157), and the choice between the two job slots of a core (R320).
-/

namespace Sys2Proof.Machine

/-! ## Issuing (R53, R60, R69, R157) -/

/-- The outcome marker cleared, for the next word of the bundle or the next bundle. -/
def begun (s : State) (g : Agent) (v : Option View) : State := { s with issue := { agent := g, view := v } }

/-- The words of a bundle, one after another, up to one that faults, waits or ends in bad data. -/
def runWords (s : State) : List BWord → Host.Outcome State Fault Refusal
  | [] => .next s
  | w :: ws =>
    match exec w.instr s with
    | .next s1 =>
      (match s1.issue.outcome with
       | .faulted _ => .next s1
       | .waiting => .next s1
       | .poisoned => .next s1
       | _ => runWords s1 ws)
    | o => o

/-- The word of a bundle that waits. -/
def heldWord (s : State) : List BWord → Option BWord
  | [] => none
  | w :: ws =>
    match exec w.instr s with
    | .next s1 => if s1.issue.outcome = .waiting then some w else heldWord s1 ws
    | _ => none

/-- A bundle of several words waits: the state before it stands, with the waiting word's hold and what that word has
begun; `s1` is the state in which it was found waiting. -/
def holdWords (s s1 : State) (ws : List BWord) : State :=
  let plain := { s with issue := { s.issue with outcome := .waiting } }.modMyStream ({ · with wait := s1.myStream.wait })
  match heldWord s ws with
  | none => plain
  | some w =>
    match exec w.instr s with
    | .next s2 => if s2.issue.outcome = .waiting then s2 else plain
    | _ => plain

/-- R356: FLL and FSC, whose request goes out once the words before them have performed. -/
def isRemote : Instr → Bool
  | .fll .. => true
  | .fsc .. => true
  | _ => false

/-- R356: a bundle whose FLL or FSC waits for its answer after another word: that word has performed, and the request is out. -/
def partBundle (s : State) (w r : BWord) : Option State :=
  if !isRemote r.instr then none
  else match exec w.instr s with
    | .next s1 =>
      (if s1.issue.outcome ≠ .issued then none
       else match exec r.instr s1 with
         | .next s2 =>
           (match s2.issue.outcome, s.issue.view with
            | .waiting, some v => some { s2 with begun := ⟨s.issue.agent, v⟩ :: s2.begun }
            | _, _ => none)
         | _ => none)
    | _ => none

/-- R356: what the rest of a parted bundle comes to: once it has ended, the mark is gone; one that faults leaves the registers as the
bundle found them (R69), and what other agents may have seen (log 169). -/
def restBundle (s : State) (v : View) (r : BWord) : Host.Outcome State Fault Refusal :=
  let g := s.issue.agent
  let clear (s : State) : State := { s with begun := s.begun.filter (·.agent != g) }
  let back (s : State) : State := { (clear s).setStream g (v.slot.stream g.st) with issue := { s.issue with view := none } }
  match exec r.instr { s with issue := { s.issue with view := some v } } with
  | .next s1 =>
    (match s1.issue.outcome with
     | .waiting => .next s1
     | .faulted t => .next (takeFault (back s) t)
     | .poisoned => .next (consumePoison (back s))
     | _ => .next (clear s1))
  | o => o

/-- R60, R69: the bundle as a whole. Where one of several words faults, waits or ends in bad data, the state before the
bundle stands, with that alone added, but where an FLL or FSC waits for its answer. -/
def runBundle (s : State) (ws : List BWord) : Host.Outcome State Fault Refusal :=
  match ws with
  | [w] => exec w.instr s
  | _ =>
    match s.begun.find? (·.agent == s.issue.agent), ws.getLast? with
    | some b, some r => restBundle s b.view r
    | _, _ =>
    match runWords s ws with
    | .next s1 =>
      (match s1.issue.outcome with
       | .faulted t => .next (takeFault { s with issue := { s.issue with view := none } } t)
       | .poisoned => .next (consumePoison { s with issue := { s.issue with view := none } })
       | .waiting => .next (match ws with
         | [w, r] => (partBundle s w r).getD (holdWords s s1 ws)
         | _ => holdWords s s1 ws)
       | _ => .next s1)
    | o => o

/-- R395: a stream of a core has issued a bundle. -/
def noteIssue (s : State) (g : Agent) : State :=
  if isCtl g.slot then s
  else noteAct s (slotCore g.slot) (if isFw g.slot then 0 else match g.st with | .a => 0 | .m => 1 | .v => 2)

/-- R54, R55, R321, R395: the bundle has issued. -/
def finishBundle (s : State) (used : Nat) : State :=
  let s1 := (countPending s).modMyStream fun t =>
    { t with cmdidx := t.cmdidx + 1, age := 0, readyFor := 0, wait := none }.pastBundle used
  noteIssue { s1 with issue := { s1.issue with view := none } } s1.issue.agent

/-- The bundle's outcome settles: it has issued, or it has not. -/
def settle (used : Nat) : Host.Outcome State Fault Refusal → Host.Outcome State Fault Refusal
  | .next s =>
    (match s.issue.outcome with
     | .issued => .next (finishBundle s used)
     | .branched => .next (finishBundle s used)
     | .ended => .next (drainPending (finishBundle s used))
     | _ => .next { s with issue := { s.issue with view := none } })
  | o => o

/-- R60: what the words of a bundle of several read. -/
def viewOf (s : State) (g : Agent) (ws : List BWord) : Option View :=
  match ws with
  | [_] => none
  | _ =>
    let c := s.core (slotCore g.slot)
    let t := s.slot g.slot
    some { slot := t, tiles := c.tiles, ttype := c.ttype, mem := s.mem, poison := s.poison, badLines := s.badLines, empty := c.empty, ports := t.ports }

/-- A stream in a block: its next bundle. -/
def issueBundle (s : State) (g : Agent) (b : Block) : Host.Outcome State Fault Refusal :=
  let s0 := begun s g none
  let r := gather s g b (longest g + 1) b.pos b.body []
  match r.fault with
  | some t => .next (takeTrap s0 t)
  | none =>
    match bundleFault g r with
    | some t => .next (takeFault s0 t)
    | none =>
      match bundleHeld s0 (r.words.map (·.instr)) with
      | some (kind, obj) => .next (holdBundle s0 kind obj 0)
      | none =>
        let new := r.parcels.length - b.body.length
        let s' := fetched s g (b.hdr + 4 + BitVec.ofNat 64 (2 * b.body.length)) (2 * new)
        let s1 := (begun s' g (viewOf s' g r.words)).modMyStream ({ · with blk := some { b with body := r.parcels } })
        settle r.used (runBundle s1 r.words)

/-- R48, R50: a stream between blocks: its next parcel must begin a header. -/
def issueHeader (s : State) (g : Agent) : Host.Outcome State Fault Refusal :=
  let s0 := begun s g none
  let pc := (s.stream g).pc
  let notHeader := illegal (match (s.stream g).arrival with | .transfer => 5 | .fall => 9) pc
  if bit pc 0 then .next (takeFault s0 notHeader)
  else match fetchParcel s g pc with
  | .error t => .next (takeTrap s0 t)
  | .ok p =>
    if !isHeaderParcel p then .next (takeFault s0 notHeader)
    else match fetchParcel s g (pc + 2) with
      | .error t => .next (takeTrap s0 t)
      | .ok q => match decodeParcels p q with
        | .ok i => exec i (fetched s0 g pc 4)
        | .error e => .next (takeFault s0 (illegal e.sub pc))

/-- The next bundle or header of a stream. -/
def issueAgent (s : State) (g : Agent) : Host.Outcome State Fault Refusal :=
  match (s.stream g).blk with
  | some b => issueBundle s g b
  | none => issueHeader s g

/-! ## Arbitration (R320 to R322) -/

/-- R321: an age saturates at 255. -/
def ageLimit : Nat := 255

/-- R320: the slot (0 or 1) that lost a unit's last contested cycle. -/
def State.lostOf (s : State) (c : Nat) : StreamId → Nat
  | .a => (s.core c).lostA | .m => (s.core c).lostM | .v => (s.core c).lostV

def State.setLost (s : State) (c : Nat) (k : StreamId) (n : Nat) : State :=
  s.modCore c fun x => match k with
    | .a => { x with lostA := n } | .m => { x with lostM := n } | .v => { x with lostV := n }

/-- R320: a unit issues at most one bundle in a cycle; of the units of a core, A has its turn before M, M before V, and V before the
engines, so that a cycle's operations on a semaphore or a CSR come in that order (R137, R144). -/
def State.unitUsed (s : State) (c : Nat) (k : StreamId) : Bool :=
  let now (t : Option Nat) : Bool := t == some s.tick
  let x := s.core c
  now x.engAt || now x.usedV ||
    (match k with
     | .a => now x.usedA || now x.usedM
     | .m => now x.usedM
     | .v => false)

def State.useUnit (s : State) (c : Nat) (k : StreamId) : State :=
  s.modCore c fun x => match k with
    | .a => { x with usedA := some s.tick } | .m => { x with usedM := some s.tick } | .v => { x with usedV := some s.tick }

/-- Whether issuing would leave the stream waiting (R320: such a bundle is not ready). -/
def waits : Host.Outcome State Fault Refusal → Bool
  | .next s => s.issue.outcome == .waiting
  | _ => false

/-- The two job streams of a kind on a core. -/
def unitAgents (c : Nat) (k : StreamId) : Agent × Agent := (⟨2 * c, k⟩, ⟨2 * c + 1, k⟩)

/-- A stream stands between blocks, at a header: it has no bundle decoded. -/
def atHeader (s : State) (g : Agent) : Bool := runnable s g && (s.stream g).blk.isNone

/-- R320: a stream has a ready bundle. -/
def readyBundle (s : State) (g : Agent) : Bool := runnable s g && !atHeader s g && !waits (issueAgent s g)

/-- R321: a stream's age has reached its limit. -/
def saturated (t : Stream) : Bool := decide (ageLimit ≤ t.age)

/-- R320: whether the stream of slot `2c` goes before that of slot `2c + 1`, both ready. -/
def firstWins (s : State) (c : Nat) (k : StreamId) : Bool :=
  let t0 := s.slot (2 * c)
  let t1 := s.slot (2 * c + 1)
  let u0 := t0.stream k
  let u1 := t1.stream k
  if saturated u0 != saturated u1 then saturated u0
  else if t0.prio ≠ t1.prio then decide (t0.prio < t1.prio)
  else if u0.readyFor ≠ u1.readyFor then decide (u1.readyFor < u0.readyFor)
  else s.lostOf c k == 0

/-- A ready bundle has not issued in this cycle. -/
def notePassed (s : State) (g : Agent) : State := s.modStream g fun t => { t with readyFor := t.readyFor + 1, wait := none }

/-- R320: the loser of a contested cycle. -/
def noteLoser (s : State) (c : Nat) (k : StreamId) (loser : Nat) : State := notePassed (s.setLost c k loser) ⟨2 * c + loser, k⟩

/-- R321: the ages of a unit's two streams move before the cycle's choice. -/
def ageUnit (s : State) (c : Nat) (k : StreamId) : State :=
  let (g0, g1) := unitAgents c k
  if s.tick % us ≠ 0 then s
  else
    let r0 := readyBundle s g0
    let r1 := readyBundle s g1
    (s.modStream g0 (·.aged s.tick r0)).modStream g1 (·.aged s.tick r1)

/-- R321: the ages of every listed core's streams move, each by its ready bundle. -/
def ageUnits (s : State) : State :=
  if s.tick % us ≠ 0 then s
  else (busyCores s).foldl (fun s c => ageUnit (ageUnit (ageUnit s c .a) c .m) c .v) s

/-- R398, R399: the records whose cycle has come are ready. -/
def readyDue (s : State) : State :=
  { s with tq := { s.tq with records := s.tq.records.map fun e =>
      if !e.2.held && !e.2.ready && decide (e.2.readyAt ≤ s.tick) then (e.1, e.2.nowReady) else e } }

/-- What a cycle does without a turn of its own, before TICK advances: the ages of R269, R310, R321 and R434, the records
that become ready, and the search for free slots of R316. -/
def cycleDue (s : State) : State := noteFits (readyDue (agePackets (ageNests (ageRecords (ageUnits s)))))

/-- The state that an event meets: what is due at its TICK has happened. -/
def due (i : Instr) (s : State) : State :=
  match i with
  | .ballastStep => cycleDue s
  | .streamAgeTick => ageUnits s
  | _ => s

/-- The cycle is spent, where the bundle has issued or ended. -/
def spend (c : Nat) (k : StreamId) : Host.Outcome State Fault Refusal → Host.Outcome State Fault Refusal
  | .next s => .next (if s.issue.outcome = .waiting then s else s.useUnit c k)
  | o => o

/-- What follows in the same cycle. -/
def andThen (o : Host.Outcome State Fault Refusal) (f : State → Host.Outcome State Fault Refusal) : Host.Outcome State Fault Refusal :=
  match o with
  | .next s => f s
  | o => o

/-- A stream at a header enters its block. -/
def enterBlock (s : State) (g : Agent) : Host.Outcome State Fault Refusal := if atHeader s g then issueHeader s g else .next s

/-- R320: the job streams of a unit in a cycle: the chosen one issues; a bundle that waits notes its wait. -/
def jobsTurn (s : State) (c : Nat) (k : StreamId) : Host.Outcome State Fault Refusal :=
  let (g0, g1) := unitAgents c k
  match runnable s g0, runnable s g1 with
  | false, false => .next s
  | true, false => spend c k (issueAgent s g0)
  | false, true => spend c k (issueAgent s g1)
  | true, true =>
    let o0 := issueAgent s g0
    let o1 := issueAgent s g1
    if waits o0 then andThen o0 fun s1 => spend c k (issueAgent s1 g1)
    else if waits o1 then andThen o1 fun s1 => spend c k (issueAgent s1 g0)
    else if firstWins s c k then andThen o0 fun s1 => .next (noteLoser (s1.useUnit c k) c k 1)
    else andThen o1 fun s1 => .next (noteLoser (s1.useUnit c k) c k 0)

/-- R322: whether a job's V stream of a core has a ready bundle. -/
def readyV (s : State) (c : Nat) : Bool := readyBundle s ⟨2 * c, .v⟩ || readyBundle s ⟨2 * c + 1, .v⟩

/-- R322: whether the firmware of a core may take this cycle of the scalar control unit. -/
def fwMay (s : State) (c : Nat) : Bool :=
  !readyV s c ||
    (let w := (s.core c).fw
     !(w.window == s.tick / 64 && decide (w.share ≤ w.budget)))

/-- R322: firmware takes a cycle; one in which a V stream is ready counts against its budget, and the streams are passed over. -/
def noteFw (s : State) (c : Nat) : State :=
  let pass (s : State) (g : Agent) : State := if readyBundle s g then notePassed s g else s
  if !readyV s c then s
  else
    let s1 := pass (pass s ⟨2 * c, .v⟩) ⟨2 * c + 1, .v⟩
    s1.modCore c fun k =>
      let w := s.tick / 64
      { k with fw := { k.fw with window := w, budget := if k.fw.window = w then k.fw.budget + 1 else 1 } }

/-- R320, R321: one cycle of a unit of a core; in the scalar control unit a ready firmware bundle goes first (R322). Streams at a
header enter their blocks, which is no bundle and takes nothing of the cycle. -/
def unitTurn (s : State) (c : Nat) (k : StreamId) : Host.Outcome State Fault Refusal :=
  let (g0, g1) := unitAgents c k
  if atHeader s g0 || atHeader s g1 then andThen (enterBlock s g0) (enterBlock · g1)
  else if s.unitUsed c k then .next s
  else
    let s1 := ageUnit s c k
    let g : Agent := ⟨fwSlot c, .a⟩
    if k = .v ∧ readyBundle s1 g ∧ fwMay s1 c then spend c .v (issueAgent (noteFw s1 c) g)
    else jobsTurn s1 c k

/-- R511: a controller issues at most one bundle in a cycle. -/
def spendOwn (n : Nat) : Host.Outcome State Fault Refusal → Host.Outcome State Fault Refusal
  | .next s => .next (s.modSlot n ({ · with issuedAt := some s.tick }))
  | o => o

/-- R70, R322, R511: a step of a context of the scalar profile: its A stream. Firmware takes a cycle of its core's scalar control
unit, a controller one of its own. A job's streams have their units' turns. -/
def contextTurn (s : State) (n : Nat) : Host.Outcome State Fault Refusal :=
  let g : Agent := ⟨n, .a⟩
  let c := slotCore n
  if isJob n ∨ !runnable s g then .next s
  else if atHeader s g then issueHeader s g
  else if waits (issueAgent s g) then issueAgent s g
  else if isCtl n then (if (s.slot n).issuedAt = some s.tick then .next s else spendOwn n (issueAgent s g))
  else if s.unitUsed c .v ∨ !fwMay s c then .next s
  else spend c .v (issueAgent (noteFw s c) g)

/-! ## Turns that wait (R371, R518, R523) -/

/-- The accesses of the host, which reach the module in the order in which it makes them (R371). -/
def Turn.isHost : Turn → Bool
  | .event (.notify ..) => true
  | .event (.bar2RingAccess ..) => true
  | .event (.bar4Access ..) => true
  | .event (.enable ..) => true
  | .event (.disable ..) => true
  | .event (.registerWrite ..) => true
  | _ => false

/-- The turn of a state waits (log 124): a later turn goes before it, and none that the host made after it. -/
def postpone (s : State) : State :=
  match s.agenda with
  | [] => s
  | t :: ts =>
    let (hosts, others) := if t.isHost then ts.span Turn.isHost else ([], ts)
    match others with
    | u :: us => { s with agenda := u :: t :: hosts ++ us }
    | [] => if t.isHost ∧ s.focus.isHost then s else { s with agenda := s.focus :: t :: hosts }

/-- A turn that has met an access that must wait has not happened. -/
def unlessHeld (s : State) : Host.Outcome State Fault Refusal → Host.Outcome State Fault Refusal
  | .next t => if s.stalls < t.stalls then .next (postpone s) else .next t
  | o => o

/-! ## Placing a word where the next bundle is fetched (log 2) -/

/-- The agent that a word is placed for: the first stream of job slot 0 that may run it, else the firmware of core 0. -/
def agentFor (i : Instr) : Agent :=
  let legal (g : Agent) : Bool := (wordFault g i).isNone
  if legal ⟨0, .a⟩ then ⟨0, .a⟩
  else if legal ⟨0, .m⟩ then ⟨0, .m⟩
  else if legal ⟨0, .v⟩ then ⟨0, .v⟩
  else if legal ⟨fwSlot 0, .a⟩ then ⟨fwSlot 0, .a⟩
  else ⟨0, .a⟩

def codeAt : Nat := 0x20000

/-- The first parcel of a block whose body is two 32-bit words at most, as bytes of memory. -/
def placeHeader (len : Nat) : List Byte := parcelBytes (encode (.blockHeader 0 0 0 0 (BitVec.ofNat 10 len) 1))

/-- The page-table root of a context, and a leaf that maps every address to itself, readable, writable, executable. -/
def mapIdentity (s : State) (ctx : Nat) : State :=
  let m1 := writeBytes s.mem (256 * ctx) (natBytes 8 0x10001)
  { s with mem := writeBytes m1 0x10000 (natBytes 8 0x1F), ctxbase := 0 }

/-- Words that may close a bundle without an effect, of groups and slots of their own; the last is guarded by P1, which is 0. -/
def closers : List Instr := [.nop ⟨true, 0⟩, .addi ⟨true, 0⟩ 0 0 0, .vmov ⟨true, 1⟩ 0 0 0]

/-- The word that closes the bundle of an instruction whose S bit is 0. -/
def closer (g : Agent) (i : Instr) : Instr :=
  (closers.find? fun f => (wordFault g f).isNone && (bundleFault g { words := [⟨0, i⟩, ⟨4, f⟩] }).isNone).getD (.nop ⟨true, 0⟩)

def placeWord (s : State) (nbits w : Nat) : State :=
  let bs := tableBytes nbits w
  let header := match decodeTableWord nbits w with | some (.blockHeader ..) => true | _ => false
  let g := match decodeTableWord nbits w with | some i => agentFor i | none => ⟨0, .a⟩
  let ctx := if isFw g.slot then 0xFFF else (s.slot g.slot).ctx
  let nop := parcelBytes (encode (.nop ⟨true, 0⟩))
  let closed := match decodeTableWord nbits w with | some i => i.isCompact || i.hd.s || header | none => true
  let close := match decodeTableWord nbits w with | some i => parcelBytes (encode (closer g i)) | none => []
  let body := if closed then bs else bs ++ close
  let on (m : Sparse Chan) (a : Nat) : Sparse Chan :=
    sput m (chanOf a) { sget m {} (chanOf a) with online := true, holding := false }
  let s1 := mapIdentity { s with chans := on (on (on s.chans (256 * ctx)) 0x10000) codeAt } ctx
  let code := if header then bs ++ nop else placeHeader (body.length / 2) ++ body
  let s2 := { s1 with mem := writeBytes s1.mem codeAt code }
  let t : HedgeTable := { windows := [(0, 0, 655359)], perms := sput (sget s2.hedge.tables {} 0).perms (slotReq s2 g.slot).master 3 }
  let s3 := { s2 with hedge := { s2.hedge with tables := sput s2.hedge.tables 0 t } }
  let b : Block := { hdr := BitVec.ofNat 64 codeAt, rot := false, exp := (s.stream g).exposed, stg := false, stages := 0,
                     len := body.length / 2, n := 1, k := 0, pos := 0, body := [], drain := none }
  let s4 := (s3.modSlot g.slot ({ · with state := .running, issuedAt := none })).modStream g fun st =>
    { st with ended := false, wait := none, arrival := .transfer
              blk := if header then none else some b
              pc := BitVec.ofNat 64 (if header then codeAt else codeAt + 4) }
  let s5 := s4.modCore (slotCore g.slot) ({ · with usedA := none, usedM := none, usedV := none, engAt := none })
  { s5 with agenda := [], powered := true, tlb := { s5.tlb with cores := [], clusters := [] }
            focus := if isFw g.slot then .context g.slot else .unit (slotCore g.slot) g.st }

end Sys2Proof.Machine
end

