-- ==== Sys2Proof/Machine/Step.lean ====
section
/-!
DEFINITION. One step of the module: the next turn of its agenda, or of its focus when the agenda is empty; and the state
in which the next step fetches a given word.
-/

namespace Sys2Proof.Machine

/-- Takes the next turn off the agenda; with none there, the focus has the turn. -/
def nextTurn (s : State) : Turn × State :=
  match s.agenda with
  | [] => (s.focus, s)
  | t :: ts => (t, { s with agenda := ts })

/-- A turn. -/
def takeTurn (t : Turn) (s : State) : Host.Outcome State Fault Refusal :=
  match t with
  | .event i => if encode i = [] then exec i (due i s) else .next s
  | .unit c k => unitTurn s c k
  | .context n => contextTurn s n
  | .fill cl u i c x va => .next (fillTlb s cl u i c x va)
  | .l2 c x a h => .next (l2Access s c x a h)
  | .sector n => .next (sectorRead s n)
  | .wear u i e => .next (cellError s u i e)
  | .slice n l => .next (sliceError s n l)
  | .bar4 n => .next (resizeBar4 s n)
  | .sensors t v w => .next (readSensors s t v w)
  | .i3c o d => .next (i3cWrite s o d)

/-- R541, R542: a module without power runs nothing, and what reaches it is lost, until power comes back with a boot. -/
def offTurn (t : Turn) (s : State) : Host.Outcome State Fault Refusal :=
  match t with
  | .event (.boot ok) => exec (.boot ok) s
  | .event _ => .next s
  | .fill .. => .next s
  | .l2 .. => .next s
  | .sector _ => .next s
  | .wear .. => .next s
  | .slice .. => .next s
  | .bar4 _ => .next s
  | .sensors .. => .next s
  | .i3c .. => .next s
  | .unit _ _ => .fault .poweredOff
  | .context _ => .fault .poweredOff

/-- A step: the next turn; one that meets an access that must wait is taken later (log 124). -/
def step (s : State) : Host.Outcome State Fault Refusal :=
  if s.powered then unlessHeld s (takeTurn (nextTurn s).1 (nextTurn s).2) else offTurn (nextTurn s).1 (nextTurn s).2

/-- `s` with an instruction where the next step fetches (log 2): a context page table that maps every address to
itself, the table's and the code's right of access, their channels online, the word in a block of its own, its agent running and next. -/
def State.withFetchWord (s : State) (nbits w : Nat) : State := placeWord s nbits w

end Sys2Proof.Machine
end

