-- ==== Sys2Proof/Machine/Bar0.lean ====
section
/-!
DEFINITION. What the registers of BAR0 read as (R544, R545). A read has no event of its own and changes nothing; the Hedge table
of target 22 grants it, but for the telemetry space, which every master reads (R508).
-/

namespace Sys2Proof.Machine

/-- R538: the MSI-X table, and the pending bits of 64 vectors. -/
def readMsix (s : State) (off : Nat) : Word :=
  let v := sget s.msix {} (off / 16)
  if off % 16 = 0 then v.addr else BitVec.ofNat 64 (v.data.toNat + b2n v.masked * 2 ^ 32)

def readPending (s : State) (k : Nat) : Word :=
  BitVec.ofNat 64 ((upTo 0 64).foldl (fun n i => n + b2n (sget s.msix {} (64 * k + i)).pending * 2 ^ i) 0)

/-- R37. -/
def readQueueReg (s : State) (off : Nat) : Word :=
  match off with
  | 0x00 => s.qregs.qtbase
  | 0x10 => BitVec.ofNat 64 (b2n s.qregs.reject * 2 + b2n (s.qregs.busy.isSome || s.qregs.enabling.isSome))
  | 0x18 => s.qregs.ringwin
  | _ => 0

/-- R317: TQ.STAT. -/
def tqStat (s : State) : Word :=
  let old := (s.tq.records.filter fun e => e.2.ready && decide (255 ≤ e.2.age)).length
  let held := (s.tq.records.filter (·.2.held)).length
  BitVec.ofNat 64 (spilledCount s % 2 ^ 24 * 2 ^ 40 + min old 0xFFFF * 2 ^ 16 + held % 2 ^ 16)

/-- R393, R407: GOV.LIMITS and GOV.STAT. -/
def govLimits (g : Gov) : Word := BitVec.ofNat 64 (b2n g.reject * 2 ^ 32 + g.fall * 2 ^ 16 + g.rise)

/-- R407: the sum of the estimates, in mW: a core that is not listed idles at 100. -/
def estimateSum (s : State) : Nat := (s.cores.map (·.2.est)).foldr (· + ·) 0 + 100 * (1536 - s.cores.length)

/-- R407: GOV.STAT. NEXTFREE is sought from the slot of the cycle at hand (log 177). -/
def govStat (s : State) : Word :=
  let g := s.gov
  let free := g.firstRoom 1 (g.reserved.length + 1) (s.tick / 256)
  let ballast := (g.ballast.map (·.2)).foldr (· + ·) 0 / 1024 / 1000
  BitVec.ofNat 64 (free % 2 ^ 32 * 2 ^ 32 + estimateSum s / 1000 % 2 ^ 16 * 2 ^ 16 + min ballast 0xFFFF)

/-- R492: CKPT.CTL, CKPT.STAT, CKPT.CUR, CKPT.INFO. -/
def ckptCtl (c : Ckpt) : Word :=
  BitVec.ofNat 64 (c.rollvec.toNat * 2 ^ 48 + b2n c.rollen * 2 ^ 47 + c.defer.toNat * 2 ^ 32 + c.len.toNat)

def ckptStat (c : Ckpt) : Word := match c.committed with | some n => BitVec.ofNat 64 n | none => BitVec.allOnes 64

def ckptInfo (s : State) : Word :=
  let c := s.ckpt
  BitVec.ofNat 64 (c.rollbacks.toNat * 2 ^ 48 + c.fails.toNat * 2 ^ 32 + b2n (c.intervals.any (·.unprot)) * 2 ^ 24 + logFill s * 2 ^ 16)

/-- R411 to R437: the fabric's registers. -/
def readFabReg (s : State) (off : Nat) : Word :=
  let w := sget s.windows {} ((off - 0x1000) / 16)
  if off < 0x800 then (if off % 16 = 0 then (s.port (off / 16)).cfg else (s.port (off / 16)).stat)
  else if 0x1000 ≤ off ∧ off < 0x1100 then (if off % 16 = 0 then w.map else w.bind)
  else if 0x2000 ≤ off ∧ off < 0x4000 then sget s.fab.grt 0 ((off - 0x2000) / 8)
  else if 0x4000 ≤ off ∧ off < 0x4800 then sget s.fab.lrt 0 ((off - 0x4000) / 8)
  else if off = 0x4800 then BitVec.ofNat 64 (b2n (oldBusy s) * 2 + b2n s.fab.escActive)
  else if off = 0x5008 then BitVec.ofNat 64 (b2n s.fab.rgBusy.isSome * 2 ^ 8 + s.fab.rgErr)
  else 0

/-- R522: UPD.STAT. -/
def updStat (u : Upd) : Word :=
  BitVec.ofNat 64 (u.seq.toNat * 2 ^ 32 + u.result % 256 * 2 ^ 24 + u.phase % 16 * 2 ^ 20 + b2n u.busy)

/-- R540: CXL.PORT.p.STAT. -/
def cxlStat (c : CxlPort) : Word := BitVec.ofNat 64 (c.drops.toNat * 2 ^ 32 + c.size * 2 ^ 16 + c.width * 2 + b2n c.linkup)

/-- R545: the telemetry counters. -/
def readTel (s : State) (off : Nat) : Word :=
  let t := s.tel
  if off < 0x80 then sget t.resteer 0 (off / 8)
  else if 0x100 ≤ off ∧ off < 0x500 then
    let n := (off - 0x100) / 8
    BitVec.ofNat 64 (sget t.badhdr 0 n * 2 ^ 32 + sget t.reddrop 0 n)
  else if 0x500 ≤ off ∧ off < 0x580 then
    let n := (off - 0x500) / 8
    BitVec.ofNat 64 (sget t.corr 0 n * 2 ^ 32 + sget t.uncorr 0 n)
  else if 0x600 ≤ off ∧ off < 0x700 then
    leWord (((sget t.rederr [] ((off - 0x600) / 16)).drop (off % 16)).take 8)
  else if off = 0x700 then BitVec.ofNat 64 (min t.rederrs (2 ^ 32 - 1) * 2 ^ 32 + t.rederrs % 16)
  else 0

/-- R544: the value of the register at a BAR0 offset; one not listed reads 0. -/
def readBar0 (s : State) (off : Nat) : Word :=
  if off % 8 ≠ 0 then 0
  else if off < 0x8000 then readMsix s off
  else if off < 0x8100 then readPending s ((off - 0x8000) / 8)
  else if 0x100000 ≤ off ∧ off < 0x101000 then readQueueReg s (off - 0x100000)
  else if off = 0x120000 then tqCfg s.tq
  else if off = 0x120008 then s.tq.spillbase
  else if off = 0x120018 then tqStat s
  else if 0x130000 ≤ off ∧ off < 0x130080 then
    let r := sget s.shares {} ((off - 0x130000) / 8)
    BitVec.ofNat 64 (b2n r.reject * 4 + r.share)
  else if off = 0x140000 then s.ctxbase
  else if off = 0x140010 then BitVec.ofNat 64 (b2n s.tlb.busy)
  else if 0x150000 ≤ off ∧ off < 0x150200 then
    let r := sget s.ranges {} ((off - 0x150000) / 32)
    (match off % 32 with | 0 => r.base | 8 => r.limit | 16 => r.ctl | _ => 0)
  else if off = 0x160000 then govLimits s.gov
  else if off = 0x160008 then govStat s
  else if off = 0x170000 then ckptCtl s.ckpt
  else if off = 0x170008 then ckptStat s.ckpt
  else if off = 0x170010 then BitVec.ofNat 64 s.ckpt.current
  else if off = 0x170018 then ckptInfo s
  else if off = 0x170020 then spareStat s
  else if off = 0x171000 then s.hedge.sel
  else if off = 0x171008 then hedgeData s
  else if off = 0x171010 then BitVec.ofNat 64 (b2n s.hedge.reject * 2 + b2n s.hedge.pending.isSome)
  else if 0x180000 ≤ off ∧ off < 0x186000 then readFabReg s (off - 0x180000)
  else if off = 0x190000 then s.upd.image
  else if off = 0x190010 then updStat s.upd
  else if off = 0x190020 then bootStatus s
  else if off = 0x1A0000 then s.bar4map
  else if 0x1A1000 ≤ off ∧ off < 0x1A1020 then cxlStat (sget s.cxl {} ((off - 0x1A1000) / 8))
  else if off = 0x1A2000 then thermWord s.therm
  else if 0x1B0000 ≤ off ∧ off < 0x1B1000 then readTel s (off - 0x1B0000)
  else 0

/-- R544: the offsets of the telemetry space; of THERM all but THROTTLE is of it. -/
def isTelemetry (off : Nat) : Bool :=
  off == 0x120018 || off == 0x160008 || (decide (0x170008 ≤ off) && decide (off < 0x170028)) ||
    (decide (0x180000 ≤ off) && decide (off < 0x180800) && off % 16 == 8) || off == 0x190020 ||
    (decide (0x1A1000 ≤ off) && decide (off < 0x1A1020)) || off == 0x1A2000 || (decide (0x1B0000 ≤ off) && decide (off < 0x1B1000))

/-- R507, R508: what a master's read of BAR0 returns: zero where it is denied; the registers of R509 are read by class 15 alone. -/
def bar0Read (s : State) (m : Master) (off : Nat) : Word :=
  let ok := hedgeOk s 22 m.toNat .r off && (!(decide (0x171000 ≤ off) && decide (off < 0x172000)) || hedgeMaster m)
  if ok then readBar0 s off
  else if isTelemetry off then (if off = 0x1A2000 then keepFields (readBar0 s off) [(0, 48)] else readBar0 s off)
  else 0

/-- R543: what a read over I3C returns: the telemetry space and BOOT.STATUS; there is no other. -/
def i3cRead (s : State) (off : Nat) : Word :=
  if !isTelemetry off then 0 else if off = 0x1A2000 then keepFields (readBar0 s off) [(0, 48)] else readBar0 s off

end Sys2Proof.Machine
end

