-- ==== Sys2Proof/Safety.lean ====
section
/-!
DEFINITION. What counts as a safe run, and the notions that the statements use: when a word runs, when it stands back, and
what a state keeps.
-/

namespace Sys2Proof.Machine

/-- A run is safe for `k` steps: every one of them answers a next state. -/
def SafeFor (k : Nat) (s : State) : Prop := ∀ j, j ≤ k → ∃ t, Host.Core.run Sys2Proof.core j s = .next t

/-- A word runs: it may run where it stands (R65, R67, R70), and its guard is true (R61). -/
abbrev Runs (i : Instr) (s : State) : Prop := wordFault s.me i = none ∧ s.on i.hd = true

/-- A word stands back: it may run where it stands, and its guard is false (R61). -/
abbrev StandsBack (i : Instr) (s : State) : Prop := wordFault s.me i = none ∧ s.on i.hd = false

/-- R62, R122, R226: a word whose guard is one of its operands, the bits that it writes, selects or adds up. -/
def takesGuard : Instr → Bool
  | .pand .. | .por .. | .pxor .. | .pandn .. | .pnot .. | .pmov .. | .pbcast .. => true
  | .vsel .. | .vradd .. | .vrmax .. | .vrmin .. | .vraddx .. => true
  | _ => false

/-- R62: a word of the vector or the lane-mask slot, whose guard is a mask of lanes; VEXT, which writes a general register, is none. -/
def byLanes (i : Instr) : Bool :=
  decide (0x2E ≤ i.op) && decide (i.op ≤ 0x3A) && (match i with | .vext .. => false | _ => true)

/-- A vector word runs (R62, R204, R210): it is legal here, some guard bit is 1, the window's tile is the job's, and the tile's type is
one that the form takes. -/
abbrev VRuns (i : Instr) (k : Need) (s : State) : Prop :=
  wordFault s.me i = none ∧ s.guard i.hd ≠ 0 ∧ windowFault s = none ∧ k.ok s.readType = true

/-- R211, R215: the second operand of a vector word is the row `r`, and the word goes on in `u`: for a row that is the state itself,
for a port the one in which its next use has been taken. -/
def SecondOperand (s : State) (b : BitVec 5) (m : BitVec 1) (ty : TType) (u : State) (r : Row) : Prop :=
  ∀ k : State → Row → Eff, operandB s b m ty k = k u r

/-- The byte at a key reads the same in both states. -/
abbrev SameByte (s t : State) (k : Nat) : Prop := memRead t.mem k = memRead s.mem k

/-- Every byte reads the same in both states. -/
def SameMemory (s t : State) : Prop := ∀ k, SameByte s t k

/-- Values by number in their canonical order: the numbers rise strictly from above `lo`. Every operation keeps it. -/
def risingFrom {α : Type} : Option Nat → Sparse α → Bool
  | _, [] => true
  | lo, (k, _) :: t => (match lo with | none => true | some l => decide (l < k)) && risingFrom (some k) t

abbrev Rising {α : Type} (m : Sparse α) : Prop := risingFrom none m = true

/-- R490: what interval `n` made final: an interval has committed, and `n` with it. (That no unprotected failure has struck a launch
shows in its completion record, which R494 writes again.) -/
def Final (s : State) (n : Nat) : Prop := ∃ c, s.ckpt.committed = some c ∧ n ≤ c

/-- No stream's general registers, predicates, loop counter or pc differ. -/
def SameRegisters (s t : State) : Prop :=
  ∀ g : Agent, (t.stream g).x = (s.stream g).x ∧ (t.stream g).p = (s.stream g).p ∧ (t.stream g).lc = (s.stream g).lc ∧
    (t.stream g).pc = (s.stream g).pc

/-- Every job slot is as it was. -/
def SameJobs (s t : State) : Prop := ∀ n, n < 3072 → t.slot n = s.slot n

/-- Every queue but one is as it was. -/
def OtherQueues (s t : State) (q : Nat) : Prop := ∀ p, p ≠ q → t.queue p = s.queue p

/-- A packet of a type starts on a hardware slot (R25): it is the next of the queue `q` that the slot holds, and has no error
of R29. -/
abbrev Starts (s : State) (h ty q : Nat) (u : Queue) (p : Packet) : Prop :=
  queueAt s h = some (q, u) ∧ s.queue q = u ∧ classPaused s 0 = false ∧ u.error = none ∧ u.startable = some p ∧ p.type = ty ∧
    badPacket p = false ∧ s.boot.minimal = false

/-- R25: the packets of a queue, that of a count having completed. -/
def completed (ps : List Packet) (idx : Nat) : List Packet :=
  ps.map fun r => if r.idx = idx then { r with started := true, done := true } else r

/-- R284: a node's successor set is taken in graph `g`, which stood at `v`: every decrement was made, and the nodes that became
ready run. -/
def SetTaken (t : State) (g : Nat) (v : Graph) (ks : List Nat) : Prop :=
  ∀ v1 ready, decrement v ks = some (v1, ready) → ∃ w, t.graph g = some w ∧ (∀ j, j ∉ ready → w.node j = v1.node j) ∧
    ∀ j, j ∈ ready → (w.node j).state = .running ∧ (w.node j).cnt = 0

/-- A key lies in one of some pieces. -/
def InPieces (ps : List Piece) (k : Nat) : Prop := ∃ p, p ∈ ps ∧ p.key ≤ k ∧ k < p.key + p.len

/-- What a step or a word outside an agent's own registers keeps: two states that agree but in one stream. -/
abbrev SameButStream (s t : State) (g : Agent) : Prop := t = s.setStream g (t.stream g)

/-- What a word that writes one general register keeps: the state is the same but in the stream's registers and in the results
on their way to them, and no other register changes. -/
def OnlyRegister (s t : State) (d : BitVec 5) : Prop :=
  (t = s ∨ t = s.setStream s.me { s.myStream with x := (t.stream s.me).x, pend := (t.stream s.me).pend }) ∧
  ∀ e : BitVec 5, e ≠ d → (t.stream s.me).x[e.toFin] = s.myStream.x[e.toFin]

/-- What the predicate that a name means to the words of the bundle at hand in `s` (R60, R121) holds in `u`. -/
def State.named (s u : State) (i : Nat) : BitVec 256 := ({ u.stream s.me with rrb := s.readStream.rrb } : Stream).readP i

/-- What a word that writes predicates keeps: the state is the same but in the stream's predicates and in the results on their way
to them, and every predicate name not listed reads as before. -/
def OnlyPredicates (s t : State) (ds : List Nat) : Prop :=
  (t = s ∨ t = s.setStream s.me { s.myStream with p := (t.stream s.me).p, pend := (t.stream s.me).pend }) ∧
  ∀ j, j < 16 → j ∉ ds → s.named t j = s.named s j

end Sys2Proof.Machine
end

