-- ==== Sys2Proof/Certificates/Slice0/Obligations.lean ====
section
/-!
DEFINITION. The statements for the provers: what the spec says that an instruction or the machine does. Each docstring names the
rules that its statement formalises.
-/

open Sys2Proof Sys2Proof.Machine

/-- R54, R108: what a write of a general register does: nothing for X0; at once in an interlocked block; as a result in flight in an
exposed one; and nothing else changes. -/
def Obligations.RegisterWrite : Prop :=
  ∀ (s : State) (d : BitVec 5) (v : Word) (lat : Nat),
    s.writeX 0 v lat = s ∧
    OnlyRegister s (s.writeX d v lat) d ∧
    (d ≠ 0 → s.myStream.exposed = false →
      ((s.writeX d v lat).stream s.me).x[d.toFin] = v ∧ ((s.writeX d v lat).stream s.me).pend = s.myStream.pend) ∧
    (d ≠ 0 → s.myStream.exposed = true →
      ((s.writeX d v lat).stream s.me).x = s.myStream.x ∧
      ((s.writeX d v lat).stream s.me).pend = s.myStream.pend ++ [{ val := .x d.toNat v, flags := 0, remain := lat }])

/-- R112, R114, R115, R116, R118: the value that each word of OP 0x00 and each immediate word writes; the write is that of RegisterWrite. -/
def Obligations.AluResults : Prop :=
  (∀ (h : Hd) (d a b : BitVec 5) (s : State),
    (Runs (.add h d a b) s → exec (.add h d a b) s = .next (s.writeX d (s.readX a + s.readX b) 1)) ∧
    (Runs (.sub h d a b) s → exec (.sub h d a b) s = .next (s.writeX d (s.readX a - s.readX b) 1)) ∧
    (Runs (.and h d a b) s → exec (.and h d a b) s = .next (s.writeX d (s.readX a &&& s.readX b) 1)) ∧
    (Runs (.or h d a b) s → exec (.or h d a b) s = .next (s.writeX d (s.readX a ||| s.readX b) 1)) ∧
    (Runs (.xor h d a b) s → exec (.xor h d a b) s = .next (s.writeX d (s.readX a ^^^ s.readX b) 1)) ∧
    (Runs (.shl h d a b) s → exec (.shl h d a b) s = .next (s.writeX d (s.readX a <<< ((s.readX b).toNat % 64)) 1)) ∧
    (Runs (.shr h d a b) s → exec (.shr h d a b) s = .next (s.writeX d (s.readX a >>> ((s.readX b).toNat % 64)) 1)) ∧
    (Runs (.sar h d a b) s → exec (.sar h d a b) s = .next (s.writeX d ((s.readX a).sshiftRight ((s.readX b).toNat % 64)) 1)) ∧
    (Runs (.min h d a b) s → exec (.min h d a b) s =
      .next (s.writeX d (BitVec.ofInt 64 (min (s.readX a).toInt (s.readX b).toInt)) 1)) ∧
    (Runs (.max h d a b) s → exec (.max h d a b) s =
      .next (s.writeX d (BitVec.ofInt 64 (max (s.readX a).toInt (s.readX b).toInt)) 1)) ∧
    (Runs (.umin h d a b) s → exec (.umin h d a b) s =
      .next (s.writeX d (BitVec.ofNat 64 (min (s.readX a).toNat (s.readX b).toNat)) 1)) ∧
    (Runs (.umax h d a b) s → exec (.umax h d a b) s =
      .next (s.writeX d (BitVec.ofNat 64 (max (s.readX a).toNat (s.readX b).toNat)) 1)) ∧
    (Runs (.mul h d a b) s → exec (.mul h d a b) s = .next (s.writeX d (s.readX a * s.readX b) 3)) ∧
    (Runs (.mulh h d a b) s → exec (.mulh h d a b) s =
      .next (s.writeX d (BitVec.ofInt 64 ((s.readX a).toInt * (s.readX b).toInt / 2 ^ 64)) 3)) ∧
    (Runs (.umulh h d a b) s → exec (.umulh h d a b) s =
      .next (s.writeX d (BitVec.ofNat 64 ((s.readX a).toNat * (s.readX b).toNat / 2 ^ 64)) 3))) ∧
  (∀ (g : BitVec 4) (e : BitVec 1) (d a b : BitVec 5), decodeOp (2#2 ++ e ++ g ++ 0#6 ++ d ++ a ++ b ++ 15#4) = .error .reservedFn) ∧
  (∀ (h : Hd) (d a : BitVec 5) (i : BitVec 9) (n : BitVec 6) (j : BitVec 14) (s : State),
    (Runs (.addi h d a i) s → exec (.addi h d a i) s = .next (s.writeX d (s.readX a + i.signExtend 64) 1)) ∧
    (Runs (.andi h d a i) s → exec (.andi h d a i) s = .next (s.writeX d (s.readX a &&& i.signExtend 64) 1)) ∧
    (Runs (.ori h d a i) s → exec (.ori h d a i) s = .next (s.writeX d (s.readX a ||| i.signExtend 64) 1)) ∧
    (Runs (.xori h d a i) s → exec (.xori h d a i) s = .next (s.writeX d (s.readX a ^^^ i.signExtend 64) 1)) ∧
    (Runs (.shli h d a n) s → exec (.shli h d a n) s = .next (s.writeX d (s.readX a <<< n.toNat) 1)) ∧
    (Runs (.shri h d a n) s → exec (.shri h d a n) s = .next (s.writeX d (s.readX a >>> n.toNat) 1)) ∧
    (Runs (.sari h d a n) s → exec (.sari h d a n) s = .next (s.writeX d ((s.readX a).sshiftRight n.toNat) 1)) ∧
    (Runs (.movi h d j) s → exec (.movi h d j) s = .next (s.writeX d (j.signExtend 64) 1)) ∧
    (Runs (.setlc h a i) s → exec (.setlc h a i) s =
      .next (s.setStream s.me { s.myStream with lc := (s.readX a + i.signExtend 64).setWidth 32 })))

/-- R113: the value that each word of OP 0x01 writes, its corner cases by name, and what the decoder refuses. -/
def Obligations.Alu2Results : Prop :=
  (∀ (h : Hd) (d a b : BitVec 5) (s : State),
    let x := s.readX a
    let y := s.readX b
    (Runs (.div h d a b) s → ∃ v, exec (.div h d a b) s = .next (s.writeX d v 22) ∧
      (y = 0 → v = BitVec.allOnes 64) ∧ (x = BitVec.intMin 64 → y = BitVec.allOnes 64 → v = BitVec.intMin 64) ∧
      (y ≠ 0 → ¬(x = BitVec.intMin 64 ∧ y = BitVec.allOnes 64) → v.toInt = x.toInt.tdiv y.toInt)) ∧
    (Runs (.udiv h d a b) s → ∃ v, exec (.udiv h d a b) s = .next (s.writeX d v 22) ∧
      (y = 0 → v = BitVec.allOnes 64) ∧ (y ≠ 0 → v.toNat = x.toNat / y.toNat)) ∧
    (Runs (.rem h d a b) s → ∃ v, exec (.rem h d a b) s = .next (s.writeX d v 22) ∧
      (y = 0 → v = x) ∧ (x = BitVec.intMin 64 → y = BitVec.allOnes 64 → v = 0) ∧
      (y ≠ 0 → v.toInt = x.toInt - y.toInt * x.toInt.tdiv y.toInt)) ∧
    (Runs (.urem h d a b) s → ∃ v, exec (.urem h d a b) s = .next (s.writeX d v 22) ∧
      (y = 0 → v = x) ∧ (y ≠ 0 → v.toNat = x.toNat % y.toNat)) ∧
    (Runs (.slt h d a b) s → exec (.slt h d a b) s = .next (s.writeX d (if x.toInt < y.toInt then 1 else 0) 1)) ∧
    (Runs (.uslt h d a b) s → exec (.uslt h d a b) s = .next (s.writeX d (if x.toNat < y.toNat then 1 else 0) 1))) ∧
  (∀ (h : Hd) (d a : BitVec 5) (s : State),
    let x := s.readX a
    (Runs (.clz h d a) s → ∃ v : Nat, exec (.clz h d a) s = .next (s.writeX d (BitVec.ofNat 64 v) 1) ∧ v ≤ 64 ∧
      x.toNat < 2 ^ (64 - v) ∧ (v < 64 → 2 ^ (63 - v) ≤ x.toNat)) ∧
    (Runs (.popc h d a) s → exec (.popc h d a) s =
      .next (s.writeX d (BitVec.ofNat 64 ((List.range 64).filter (x.getLsbD ·)).length) 1)) ∧
    (Runs (.brev h d a) s → ∃ v : Word, exec (.brev h d a) s = .next (s.writeX d v 1) ∧
      ∀ i, i < 64 → v.getLsbD i = x.getLsbD (63 - i)) ∧
    (Runs (.sextb h d a) s → exec (.sextb h d a) s = .next (s.writeX d ((x.extractLsb' 0 8).signExtend 64) 1)) ∧
    (Runs (.sexth h d a) s → exec (.sexth h d a) s = .next (s.writeX d ((x.extractLsb' 0 16).signExtend 64) 1)) ∧
    (Runs (.sextw h d a) s → exec (.sextw h d a) s = .next (s.writeX d ((x.extractLsb' 0 32).signExtend 64) 1)) ∧
    (Runs (.zextw h d a) s → exec (.zextw h d a) s = .next (s.writeX d ((x.extractLsb' 0 32).zeroExtend 64) 1))) ∧
  (∀ (g f : BitVec 4) (e : BitVec 1) (d a b : BitVec 5), 13 ≤ f.toNat →
    decodeOp (2#2 ++ e ++ g ++ 1#6 ++ d ++ a ++ b ++ f) = .error .reservedFn) ∧
  (∀ (g f : BitVec 4) (e : BitVec 1) (d a b : BitVec 5), 4 ≤ f.toNat → f.toNat ≤ 10 → b ≠ 0 →
    decodeOp (2#2 ++ e ++ g ++ 1#6 ++ d ++ a ++ b ++ f) = .error .reservedField)

/-- R128, R333, R334, R336, R340, R351, R506 to R508: the translation of an address and its checks. That a walk that meets data whose check
fails hands it to the access it serves is the model's choice (log 167). -/
def Obligations.AddressTranslation : Prop :=
  (∀ (s : State) (target master a : Nat) (acc : Acc),
    let t := sget s.hedge.tables {} target
    let holds (w : Nat) : Prop := (sget t.windows (0, 0) w).1 ≤ a / blockSize target ∧ a / blockSize target ≤ (sget t.windows (0, 0) w).2
    let may (w : Nat) : Bool := (!acc.reads || bit (sget t.perms 0 master) (2 * w)) && (!acc.writes || bit (sget t.perms 0 master) (2 * w + 1))
    (master % 16 = 15 → sfind t.perms master = none → hedgeOk s target master acc a = true) ∧
    (master % 16 ≠ 15 ∨ (sfind t.perms master).isSome = true → (∀ w, w < 16 → ¬holds w) → hedgeOk s target master acc a = false) ∧
    (master % 16 ≠ 15 ∨ (sfind t.perms master).isSome = true → ∀ w, w < 16 → holds w → (∀ v, v < w → ¬holds v) →
      hedgeOk s target master acc a = may w)) ∧
  (∀ (s : State) (r : Req) (va : Nat) (l : Leaf), tlbLookup s r va = some l → translate s r va = .ok l) ∧
  (∀ (s : State) (r : Req) (va : Nat), tlbLookup s r va = none →
    let c := s.ctxbase.toNat + 256 * r.ctx
    let can (a : Nat) : Prop := physOk s r.master .r a = true ∧ readReady s a 8 = true ∧ badAt s a 8 = false
    let refused (a : Nat) : Prop := (physOk s r.master .r a = false → translate s r va = .error (trapOf Code.accessDenied 0)) ∧
      (physOk s r.master .r a = true → readReady s a 8 = false → translate s r va = .error stall) ∧
      (physOk s r.master .r a = true → readReady s a 8 = true → badAt s a 8 = true → translate s r va = .error badRead)
    let page (sub : Nat) : Prop := translate s r va = .error (trapOf Code.page sub)
    refused c ∧ (can c → memNat s c 8 % 2 = 0 → page 3) ∧
    (∀ (k : Nat) (table : Nat → Nat),
      let entryAt (j : Nat) : Nat := table j + 8 * (va / 2 ^ (16 + 13 * (3 - j)) % 2 ^ 13)
      let next (e : Nat) : Nat := e / 2 ^ 16 % 2 ^ 36 * 2 ^ 16
      can c → memNat s c 8 % 2 = 1 → table 1 = next (memNat s c 8) → 1 ≤ k → k ≤ 3 →
      (∀ j, 1 ≤ j → j < k → can (entryAt j) ∧ (let e := memNat s (entryAt j) 8
        e % 2 = 1 ∧ e / 2 % 2 = 0 ∧ e / 4 % 2 ^ 14 = 0 ∧ e / 2 ^ 52 = 0 ∧ table (j + 1) = next e)) →
      refused (entryAt k) ∧ (can (entryAt k) →
        let e := memNat s (entryAt k) 8
        let size := 2 ^ (16 + 13 * (3 - k))
        let wrong : Prop := e / 2 ^ 52 ≠ 0 ∨ e / 2 ^ 13 % 8 ≠ 0 ∨ 4 ≤ e / 32 % 8 ∨ (e / 2 % 2 = 0 ∧ (k = 3 ∨ e / 4 % 2 ^ 11 ≠ 0)) ∨
          (e / 2 % 2 = 1 ∧ (next e % size ≠ 0 ∨ layoutOk s r.ctx (e / 2 ^ 8 % 16) = false))
        (e % 2 = 0 → page 1) ∧ (e % 2 = 1 → wrong → page 2) ∧
        (e % 2 = 1 → ¬wrong → e / 2 % 2 = 1 → translate s r va = .ok
          { pa := next e + va % size, size := size, attr := e / 32 % 8, layout := e / 256 % 16, r := e.testBit 2, w := e.testBit 3, x := e.testBit 4, comp := e.testBit 12 })))) ∧
  (∀ (s : State) (r : Req) (acc : Acc) (fa : Word) (va n : Nat),
    (∀ t, translate s r va = .error t → resolveVirtual s r acc fa va n = .error { t with faddr := fa }) ∧
    (∀ l, translate s r va = .ok l →
      let may : Prop := (acc.reads = true → acc ≠ .x → l.r = true) ∧ (acc.writes = true → l.w = true) ∧ (acc = .x → l.x = true)
      (¬may → resolveVirtual s r acc fa va n = .error (trapOf Code.permission 0 fa)) ∧
      (may → physOk s r.master acc l.pa = false → resolveVirtual s r acc fa va n = .error (trapOf Code.accessDenied 0 fa)) ∧
      (may → physOk s r.master acc l.pa = true → accReady s acc l.pa n = true → (acc.writes = true → logReady s l.pa n = true) →
        ∃ p, resolveVirtual s r acc fa va n = .ok p ∧ p.key = l.pa ∧ p.len = n ∧ p.attr = l.attr ∧ p.layout = l.layout))) ∧
  (∀ (s : State) (r : Req) (acc : Acc) (fa addr : Word) (n : Nat), r.ctl = none → 0 < n →
    (addr.toNat < 2 ^ 55 → addr.toNat % 65536 + n ≤ 65536 →
      resolve s r acc fa addr n = (resolveVirtual s r acc fa addr.toNat n).map ([·])) ∧
    (2 ^ 55 ≤ addr.toNat → addr.toNat < 2 ^ 60 → resolve s r acc fa addr n = .error (trapOf Code.space 0 fa)))

/-- R44, R45: a compact instruction has the effect, the faults and the latency of the form that it names, and completes with them. -/
def Obligations.CompactForms : Prop :=
  (∀ (a b : BitVec 5) (q : BitVec 3) (s : State),
    let h : Hd := ⟨true, 0⟩
    exec (.compactAddX0 a b) s = exec (.add h a b 0) s ∧
    exec (.compactAdd a b) s = exec (.add h a a b) s ∧
    exec (.compactSub a b) s = exec (.sub h a a b) s ∧
    exec (.compactAnd a b) s = exec (.and h a a b) s ∧
    exec (.compactOr a b) s = exec (.or h a a b) s ∧
    exec (.compactXor a b) s = exec (.xor h a a b) s ∧
    exec (.compactAddi a b) s = exec (.addi h a a (b.signExtend 9)) s ∧
    exec (.compactMovi a b) s = exec (.movi h a (b.signExtend 14)) s ∧
    exec (.compactShli a b) s = exec (.shli h a a (b.zeroExtend 6)) s ∧
    exec (.compactShri a b) s = exec (.shri h a a (b.zeroExtend 6)) s ∧
    exec (.compactSari a b) s = exec (.sari h a a (b.zeroExtend 6)) s ∧
    exec (.compactLdd a b) s = exec (.ldd h a b 0 0) s ∧
    exec (.compactStd a b) s = exec (.std h a b 0 0) s ∧
    exec (.compactSaddi a b) s = exec (.saddi h (a.zeroExtend 6) b) s ∧
    exec (.compactQput q b) s = exec (.qput h q b) s ∧
    exec (.compactQget a q) s = exec (.qget h a q) s ∧
    exec .compactNop s = exec (.nop h) s ∧
    exec .compactEnd s = exec (.sysEnd h) s) ∧
  (∀ (a b : BitVec 5) (q : BitVec 3) (s : State),
    (Runs (.compactAddX0 a b) s → exec (.compactAddX0 a b) s = .next (s.writeX a (s.readX b) 1)) ∧
    (Runs (.compactAdd a b) s → exec (.compactAdd a b) s = .next (s.writeX a (s.readX a + s.readX b) 1)) ∧
    (Runs (.compactSub a b) s → exec (.compactSub a b) s = .next (s.writeX a (s.readX a - s.readX b) 1)) ∧
    (Runs (.compactAnd a b) s → exec (.compactAnd a b) s = .next (s.writeX a (s.readX a &&& s.readX b) 1)) ∧
    (Runs (.compactOr a b) s → exec (.compactOr a b) s = .next (s.writeX a (s.readX a ||| s.readX b) 1)) ∧
    (Runs (.compactXor a b) s → exec (.compactXor a b) s = .next (s.writeX a (s.readX a ^^^ s.readX b) 1)) ∧
    (Runs (.compactAddi a b) s → exec (.compactAddi a b) s = .next (s.writeX a (s.readX a + b.signExtend 64) 1)) ∧
    (Runs (.compactMovi a b) s → exec (.compactMovi a b) s = .next (s.writeX a (b.signExtend 64) 1)) ∧
    (Runs (.compactShli a b) s → exec (.compactShli a b) s = .next (s.writeX a (s.readX a <<< b.toNat) 1)) ∧
    (Runs (.compactShri a b) s → exec (.compactShri a b) s = .next (s.writeX a (s.readX a >>> b.toNat) 1)) ∧
    (Runs (.compactSari a b) s → exec (.compactSari a b) s = .next (s.writeX a ((s.readX a).sshiftRight b.toNat) 1)) ∧
    (Runs (.compactSaddi a b) s → (s.mySlot.semAt a.toNat).toNat + b.toNat < 2 ^ 32 →
      exec (.compactSaddi a b) s = .next (s.setSlot s.me.slot (s.mySlot.setSem a.toNat (s.mySlot.semAt a.toNat + b.zeroExtend 32)))) ∧
    (Runs (.compactQput q b) s → (s.mySlot.queue q.toNat).length < 16 →
      exec (.compactQput q b) s = .next (s.setSlot s.me.slot (s.mySlot.setQueue q.toNat (s.mySlot.queue q.toNat ++ [s.readX b])))) ∧
    (∀ v l, Runs (.compactQget a q) s → s.mySlot.queue q.toNat = v :: l →
      exec (.compactQget a q) s = .next ((s.setSlot s.me.slot (s.mySlot.setQueue q.toNat l)).writeX a v 1)) ∧
    (Runs .compactNop s → exec .compactNop s = .next s) ∧
    (Runs .compactEnd s → ∃ t, exec .compactEnd s = .next t ∧ (t.stream s.me).ended = true ∧ (t.stream s.me).blk = none ∧
      (t.stream s.me).pend = [] ∧ t.issue.outcome = .ended))

/-- R48, R57 to R62, R67 to R69, R109: guards, and the checks of a bundle. -/
def Obligations.GuardsAndBundles : Prop :=
  (∀ (i : Instr) (s : State), wordFault s.me i = none → takesGuard i = false → (s.guard i.hd = 0 ∨ (s.on i.hd = false ∧ byLanes i = false)) →
    exec i s = .next s) ∧
  (∀ (g : Agent) (b : Block) (t : Trap) (s : State), (s.stream g).blk = some b →
    let r := gather s g b (longest g + 1) b.pos b.body []
    (r.fault = some t ∧ t.code ≠ Code.uncontained ∨ r.fault = none ∧ bundleFault g r = some t) →
    issueAgent s g = .next (takeFault (begun s g none) t) ∧
    (t.code ≠ 0 → g.slot < 3072 → (s.slot g.slot).state ≠ .trapped → ((s.slot g.slot).state = .killing → (s.slot g.slot).trapRec = none) →
      let u := takeFault (begun s g none) t
      SameRegisters s u ∧ SameMemory s u ∧ ∀ m, let x := u.slot m
        let y := s.slot m
        x.sem = y.sem ∧ x.q = y.q ∧ x.cq = y.cq ∧ x.fq = y.fq ∧ x.nests = y.nests ∧ x.rings = y.rings ∧ x.ports = y.ports)) ∧
  (∀ (g : Agent) (b : Block) (p : Parcel) (body : List Parcel) (s : State), (s.stream g).blk = some b → b.pos < b.len →
    parcelAt s g b b.body b.pos = .ok (p, body) →
    let place : Word := b.hdr + 4 + BitVec.ofNat 64 (2 * b.pos)
    let faults (code sub : Nat) : Prop := issueAgent s g = .next (takeFault (begun s g none) (trapOf code sub place))
    (isHeaderParcel p = true → faults Code.illegalOp 7) ∧
    (isHeaderParcel p = false → parcelCount p = 1 → (∀ e, decodeParcels p 0 = .error e → faults Code.illegalOp e.sub) ∧
      (∀ i c n, decodeParcels p 0 = .ok i → wordFault g i = some (c, n) → faults c n)) ∧
    (isHeaderParcel p = false → parcelCount p ≠ 1 → b.len ≤ b.pos + 1 → faults Code.illegalOp 8) ∧
    (∀ q body1, isHeaderParcel p = false → parcelCount p ≠ 1 → b.pos + 1 < b.len → parcelAt s g b body (b.pos + 1) = .ok (q, body1) →
      (∀ e, decodeParcels p q = .error e → faults Code.illegalOp e.sub) ∧
      (∀ i c n, decodeParcels p q = .ok i → wordFault g i = some (c, n) → faults c n))) ∧
  (∀ (g : Agent) (r : Run),
    let v : Prop := isJob g.slot = true ∧ g.st = .v
    let isOpen (w : BWord) : Prop := w.instr.isCompact = false ∧ w.instr.hd.s = false
    let faults (sub : Nat) (w : Word) : Prop := bundleFault g r = some (trapOf Code.illegalBundle sub w)
    let kind (k : VSlot) : Nat := r.words.countP fun w => vslot w.instr.op == some k
    let mOpen : Prop := isJob g.slot = true ∧ g.st = .m ∧ ∃ w, w ∈ r.words ∧ isOpen w
    let atEnd : Prop := r.open_ = true ∧ ∃ w, r.words.getLast? = some w ∧ isOpen w
    let sound : Prop := ¬mOpen ∧ r.compact = none ∧ ¬atEnd ∧ r.words.length ≤ longest g
    let clash : Prop := if v then 1 < kind .scalar ∨ 1 < kind .compare ∨ 2 < kind .vector ∨
        1 < r.words.countP (fun w => decide (0x37 ≤ w.instr.op) && decide (w.instr.op ≤ 0x39))
      else ¬r.words.Pairwise fun w x => aGroup w.instr.op = 0 ∨ aGroup w.instr.op ≠ aGroup x.instr.op
    let early : Prop := ¬v ∧ ∃ w, w ∈ r.words.dropLast ∧ aGroup w.instr.op = 1
    let double : Prop := ¬r.words.Pairwise fun w x => ∀ d, d ∈ dests w.instr → d ∉ dests x.instr
    (v → ∀ w, w ∈ r.words → (vslot w.instr.op).isSome = true) →
    (mOpen → ∃ w, w ∈ r.words ∧ isOpen w ∧ faults 6 w.addr) ∧
    (¬mOpen → ∀ a, r.compact = some a → faults 5 a) ∧
    (¬mOpen → r.compact = none → atEnd → ∀ w, r.words.getLast? = some w → faults 4 w.addr) ∧
    (¬mOpen → r.compact = none → ¬atEnd → ∀ w, r.words[longest g]? = some w → faults 1 w.addr) ∧
    (sound → clash → ∃ w, w ∈ r.words ∧ faults 2 w.addr) ∧
    (sound → ¬clash → early → ∃ w, w ∈ r.words ∧ aGroup w.instr.op = 1 ∧ faults 7 w.addr) ∧
    (sound → ¬clash → ¬early → double → ∃ w, w ∈ r.words ∧ faults 3 w.addr) ∧
    (sound → ¬clash → ¬early → ¬double → bundleFault g r = none))

/-- R119, R120: the pair that a scalar compare writes. In the V stream the old value is bit 0 of P(2k) (log 32, the model's choice). -/
def Obligations.CompareWritesPair : Prop :=
  ∀ (h : Hd) (p : BitVec 3) (a b : BitVec 5) (c : BitVec 4) (k : BitVec 2) (s : State), c.toNat ≤ 11 →
    let even := 2 * p.toNat
    let pair (new : Bool) : State := (s.writeP even (spread new) s.predMask 1).writeP (even + 1) (spread (!new)) s.predMask 1
    let wrote (x y : Word) (n : Nat) (o : Host.Outcome State Fault Refusal) : Prop := ∃ new cnd : Bool,
      o = .next (pair new) ∧
      (c = 0 → cnd = decide (x = y)) ∧ (c = 1 → cnd = decide (x ≠ y)) ∧
      (c = 2 → cnd = decide (x.toInt < y.toInt)) ∧ (c = 3 → cnd = decide (y.toInt ≤ x.toInt)) ∧
      (c = 4 → cnd = decide (x.toNat < y.toNat)) ∧ (c = 5 → cnd = decide (y.toNat ≤ x.toNat)) ∧
      (c = 6 → cnd = decide (x.toInt ≤ y.toInt)) ∧ (c = 7 → cnd = decide (y.toInt < x.toInt)) ∧
      (c = 8 → cnd = decide (x.toNat ≤ y.toNat)) ∧ (c = 9 → cnd = decide (y.toNat < x.toNat)) ∧
      (c = 10 → cnd = x.getLsbD n) ∧ (c = 11 → cnd = !x.getLsbD n) ∧
      (let old := (s.readStream.readP even).getLsbD 0
       new = if k = 0 then cnd else if k = 1 then old && cnd else if k = 2 then old || cnd else xor old cnd)
    (Runs (.cmp h p a b c k) s → wrote (s.readX a) (s.readX b) ((s.readX b).toNat % 64) (exec (.cmp h p a b c k) s)) ∧
    (Runs (.cmpi h p a b c k) s → wrote (s.readX a) (b.signExtend 64) b.toNat (exec (.cmpi h p a b c k) s)) ∧
    (p = 0 → ∀ new, pair new = s) ∧
    (p ≠ 0 → s.myStream.exposed = false → ∀ new j, j < 256 → (j = 0 ∨ s.me.st = .v) →
      (s.named (pair new) even).getLsbD j = new ∧ (s.named (pair new) (even + 1)).getLsbD j = !new) ∧
    (s.myStream.exposed = false → ∀ new, OnlyPredicates s (pair new) [even, even + 1])

/-- R122, R62, R121: the bits that PLOG writes under its guard, what a write of a predicate does, and the count that PCNT writes. -/
def Obligations.PredicateWords : Prop :=
  (∀ (h : Hd) (d a b : BitVec 4) (x : BitVec 5) (s : State),
    let wrote (i : Instr) (f : Nat → Bool) : Prop := wordFault s.me i = none →
      ∃ v : BitVec 256, exec i s = .next (s.writeP d.toNat v (s.guard h &&& s.predMask) 1) ∧ ∀ j, j < 256 → v.getLsbD j = f j
    wrote (.pand h d a b) (fun j => (s.readP a).getLsbD j && (s.readP b).getLsbD j) ∧
    wrote (.por h d a b) (fun j => (s.readP a).getLsbD j || (s.readP b).getLsbD j) ∧
    wrote (.pxor h d a b) (fun j => xor ((s.readP a).getLsbD j) ((s.readP b).getLsbD j)) ∧
    wrote (.pandn h d a b) (fun j => (s.readP a).getLsbD j && !(s.readP b).getLsbD j) ∧
    wrote (.pnot h d a) (fun j => !(s.readP a).getLsbD j) ∧
    wrote (.pmov h d a) (fun j => (s.readP a).getLsbD j) ∧
    wrote (.pbcast h d a) (fun _ => (s.readP a).getLsbD 0) ∧
    (Runs (.pcnt h x a) s → exec (.pcnt h x a) s = .next (s.writeX x (BitVec.ofNat 64
      ((List.range 256).filter fun j => (decide (j = 0) || decide (s.me.st = .v)) && (s.readP a).getLsbD j).length) 2))) ∧
  (∀ (s : State) (i : Nat) (v en : BitVec 256) (lat : Nat), i < 16 →
    let t := s.writeP i v en lat
    (i ≤ 1 → t = s) ∧
    (s.myStream.exposed = false → OnlyPredicates s t [i] ∧
      (2 ≤ i → ∀ j, j < 256 → (s.named t i).getLsbD j = if en.getLsbD j then v.getLsbD j else (s.named s i).getLsbD j)) ∧
    (2 ≤ i → s.myStream.exposed = true → t = s.setStream s.me { s.myStream with
      pend := s.myStream.pend ++ [{ val := .p (physP s.readStream.rrb i) v en, flags := 0, remain := lat }] })) ∧
  (∀ (s : State) (j : Nat), j < 256 → s.predMask.getLsbD j = (decide (j = 0) || decide (s.me.st = .v)))

/-- R123 to R126, R141: where the transfers go, what CALL and CALLR write, and what a bad target raises. That the transferring bundle
itself has run by then is the model's reading of R126 (log 14). -/
def Obligations.Transfers : Prop :=
  ∀ (h : Hd) (o : BitVec 19) (o16 : BitVec 16) (a : BitVec 5) (q : BitVec 3) (s : State),
    let goes (i : Instr) (u : State) (t : Word) : Prop := Runs i s → exec i s = .next
      { u.setStream s.me { u.stream s.me with blk := none, pc := t, arrival := .transfer } with
        issue := { u.issue with outcome := .branched } }
    let near := s.readStream.header + o.signExtend 64 * 2
    let near16 := s.readStream.header + o16.signExtend 64 * 2
    let back := s.writeX 30 s.readStream.nextHeader 1
    let popped (l : List Word) := s.setSlot s.me.slot (s.mySlot.setQueue q.toNat l)
    goes (.br h o) s near ∧ goes (.jmp h a) s (s.readX a) ∧ goes (.ret h) s (s.readX 30) ∧
    goes (.call h o) back near ∧ goes (.callr h a) back (s.readX a) ∧
    (∀ v l, s.mySlot.queue q.toNat = v :: l → v ≠ 0 → goes (.brq h q o16) (popped l) near16) ∧
    (∀ l, s.mySlot.queue q.toNat = 0 :: l → Runs (.brq h q o16) s → exec (.brq h q o16) s = .next (popped l)) ∧
    (∀ b : Block, s.readStream.blk = some b → s.readStream.header = b.hdr ∧
      s.readStream.nextHeader = b.hdr + 4 + BitVec.ofNat 64 (2 * b.len)) ∧
    (∀ (g : Agent), (s.stream g).blk = none → (s.stream g).arrival = .transfer →
      ((s.stream g).pc.getLsbD 0 = true ∨ ∃ p, fetchParcel s g (s.stream g).pc = .ok p ∧ isHeaderParcel p = false) →
      issueAgent s g = .next (takeFault (begun s g none) (trapOf Code.illegalOp 5 (s.stream g).pc)))

/-- R127 to R129, R117, R152, R513: what a scalar load reads, and where it waits or faults instead. That a load of two lines arms the
monitor on the second is the model's choice (log 135), and so are SPACE for a literal outside space 0x0 (log 134) and the consumption of
a page table's bad data (log 167). -/
def Obligations.LoadsRead : Prop :=
  ∀ (h : Hd) (d a o : BitVec 5) (c : BitVec 4) (i : BitVec 14) (s : State),
    let ea (n : Nat) : Word := s.readX a + BitVec.ofNat 64 (o.toNat * n)
    let lit : Word := BitVec.ofNat 64 (s.readStream.header.toNat / 8 * 8) + i.signExtend 64 * 8
    let reads (w : Instr) (e : Word) (n : Nat) (arms : Bool) : Prop := Runs w s →
      let loaded (ps : List Piece) (p : Piece) (bs : List Byte) : State :=
        let u := readUses s (myReq s) e.toNat n ps
        (if arms then u.setStream s.me { s.myStream with monitor := some ⟨(p.key + p.len - 1) / 128, false⟩ } else u).writeX d (leWord bs) 4
      ((myReq s).ctl = none →
        (∀ ps p, resolveAccess s (myReq s) .r e e n = .ok ps → ps.getLast? = some p →
          ps.any (touchesEmpty s) = false → ps.any (touchesPoison s) = false →
          exec w s = .next (loaded ps p (piecesBytes s ps))) ∧
        (∀ ps, resolveAccess s (myReq s) .r e e n = .ok ps → ps.any (touchesEmpty s) = true →
          exec w s = .next (holdBundle s 4 0 (e.setWidth 32))) ∧
        (∀ ps, resolveAccess s (myReq s) .r e e n = .ok ps → ps.any (touchesEmpty s) = false → ps.any (touchesPoison s) = true →
          exec w s = .next (consumePoison s)) ∧
        (∀ t, resolveAccess s (myReq s) .r e e n = .error t → exec w s = .next (takeTrap s t))) ∧
      (∀ cn, (myReq s).ctl = some cn →
        (∀ p, resolveLocal s cn e e.toNat n = .ok p → reachedReg s cn e.toNat = none →
          exec w s = .next (loaded [p] p (pieceBytes s p))) ∧
        (∀ p r, resolveLocal s cn e e.toNat n = .ok p → reachedReg s cn e.toNat = some r →
          exec w s = .next (loaded [p] p (((natBytes 8 (readLocal s cn r).toNat).drop (e.toNat % 8)).take n))) ∧
        (∀ t, resolveLocal s cn e e.toNat n = .error t → exec w s = .next (takeTrap s t)))
    reads (.ldb h d a c o) (ea 1) 1 true ∧ reads (.ldh h d a c o) (ea 2) 2 true ∧ reads (.ldw h d a c o) (ea 4) 4 true ∧
    reads (.ldd h d a c o) (ea 8) 8 true ∧ reads (.compactLdd d a) (s.readX a) 8 true ∧
    (lit.toNat < 2 ^ 60 → reads (.ldlit h d i) lit 8 false) ∧
    (2 ^ 60 ≤ lit.toNat → Runs (.ldlit h d i) s → exec (.ldlit h d i) s = .next (takeFault s (trapOf Code.space 0 lit)))

/-- R127 to R129, R513, R523: what a scalar store writes, at the address that it computes, and what it leaves as it was. -/
def Obligations.StoresWrite : Prop :=
  ∀ (h : Hd) (d a o : BitVec 5) (c : BitVec 4) (s : State), Memory.wf s.mem = true →
    let ea (n : Nat) : Word := s.readX a + BitVec.ofNat 64 (o.toNat * n)
    let stores (w : Instr) (e : Word) (n : Nat) : Prop := Runs w s →
      let bs := natBytes n (s.readX d).toNat
      ((myReq s).ctl = none →
        (∀ ps, resolveAccess s (myReq s) .w e e n = .ok ps → ∃ t, exec w s = .next t ∧
          (∀ k, ¬ InPieces ps k → SameByte s t k) ∧
          (∀ g, (t.stream g).x = (s.stream g).x ∧ (t.stream g).p = (s.stream g).p ∧ (t.stream g).pc = (s.stream g).pc ∧
            (t.stream g).blk = (s.stream g).blk) ∧
          (∀ k, (t.core k).empty = (s.core k).empty ∧ (t.core k).tiles = (s.core k).tiles) ∧
          (∀ p, ps = [p] → isCxl p.key = false → readBytes t.mem p.key n = bs)) ∧
        (∀ f, resolveAccess s (myReq s) .w e e n = .error f → exec w s = .next (takeTrap s f))) ∧
      (∀ cn, (myReq s).ctl = some cn →
        let ended (u : State) (p : Piece) : State := breakLines u (some ⟨ctlSlot cn, .a⟩) (unitsOf 128 p.key p.len)
        (∀ p, resolveLocal s cn e e.toNat n = .ok p → withheld s cn e.toNat = false → reachedReg s cn e.toNat = none →
          exec w s = .next (ended { s with mem := writeBytes s.mem p.key bs } p)) ∧
        (∀ p r, resolveLocal s cn e e.toNat n = .ok p → withheld s cn e.toNat = false → reachedReg s cn e.toNat = some r →
          exec w s = .next (ended (writeLocal s cn r (mergeReg s cn r (e.toNat % 8) n bs)) p)) ∧
        (∀ p, resolveLocal s cn e e.toNat n = .ok p → withheld s cn e.toNat = true → exec w s = .next (stallBundle s)) ∧
        (∀ f, resolveLocal s cn e e.toNat n = .error f → exec w s = .next (takeTrap s f)))
    stores (.stb h d a c o) (ea 1) 1 ∧ stores (.sth h d a c o) (ea 2) 2 ∧ stores (.stw h d a c o) (ea 4) 4 ∧
    stores (.std h d a c o) (ea 8) 8 ∧ stores (.compactStd d a) (s.readX a) 8

/-- R130 to R134, R129, R513: what an atomic reads, writes and returns, and where it waits or faults. That SPACE comes before MISALIGN
where both hold is the model's choice (log 17). -/
def Obligations.AtomicsAct : Prop :=
  (∀ (h : Hd) (d a b : BitVec 5) (f : BitVec 4) (s : State),
    let e := s.readX a
    let x := s.readX b
    let acts (w : Instr) (n : Nat) (spaces : List Nat) (new : Nat → Option Nat) (post : State → Nat → State) : Prop := Runs w s →
      (e.toNat / 2 ^ 60 ∈ spaces → e.toNat % n = 0 → (myReq s).ctl = none →
        (∀ ps, resolveAccess s (myReq s) .rw e e n = .ok ps →
          (ps.any (touchesEmpty s) = true → exec w s = .next (holdBundle s 4 0 (e.setWidth 32))) ∧
          (ps.any (touchesEmpty s) = false → ps.any (touchesPoison s) = true → exec w s = .next (consumePoison s)) ∧
          (ps.any (touchesEmpty s) = false → ps.any (touchesPoison s) = false →
            let old := bytesNat (piecesBytes s ps)
            exec w s = .next (post (match new old with
              | some v => writePieces (walked s (myReq s) e.toNat n) (myReq s) ps (natBytes n v)
              | none => readUses s (myReq s) e.toNat n ps) old))) ∧
        (∀ t, resolveAccess s (myReq s) .rw e e n = .error t → exec w s = .next (takeTrap s t))) ∧
      (e.toNat / 2 ^ 60 ∈ spaces → e.toNat % n = 0 → ∀ cn, (myReq s).ctl = some cn →
        (∀ p bs, resolveLocal s cn e e.toNat n = .ok p → ctlRead s cn e n = .ok bs →
          (∀ v u, new (bytesNat bs) = some v → ctlWrite s cn e (natBytes n v) = .ok u → exec w s = .next (post u (bytesNat bs))) ∧
          (∀ v t, new (bytesNat bs) = some v → ctlWrite s cn e (natBytes n v) = .error t → exec w s = .next (takeTrap s t)) ∧
          (new (bytesNat bs) = none → exec w s = .next (post (readUses s (myReq s) e.toNat n [p]) (bytesNat bs)))) ∧
        (∀ t, ctlRead s cn e n = .error t → exec w s = .next (takeTrap s t))) ∧
      (e.toNat / 2 ^ 60 ∉ spaces → exec w s = .next (takeFault s (trapOf Code.space 0 e))) ∧
      (e.toNat / 2 ^ 60 ∈ spaces → e.toNat % n ≠ 0 → exec w s = .next (takeFault s (trapOf Code.misalign 0 e)))
    let all := [0, 8, 9, 10]
    let giveD (t : State) (old : Nat) : State := t.writeX d (BitVec.ofNat 64 old) 4
    let ticket (t : State) (old : Nat) : State := { giveD t old with ascTicket := t.ascTicket + 1 }
    let op64 (old : Nat) : Option Nat := some (amoOp f.toNat (BitVec.ofNat 64 old) x).toNat
    let cas64 (old : Nat) : Option Nat := if old = (s.readX d).toNat then some x.toNat else none
    acts (.amo h d a b f) 8 all op64 giveD ∧
    acts (.amow h d a b f) 4 all (fun old => some (amoOp f.toNat (BitVec.ofNat 32 old) (x.setWidth 32)).toNat) giveD ∧
    (f.toNat ≤ 8 → acts (.amon h a b f) 8 all op64 (fun t _ => t)) ∧
    (f = 9 → acts (.amon h a b f) 4 all (fun old => some (faddCode fp32 old (x.toNat % 2 ^ 32))) (fun t _ => t)) ∧
    (f = 10 → acts (.amon h a b f) 8 all (fun old => some (faddCode fp64 old x.toNat)) (fun t _ => t)) ∧
    acts (.cas h d a b) 8 all cas64 giveD ∧
    acts (.casw h d a b) 4 all (fun old => if old = (s.readX d).toNat % 2 ^ 32 then some (x.toNat % 2 ^ 32) else none) giveD ∧
    acts (.asc h d a b f) 8 [0, 10] op64 ticket ∧
    acts (.ascCas h d a b) 8 [0, 10] cas64 ticket) ∧
  (∀ (w : Nat) (o x : BitVec w), amoOp 0 o x = o + x ∧ amoOp 1 o x = o &&& x ∧ amoOp 2 o x = o ||| x ∧ amoOp 3 o x = o ^^^ x ∧
    (amoOp 4 o x).toInt = min o.toInt x.toInt ∧ (amoOp 5 o x).toInt = max o.toInt x.toInt ∧
    (amoOp 6 o x).toNat = min o.toNat x.toNat ∧ (amoOp 7 o x).toNat = max o.toNat x.toNat ∧ amoOp 8 o x = x) ∧
  (∀ a b : Nat, (fp32.decode a).isNan = true → faddCode fp32 a b = 0x7FC00000) ∧
  (∀ a b : Nat, (fp64.decode a).isNan = true → faddCode fp64 a b = 0x7FF8000000000000)

/-- R136: the effects of the SEM words and what the decoder refuses. -/
def Obligations.SemaphoreWords : Prop :=
  (∀ (h : Hd) (d a i : BitVec 5) (n : BitVec 6) (s : State),
    let sem := s.mySlot.semAt n.toNat
    let low : BitVec 32 := (s.readX a).extractLsb' 0 32
    let sets (v : BitVec 32) : State := s.setSlot s.me.slot (s.mySlot.setSem n.toNat v)
    let adds (w : Instr) (v : Nat) : Prop := Runs w s →
      (sem.toNat + v < 2 ^ 32 → exec w s = .next (sets (BitVec.ofNat 32 (sem.toNat + v)))) ∧
      (2 ^ 32 ≤ sem.toNat + v → exec w s = .next (takeFault s (trapOf Code.semOverflow 0)))
    adds (.sadd h n a) low.toNat ∧ adds (.saddi h n i) i.toNat ∧
    (Runs (.swait h n a) s → low.toNat ≤ sem.toNat → exec (.swait h n a) s = .next s) ∧
    (Runs (.swait h n a) s → sem.toNat < low.toNat → exec (.swait h n a) s = .next (holdBundle s 3 n.toNat low)) ∧
    (Runs (.sread h d n) s → exec (.sread h d n) s = .next (s.writeX d (sem.zeroExtend 64) 1)) ∧
    (Runs (.sset h n a) s → exec (.sset h n a) s = .next (sets low)) ∧
    (∀ (v : BitVec 32) (k : Nat), k ≠ n.toNat → ((sets v).slot s.me.slot).semAt k = s.mySlot.semAt k) ∧
    (∀ v : BitVec 32, ((sets v).slot s.me.slot).semAt n.toNat = v)) ∧
  (∀ (g : BitVec 4) (e : BitVec 1) (d a : BitVec 5) (n : BitVec 6) (f : BitVec 3),
    let word : W32 := 2#2 ++ e ++ g ++ 0x1E#6 ++ d ++ n ++ a ++ f
    (5 ≤ f.toNat → decodeOp word = .error .reservedFn) ∧
    (f.toNat ≤ 4 → f ≠ 3 → d ≠ 0 → decodeOp word = .error .reservedField) ∧
    (f = 3 → a ≠ 0 → decodeOp word = .error .reservedField) ∧
    (f = 1 → a = 0 → decodeOp word = .error .reservedField))

/-- R139 to R141: the effects of the QUEUE words, their waits, and who may use them. -/
def Obligations.QueueWords : Prop :=
  (∀ (h : Hd) (d a : BitVec 5) (q : BitVec 3) (o : BitVec 16) (s : State),
    let l := s.mySlot.queue q.toNat
    let sets (l : List Word) : State := s.setSlot s.me.slot (s.mySlot.setQueue q.toNat l)
    (Runs (.qput h q a) s → l.length < 16 → exec (.qput h q a) s = .next (sets (l ++ [s.readX a]))) ∧
    (Runs (.qput h q a) s → 16 ≤ l.length → exec (.qput h q a) s = .next (holdBundle s 2 q.toNat 0)) ∧
    (∀ v r, l = v :: r → Runs (.qget h d q) s → exec (.qget h d q) s = .next ((sets r).writeX d v 1)) ∧
    (l = [] → Runs (.qget h d q) s → exec (.qget h d q) s = .next (holdBundle s 1 q.toNat 0)) ∧
    (l = [] → Runs (.brq h q o) s → exec (.brq h q o) s = .next (holdBundle s 1 q.toNat 0)) ∧
    (Runs (.qcount h d q) s → exec (.qcount h d q) s = .next (s.writeX d (BitVec.ofNat 64 l.length) 1)) ∧
    (Runs (.qflush h q) s → exec (.qflush h q) s = .next (sets [])) ∧
    (∀ r k, k ≠ q.toNat → ((sets r).slot s.me.slot).queue k = s.mySlot.queue k) ∧
    (∀ r, ((sets r).slot s.me.slot).queue q.toNat = r)) ∧
  (∀ (h : Hd) (d a : BitVec 5) (q : BitVec 3) (o : BitVec 16) (g : Agent), isJob g.slot = true →
    let writer : StreamId := if q.toNat ≤ 1 ∨ q = 4 then .a else if q = 5 ∨ q = 7 then .m else .v
    let reader : StreamId := if q = 2 ∨ q = 3 ∨ q = 5 then .a else if q = 4 ∨ q = 6 then .m else .v
    let refused (i : Instr) : Prop := wordFault g i = some (Code.illegalStream, 0)
    (g.st ≠ writer → refused (.qput h q a)) ∧ (g.st ≠ reader → refused (.qget h d q) ∧ refused (.qflush h q) ∧ refused (.brq h q o)) ∧
    (g.st ≠ writer → g.st ≠ reader → refused (.qcount h d q)) ∧
    (g.st = writer → wordFault g (.qput h q a) = none ∧ wordFault g (.qcount h d q) = none) ∧
    (g.st = reader → wordFault g (.qget h d q) = none ∧ wordFault g (.qflush h q) = none ∧ wordFault g (.brq h q o) = none ∧
      wordFault g (.qcount h d q) = none))

/-- R143 to R147, R174, R175, R207, R209, R212: reading and writing control and status registers. -/
def Obligations.ControlRegisterWords : Prop :=
  (∀ (h : Hd) (d a : BitVec 5) (s : State), s.issue.view = none → isJob s.me.slot = true →
    let reads (c : BitVec 12) (v : Word) : Prop := Runs (.csrr h d c) s → exec (.csrr h d c) s = .next (s.writeX d v 1)
    let does (c : BitVec 12) (old : Word) (o : Word → Host.Outcome State Fault Refusal) : Prop :=
      (Runs (.csrw h a c) s → exec (.csrw h a c) s = o (s.readX a)) ∧
      (Runs (.csrwSet h a c) s → exec (.csrwSet h a c) s = o (old ||| s.readX a)) ∧
      (Runs (.csrwClr h a c) s → exec (.csrwClr h a c) s = o (old &&& ~~~(s.readX a)))
    let writes (c : BitVec 12) (old : Word) (t : Word → State) : Prop := does c old fun v => .next (t v)
    let st := s.myStream
    let sl := s.mySlot
    let core := s.me.slot / 2
    let put (u : Slot) : State := s.setSlot s.me.slot u
    reads 0x000 (st.lc.zeroExtend 64) ∧ reads 0x001 (st.rrb.zeroExtend 64) ∧ reads 0x002 (st.acls.zeroExtend 64) ∧
    reads 0x003 (BitVec.ofNat 64 ((if st.iterPend then 2 ^ 32 else 0) + st.iterCnt.toNat)) ∧
    reads 0x004 0 ∧ reads 0x005 (st.cmdidx.zeroExtend 64) ∧
    reads 0x006 (BitVec.ofNat 64 (128 * (s.me.slot % 2) + (match st.blk with | some b => if b.stg then 8 else 0 | none => 0) +
      (if st.exposed then 4 else 0) + (match s.me.st with | .a => 0 | .m => 1 | .v => 2))) ∧
    reads 0x100 (BitVec.ofNat 64 (sl.job.launchid.toNat * 2 ^ 32 + sl.prio % 4 * 2 ^ 30 + (sl.levels - 1) % 8 * 2 ^ 27 +
      (if sl.coresident then 2 ^ 26 else 0))) ∧
    reads 0x101 sl.job.frame ∧
    (Runs (.csrr h d 0x102) s → ∃ v : Word, exec (.csrr h d 0x102) s = .next (s.writeX d v 1) ∧ v.toNat < 2 ^ 20 ∧ ∀ i, i < 4 →
      v.toNat / 16 ^ i % 16 = (if sl.holdsTile i then 8 + typeCode (s.tileType core i) else 0) ∧
      v.getLsbD (16 + i) = sl.nests.any fun e => e.started && e.tiles.contains i) ∧
    reads 0x103 (sl.vwin.zeroExtend 64) ∧ reads 0x104 (sl.vlive.zeroExtend 64) ∧
    reads 0x105 (BitVec.ofNat 64 (sl.vflags.toNat * 256 + sl.vrm.toNat)) ∧ reads 0x106 (sl.rndseed.zeroExtend 64) ∧
    (∀ j, j < 8 → reads (BitVec.ofNat 12 (0x108 + j)) (sl.levelIdx.getD j 0)) ∧
    (∀ n, n < 8 →
      let p := sget sl.ports {} n
      let at_ (f : Nat) : BitVec 12 := BitVec.ofNat 12 (0x200 + 0x20 * n + f)
      let sets (p : Port) : State := put { sl with ports := sput sl.ports n p }
      let type := BitVec.ofNat 64 ((if p.run then 2 ^ 31 else 0) + (if p.exh then 2 ^ 30 else 0)) ||| p.type
      reads (at_ 0) p.base ∧ reads (at_ 1) type ∧
      writes (at_ 0) p.base (fun v => sets { p with base := v }) ∧
      writes (at_ 1) type (fun v => sets { p with type := v &&& 0x1F11 }) ∧
      (∀ k : Fin 6, reads (at_ (8 + k)) p.cnt[k] ∧ reads (at_ (16 + k)) p.stride[k] ∧
        writes (at_ (8 + k)) p.cnt[k] (fun v => sets { p with cnt := p.cnt.set k (v &&& 0xFFFFFFFF) }) ∧
        writes (at_ (16 + k)) p.stride[k] (fun v => sets { p with stride := p.stride.set k v }))) ∧
    (∀ n, n < 16 →
      let r := sget sl.rings {} n
      let at_ (f : Nat) : BitVec 12 := BitVec.ofNat 12 (0x300 + 0x10 * n + f)
      let sets (r : Ring) : State := put { sl with rings := sput sl.rings n r }
      let on := r.role.getLsbD 8
      reads (at_ 0) r.base ∧ reads (at_ 1) r.geom ∧ reads (at_ 2) r.role ∧
      reads (at_ 3) (BitVec.ofNat 64 ((if on then 2 ^ 63 else 0) + (if r.cfgerr then 2 ^ 62 else 0) + r.cons * 2 ^ 40 + r.prod * 2 ^ 32 +
        r.heldC.length * 2 ^ 24 + r.heldP.length * 2 ^ 16 + r.free * 2 ^ 8 + r.filled)) ∧
      reads (at_ 4) r.phasePc ∧ reads (at_ 5) r.phaseIter ∧ reads (at_ 6) r.commits ∧
      writes (at_ 0) r.base (fun v => if on then s else sets { r with base := v &&& 0x1FFF80 }) ∧
      writes (at_ 1) r.geom (fun v => if on then s else sets { r with geom := v &&& 0xFFFF7F }) ∧
      writes (at_ 2) r.role (fun v =>
        let role := v &&& 0x1F177
        if on then
          (if v.getLsbD 8 then s
           else if r.heldP = [] ∧ r.heldC = [] ∧ coupledQueued sl n = false then sets { r with role := role, cfgerr := false }
           else sets { r with cfgerr := true })
        else if v.getLsbD 8 then
          (if { r with role := role }.fits sl.partLen then
             setEmptyLines (sets { r with role := role, filled := 0, free := r.slots, prod := 0, cons := 0, commits := 0, heldP := []
                                          heldC := [], src := [], cfgerr := false }) core (ringLines sl r)
           else sets { r with role := role &&& 0x1F077, cfgerr := true })
        else sets { r with role := role })) ∧
    reads 0x400 (BitVec.ofNat 64 (core / 96 * 256 + core % 96)) ∧ reads 0x401 (BitVec.ofNat 64 s.tick) ∧
    reads 0x402 (s.core core).ballast ∧
    (∀ l n, s.launch sl.launch = some l → sl.job.rampSlot = some n →
      reads 0x403 (BitVec.ofNat 64 (min (n - l.rampFirst) 0xFFFF * 2 ^ 32 + sl.rampSlot.toNat))) ∧
    (sl.job.rampSlot = none → reads 0x403 (BitVec.ofNat 64 (0xFFFF * 2 ^ 32 + sl.rampSlot.toNat))) ∧
    reads 0x404 (BitVec.ofNat 64 (s.core core).fw.share) ∧
    reads 0x405 (BitVec.ofNat 64 ((s.core core).passInt.toNat * 65536 + sget s.ckpt.spares 4 (core / 96) * 256 +
      (match (s.core core).scan with | .run => (if nearScan s core then 1 else 0) | .drain => 1 | .deferred => 2))) ∧
    writes 0x000 (st.lc.zeroExtend 64) (fun v => s.setStream s.me { st with lc := v.extractLsb' 0 32 }) ∧
    writes 0x001 (st.rrb.zeroExtend 64) (fun v => s.setStream s.me { st with rrb := v.extractLsb' 0 8 }) ∧
    writes 0x002 (st.acls.zeroExtend 64) (fun v => s.setStream s.me { st with acls := v.extractLsb' 0 4 }) ∧
    does 0x103 (sl.vwin.zeroExtend 64) (fun v => .next (if sl.holdsTile (v.toNat % 4) then put { sl with vwin := v.extractLsb' 0 3 }
      else takeFault s (trapOf Code.tileType 1))) ∧
    writes 0x104 (sl.vlive.zeroExtend 64) (fun v => put { sl with vlive := v.extractLsb' 0 32 }) ∧
    writes 0x105 (BitVec.ofNat 64 (sl.vflags.toNat * 256 + sl.vrm.toNat))
      (fun v => put { sl with vflags := v.extractLsb' 8 5 ||| s.issue.flags, vrm := v.extractLsb' 0 2 }) ∧
    writes 0x106 (sl.rndseed.zeroExtend 64) (fun v => put { sl with rndseed := v.extractLsb' 0 32, gens := gensOf (v.extractLsb' 0 32) })) ∧
  (∀ (h : Hd) (a : BitVec 5) (s : State), isFw s.me.slot = true → Runs (.csrw h a 0x404) s →
    ∃ t, exec (.csrw h a 0x404) s = .next t ∧ (t.core (s.me.slot - 3072)).fw.share = max 1 (min (s.readX a).toNat 8) ∧
      SameMemory s t ∧ t.slots = s.slots) ∧
  (∀ (h : Hd) (d a : BitVec 5) (c : BitVec 12) (g : Agent), isJob g.slot = true →
    (c.toNat < 0x800 → csrExists c.toNat = false → wordFault g (.csrr h d c) = some (Code.illegalOp, 4)) ∧
    (c.toNat < 0x800 → csrWritable false c.toNat = false → wordFault g (.csrw h a c) = some (Code.illegalOp, 4)) ∧
    (0x800 ≤ c.toNat → wordFault g (.csrr h d c) = some (Code.privilege, 0) ∧ wordFault g (.csrw h a c) = some (Code.privilege, 0)))

/-- R135, R148 to R152: the system words of the job streams. FENCE: log 8. -/
def Obligations.SystemWords : Prop :=
  ∀ (h : Hd) (m16 : BitVec 16) (e m k : BitVec 3) (c : BitVec 14) (a : BitVec 5) (s : State),
    (Runs (.nop h) s → exec (.nop h) s = .next s) ∧
    (let waits := m16 ≠ 0 ∧ isJob s.me.slot = true ∧ s.me.st = .m ∧ ∃ r, r ∈ (s.core (slotCore s.me.slot)).port ∧ r.slot = s.me.slot
     (Runs (.fence h m16 e) s → ¬waits → exec (.fence h m16 e) s = .next s) ∧
     (Runs (.fence h m16 e) s → waits → exec (.fence h m16 e) s = .next (stallBundle s))) ∧
    (Runs (.trap h c) s → exec (.trap h c) s = .next (takeFault s { code := Code.software, sub := c.zeroExtend 64 })) ∧
    (Runs (.bkpt h) s → exec (.bkpt h) s = .next (takeFault s { code := Code.brk })) ∧
    (Runs (.sysEnd h) s → ∃ t, exec (.sysEnd h) s = .next t ∧ (t.stream s.me).ended = true ∧ (t.stream s.me).blk = none ∧
      (t.stream s.me).pend = [] ∧ t.issue.outcome = .ended ∧ SameMemory s t) ∧
    (let n := sget s.myStream.rdv 0 m.toNat + 1
     let there (j : StreamId) : Prop := m.getLsbD (streamBit j) = false ∨ j = s.me.st ∨ n ≤ (s.mySlot.stream j).rdvReached m.toNat
     (Runs (.rdv h m) s → there .a ∧ there .m ∧ there .v →
       exec (.rdv h m) s = .next (s.setStream s.me { s.myStream with rdv := sput s.myStream.rdv m.toNat n })) ∧
     (Runs (.rdv h m) s → ¬(there .a ∧ there .m ∧ there .v) → exec (.rdv h m) s = .next (holdBundle s 6 m.toNat 0))) ∧
    (Runs (.lbar h k) s → (s.launch s.mySlot.launch = none ∨ s.mySlot.coresident = false ∨ s.mySlot.job.leafv = false ∨
        ∃ l, s.launch s.mySlot.launch = some l ∧ l.levels.length ≤ k.toNat) →
      exec (.lbar h k) s = .next (takeFault s (trapOf Code.coschedule 3))) ∧
    (∀ l, Runs (.lbar h k) s → s.launch s.mySlot.launch = some l → s.mySlot.coresident = true → s.mySlot.job.leafv = true →
      k.toNat < l.levels.length →
      let n := sget s.myStream.lbar 0 k.toNat + 1
      let there := s.slots.filter fun u => sameGroup s.mySlot u.2 k.toNat &&
        (u.1 == s.me.slot || decide (n ≤ (u.2.stream s.me.st).lbarReached k.toNat))
      let left := l.arrived.filter fun u => u.path.take k.toNat == s.mySlot.levelIdx.take k.toNat && u.st == s.me.st && u.level == k.toNat &&
        decide (n ≤ u.count)
      exec (.lbar h k) s = if groupSize l k.toNat ≤ there.length + left.length
        then .next (s.setStream s.me { s.myStream with lbar := sput s.myStream.lbar k.toNat n }) else .next (holdBundle s 7 k.toNat 0)) ∧
    (∀ p, Runs (.mwait h a) s → resolve s (myReq s) .r (s.readX a) (s.readX a) 1 = .ok [p] →
      let stops := isJob s.me.slot = true ∧ (s.mySlot.state = .stopping ∨ (s.core (s.me.slot / 2)).fw.event.getLsbD (3 + s.me.slot % 2) = true)
      let held := (∃ mo, s.myStream.monitor = some mo ∧ mo.line = p.key / 128 ∧ mo.written = false) ∧ ¬stops
      (¬held → exec (.mwait h a) s = .next (s.setStream s.me { s.myStream with monitor := none })) ∧
      (held → exec (.mwait h a) s = .next (holdBundle s 8 0 ((s.readX a).extractLsb' 0 32))))

/-- R160 to R163: what a command word copies into its queue. The model's choices: BAD_CONTROL before a command's other faults (log 136),
and a fault before the wait for room (log 171). -/
def Obligations.CommandIssue : Prop :=
  (∀ (h : Hd) (d a b : BitVec 5) (f : BitVec 4) (s : State),
    let issues (w : Instr) (op fn : Nat) (b : BitVec 5) : Prop := Runs w s →
      let c : Cmd := { cw := s.readX d, opa := s.readX a, opb := s.readX b, op := op, fn := fn, cmdidx := s.readStream.cmdidx }
      let toFq : Bool := decide (0x29 ≤ op) && decide (op ≤ 0x2B)
      let queue := if toFq then s.mySlot.fq else s.mySlot.cq
      let grown := queue ++ [{ c with id := s.cmdCount }]
      (cmdFault c = none → queue.length < 32 → exec w s = .next ({ s with cmdCount := s.cmdCount + 1 }.setSlot s.me.slot
        (if toFq then { s.mySlot with fq := grown } else { s.mySlot with cq := grown }))) ∧
      (cmdFault c = none → 32 ≤ queue.length → exec w s = .next (holdBundle s 10 (if toFq then 1 else 0) 0)) ∧
      (∀ t, cmdFault c = some t → exec w s = .next (takeFault s t))
    issues (.cpyLin h d a b) 0x25 0 b ∧ issues (.cpyShp h d a b) 0x25 1 b ∧ issues (.cpySlot h d a b) 0x25 2 b ∧
    issues (.cpyFill h d a b) 0x25 3 b ∧ issues (.cpyCirc h d a b) 0x25 4 b ∧ issues (.gath h d a b) 0x26 0 b ∧
    issues (.scat h d a b) 0x26 1 b ∧ issues (.fput h d a b) 0x29 0 b ∧ issues (.fget h d a b) 0x29 1 b ∧
    issues (.fred h d a b f) 0x2A f.toNat b ∧ issues (.fsig h d a b) 0x2B 2 b ∧ issues (.fcoll h d a b) 0x2B 3 b ∧
    issues (.segdet h d a) 0x2C 2 0 ∧ issues (.segevict h d a) 0x2C 3 0 ∧ issues (.segdrop h d a) 0x2C 4 0 ∧
    issues (.cflush h d a b) 0x2D 0 b ∧ issues (.cinv h d a b) 0x2D 1 b ∧ issues (.cclean h d a b) 0x2D 2 b ∧
    issues (.cpref h d a b) 0x2D 3 b) ∧
  (∀ c : Cmd, c.cw.extractLsb' 40 4 ≠ 0 ∨ c.cw.extractLsb' 58 2 = 3 → cmdFault c = some (trapOf Code.illegalOp 0x0A))

/-- R174 to R177, R496, R498: the ring words, for the producer's side (`cons` false) and the consumer's. That a restarted phase's RACQ.C
takes the slot which it holds is the model's choice (log 43). -/
def Obligations.RingWords : Prop :=
  ∀ (h : Hd) (d n : BitVec 5) (s : State) (cons : Bool),
    let side : BitVec 1 := if cons then 1 else 0
    let k := n.toNat
    let t := s.mySlot
    let r := t.ring k
    let slots := max 1 r.slots
    let may : Prop := t.ringMask.testBit k = true ∧ r.enabled = true
    let ok : Prop := may ∧ r.agent cons = ringAgent s.me.st
    let addr (j : Nat) : Word := BitVec.ofNat 64 (2 ^ 63 + r.offset + j * r.slotBytes)
    let held := if cons then r.heldC else r.heldP
    let fresh : Prop := redoing s.myStream k = none ∨ r.heldC = []
    -- RACQ
    (cons = false → Runs (.racq h d n side) s → ok → 0 < r.free → exec (.racq h d n side) s = .next
      ((s.setSlot s.me.slot (t.setRing k
        { r with free := r.free - 1, heldP := r.heldP ++ [(r.prod, false)], prod := (r.prod + 1) % slots, src := sput r.src r.prod none })).writeX d
        (addr r.prod) 1)) ∧
    (cons = true → Runs (.racq h d n side) s → ok → fresh → 0 < r.filled → ∃ u, exec (.racq h d n side) s = .next (u.writeX d (addr r.cons) 1) ∧
      (u.slot s.me.slot).ring k = { r with filled := r.filled - 1, heldC := r.heldC ++ [(r.cons, false)], cons := (r.cons + 1) % slots
                                           phasePc := s.myStream.header
                                           phaseIter := BitVec.ofNat 64 (match s.myStream.blk with | some b => b.k | none => 0) } ∧
      (∃ p, (u.stream s.me).phase = some p ∧ p.ring = k ∧ p.x = s.myStream.x ∧ p.p = s.myStream.p ∧ p.lc = s.myStream.lc ∧
        p.rrb = s.myStream.rrb ∧ p.cancels = 0) ∧ SameMemory s u) ∧
    (cons = true → Runs (.racq h d n side) s → ok → ∀ ph j b, redoing s.myStream k = some ph → r.heldC.getLast? = some (j, b) →
      let queued := ∃ c, c ∈ t.cq ++ t.fq ∧ c.again = true ∧ cwRing c.cw = k
      (queued → exec (.racq h d n side) s = .next (holdBundle s 5 k 0)) ∧
      (¬queued → exec (.racq h d n side) s =
        .next ((s.setStream s.me { s.myStream with phase := some { ph with redo := false } }).writeX d (addr j) 1))) ∧
    (Runs (.racq h d n side) s → ok → (cons = true → fresh) → (if cons then r.filled else r.free) = 0 →
      exec (.racq h d n side) s = .next (holdBundle s 5 k 0)) ∧
    -- RREL
    (∀ j, Runs (.rrel h n side) s → ok → (held.find? (!·.2)).map (·.1) = some j →
      let after := held.map fun e => if e.1 = j then (e.1, true) else e
      let out := (after.takeWhile (·.2)).map (·.1)
      let rest := after.dropWhile (·.2)
      ∃ u, exec (.rrel h n side) s = .next u ∧ SameMemory s u ∧
        (u.slot s.me.slot).ring k = (if cons then { r with heldC := rest, free := r.free + out.length, commits := r.commits + 1 }
          else { r with heldP := rest, filled := r.filled + out.length }) ∧
        (∀ c l, l ∈ (u.core c).empty ↔
          if cons then l ∈ (s.core c).empty ∨ (c = s.myCore ∧ ∃ o, o ∈ out ∧ l ∈ slotLines t r o)
          else l ∈ (s.core c).empty ∧ ¬(c = s.myCore ∧ ∃ o, o ∈ out ∧ l ∈ slotLines t r o))) ∧
    (Runs (.rrel h n side) s → ok → (∀ e, e ∈ held → e.2 = true) → exec (.rrel h n side) s = .next (takeFault s (trapOf Code.ringProtocol 3))) ∧
    -- RCAN
    (Runs (.rcan h n side) s → ok → held ≠ [] → ∃ u, exec (.rcan h n side) s = .next u ∧ SameMemory s u ∧ u.cores = s.cores ∧
      (u.slot s.me.slot).ring k = if cons then
          { r with filled := r.filled + 1, heldC := r.heldC.dropLast, cons := (r.cons + slots - 1) % slots }
        else { r with free := r.free + 1, heldP := r.heldP.dropLast, prod := (r.prod + slots - 1) % slots }) ∧
    (Runs (.rcan h n side) s → ok → held = [] → exec (.rcan h n side) s = .next (takeFault s (trapOf Code.ringProtocol 3))) ∧
    -- RSTAT
    (Runs (.rstat h d n) s → t.ringMask.testBit k = true → exec (.rstat h d n) s = .next (s.writeX d (s.readSlot.ring k).stat 1)) ∧
    (Runs (.rstat h d n) s → t.ringMask.testBit k = false → exec (.rstat h d n) s = .next (takeFault s (trapOf Code.ringProtocol 1))) ∧
    -- the checks
    (∀ i, i = Instr.racq h d n side ∨ i = Instr.rrel h n side ∨ i = Instr.rcan h n side → Runs i s →
      (¬may → exec i s = .next (takeFault s (trapOf Code.ringProtocol 1))) ∧
      (may → r.agent cons ≠ ringAgent s.me.st → exec i s = .next (takeFault s (trapOf Code.ringProtocol 2))))

/-- R179: the full and empty bits that software sets and reads. The order of FEMPTY's faults is the model's choice (log 155). -/
def Obligations.LineWords : Prop :=
  ∀ (h : Hd) (d a b : BitVec 5) (s : State),
    let e := s.readX a
    let n := (s.readX b).toNat
    let sp : Prop := e.toNat / 2 ^ 60 = 8 ∨ e.toNat / 2 ^ 60 = 9
    (Runs (.fempty h a b) s → n = 0 → exec (.fempty h a b) s = .next s) ∧
    (∀ ps, Runs (.fempty h a b) s → 0 < n → n ≤ 16384 → sp → e.toNat % 128 = 0 →
      resolve s (myReq s) .w e e (128 * n) = .ok ps → ∃ t, exec (.fempty h a b) s = .next t ∧ SameMemory s t ∧ t.slots = s.slots ∧
      (∀ c l, l ∈ (t.core c).empty ↔ l ∈ (s.core c).empty ∨ ∃ p, p ∈ ps ∧ padCore p.key = c ∧ l ∈ unitsOf 128 (padOff p.key) p.len)) ∧
    (Runs (.fempty h a b) s → 16384 < n → exec (.fempty h a b) s = .next (takeFault s (trapOf Code.illegalOp 0x0A))) ∧
    (Runs (.fempty h a b) s → 0 < n → n ≤ 16384 → ¬sp → exec (.fempty h a b) s = .next (takeFault s (trapOf Code.space 0 e))) ∧
    (Runs (.fempty h a b) s → 0 < n → n ≤ 16384 → sp → e.toNat % 128 ≠ 0 →
      exec (.fempty h a b) s = .next (takeFault s (trapOf Code.misalign 0 e))) ∧
    (∀ ps, Runs (.ftest h d a) s → sp → resolve s (myReq s) .r e e 1 = .ok ps →
      exec (.ftest h d a) s = .next (s.writeX d (if ∃ p, p ∈ ps ∧ touchesEmpty s p = true then 0 else 1) 1)) ∧
    (Runs (.ftest h d a) s → ¬sp → exec (.ftest h d a) s = .next (takeFault s (trapOf Code.space 0 e)))

/-- R183, R186: FLL and FSC from the request to the answer. The model's choices: the requester's number in ARRIVE (log 44), and a hold
that shows no wait of WAITST's (log 23). -/
def Obligations.RemoteAtomics : Prop :=
  ∀ (h : Hd) (d a b : BitVec 5) (s : State),
    let e := s.readX a
    let t := s.mySlot
    let st := s.me.st
    let held (u : State) : Host.Outcome State Fault Refusal := .next (stallBundle u)
    let does (w : Instr) (op : Nat) (data : List Byte) : Prop := Runs w s →
      (e.toNat / 2 ^ 60 ≠ 12 → exec w s = .next (takeFault s (trapOf Code.space 0 e))) ∧
      (e.toNat / 2 ^ 60 = 12 → e.toNat % 8 ≠ 0 → exec w s = .next (takeFault s (trapOf Code.misalign 0 e))) ∧
      (e.toNat / 2 ^ 60 = 12 → e.toNat % 8 = 0 → t.reply st 3 ≠ none → exec w s = .next (consumePoison s)) ∧
      (e.toNat / 2 ^ 60 = 12 → e.toNat % 8 = 0 → t.reply st 3 = none →
        (∀ v, t.reply st 1 = some v → exec w s = .next ((s.setSlot s.me.slot (t.clearReply st)).writeX d v 4)) ∧
        (∀ f, t.reply st 1 = none → t.reply st 2 = some f →
          exec w s = .next (takeFault s { code := f.toNat % 256, sub := f >>> 8, faddr := e })) ∧
        (∀ f, t.reply st 1 = none → t.reply st 2 = none → t.reply st 0 = some f → exec w s = held s) ∧
        (t.reply st 1 = none → t.reply st 2 = none → t.reply st 0 = none → ∃ u p, exec w s = held u ∧ SameMemory s u ∧
          (u.slot s.me.slot).reply st 0 = some 0 ∧
          sget u.fab.inq [] (vcNo 128 0 0) = sget s.fab.inq [] (vcNo 128 0 0) ++ [p] ∧
          p.pkt.op = op ∧ p.pkt.dest = e.toNat / 2 ^ 42 % 2 ^ 18 ∧ p.pkt.src = s.deviceId ∧ p.pkt.addr = e.toNat % 2 ^ 42 ∧
          p.pkt.data = data ∧ p.pkt.tag = s.fab.nextTag))
    does (.fll h d a) 5 [] ∧ does (.fsc h d a b) 6 (natBytes 8 (s.readX b).toNat)

/-- R187, R188, R192, R374, R376, R380: the words of the tarn directory. The model's choices: SEG_QUOTA 2 before lack of room (log 30),
and ABSENT of an ending tarn whose name is still kept (log 158). -/
def Obligations.TarnWords : Prop :=
  ∀ (h : Hd) (d a b : BitVec 5) (l w : BitVec 1) (s : State),
    let sl := s.mySlot
    let name := (s.readX a).toNat % 2 ^ 48
    let v := s.readX b
    let arg := BitVec.ofNat 32 name
    let baseOf (t : Tarn) : Word := t.base sl.partStart
    let grown (writer : Bool) : Slot := { sl with attach := sl.attach ++ [{ name := name, writer := writer }] }
    let others (u : State) : Prop := u = { s with tarns := u.tarns, slots := u.slots } ∧ (∀ n, n ≠ s.me.slot → u.slot n = s.slot n) ∧
      ∀ c m, (c, m) ≠ (sl.ctx, name) → findTarn u c m = findTarn s c m
    let made (i : Instr) (t : Tarn) (writer : Bool) : Prop := ∃ u, exec i s = .next (u.writeX d (baseOf t) 4) ∧ others u ∧
      u.slot s.me.slot = grown writer ∧ findTarn u sl.ctx name = some { t with maker := none }
    let entered (t : Tarn) : Tarn := if w = 1 then { t with writer := true } else { t with readers := t.readers + 1 }
    let wrong (t : Tarn) : Option Trap :=
      if t.ending then some (trapOf Code.attachMiss 1)
      else if t.home ≠ domainOf t.level s.myCore ∧ sl.migrate = false then some (trapOf Code.attachMiss 3)
      else if w = 1 ∧ t.attached then some (trapOf Code.segConflict 1)
      else if w = 0 ∧ t.writer then some (trapOf Code.segConflict 2)
      else if (t.state = .evicting ∨ t.state = .evicted ∨ t.evicts ≠ []) ∧ l = 0 then some (trapOf Code.attachMiss 2)
      else if attachesFull s s.me then some (trapOf Code.segQuota 2)
      else none
    postedFault sl = none →
    (∀ t, Runs (.segatt h d a l w) s → findTarn s sl.ctx name = some t → t.waits s.me = none → t.mover = none →
      (∀ f, wrong t = some f → exec (.segatt h d a l w) s = .next (takeFault s f)) ∧
      (wrong t = none → t.home = domainOf t.level s.myCore → t.state = .resident → made (.segatt h d a l w) (entered t) (w == 1)) ∧
      (wrong t = none → t.home = domainOf t.level s.myCore → t.state = .filling ∨ t.state = .evicting →
        ∃ u, exec (.segatt h d a l w) s = .next (holdBundle u 13 0 arg) ∧ others u ∧ u.slots = s.slots ∧
          findTarn u sl.ctx name = some { entered t with waiting := t.waiting ++ [(s.me, w == 1)] })) ∧
    (Runs (.segatt h d a l w) s → findTarn s sl.ctx name = none →
      exec (.segatt h d a l w) s = .next (takeFault s (trapOf Code.attachMiss 1))) ∧
    (∀ t x, Runs (.segatt h d a l w) s → findTarn s sl.ctx name = some t → t.waits s.me = some x → t.mover = none →
      t.state = .resident → made (.segatt h d a l w) { t with waiting := t.waiting.filter (·.1 != s.me) } x) ∧
    (∀ t x, Runs (.segnew h d a b) s → specBad v = false → findTarn s sl.ctx name = some t → t.waits s.me = some x →
      t.mover = none → t.state = .resident → made (.segnew h d a b) { t with waiting := t.waiting.filter (·.1 != s.me) } true) ∧
    (∀ run s1, Runs (.segnew h d a b) s → specBad v = false → findTarn s sl.ctx name = none → attachesFull s s.me = false →
      s.tarns.length < 4096 →
      allocRun s (v.toNat / 2 ^ 15 % 4) (domainOf (v.toNat / 2 ^ 15 % 4) s.myCore) (v.toNat % 2 ^ 15) (.auto (some sl.launch) s.me.asker) = (.got run, s1) →
      findTarn s1 sl.ctx name = none →
      ∃ u t, exec (.segnew h d a b) s = .next (holdBundle u 13 0 arg) ∧ findTarn u sl.ctx name = some t ∧
        t.state = .filling ∧ t.run = run ∧ t.size = v.toNat % 2 ^ 15 ∧ t.level = v.toNat / 2 ^ 15 % 4 ∧ t.life = v.toNat / 2 ^ 17 % 4 ∧
        t.backing = v.toNat / 2 ^ 20 % 2 ^ 39 ∧ t.writer = true ∧ t.waiting = [(s.me, true)]) ∧
    (Runs (.segnew h d a b) s →
      (specBad v = true → exec (.segnew h d a b) s = .next (takeFault s (trapOf Code.illegalOp 0x0A))) ∧
      (∀ t, specBad v = false → findTarn s sl.ctx name = some t → t.waits s.me = none →
        exec (.segnew h d a b) s = .next (takeFault s (trapOf Code.segConflict 5))) ∧
      (specBad v = false → findTarn s sl.ctx name = none → attachesFull s s.me = true ∨ 4096 ≤ s.tarns.length →
        exec (.segnew h d a b) s = .next (takeFault s (trapOf Code.segQuota 2)))) ∧
    (Runs (.segqry h d a) s → exec (.segqry h d a) s = .next (s.writeX d (match findTarn s sl.ctx name with
      | none => 0
      | some t => BitVec.ofNat 64 ((if t.level ≤ 1 then t.home else 0) * 2 ^ 48 + t.size * 2 ^ 17 + (if t.dirty = [] then 0 else 2 ^ 16) +
          min t.readers 255 * 2 ^ 8 + (if t.writer then 2 ^ 7 else 0) + t.life * 2 ^ 5 + t.level * 2 ^ 3 +
          (match t.state with | .filling => 1 | .resident => 2 | .evicting => 3 | .evicted => 4))) 4))

/-- R154, R155, R335, R349: the words of the task queue, in streams, in firmware contexts and, for TASKJOIN, in embedded controllers. The
model's choices: TASKADD of 0 checks no alignment (log 73), and firmware's TASKGET finds no record (log 163). -/
def Obligations.TaskWords : Prop :=
  ∀ (h : Hd) (d a b : BitVec 5) (s : State),
    let e := s.readX a
    let x := (s.readX b).toNat
    (∀ cn bs p, (myReq s).ctl = some cn → Runs (.taskjoin h d a b) s → e.toNat % 8 = 0 → ctlRead s cn e 8 = .ok bs →
      resolveLocal s cn e e.toNat 8 = .ok p →
      let old := bytesNat bs
      (old < x → exec (.taskjoin h d a b) s = .next (s.writeX d (BitVec.allOnes 64) 4)) ∧
      (∀ u, x ≤ old → ctlWrite s cn e (natBytes 8 (old - x)) = .ok u →
        exec (.taskjoin h d a b) s = .next
        ((if old ≠ 0 ∧ old = x then wakeHeld u p.key else u).writeX d (BitVec.ofNat 64 (old - x)) 4))) ∧
    ((myReq s).ctl = none →
    (∀ ps, Runs (.taskjoin h d a b) s → e.toNat % 8 = 0 → resolveAccess s (myReq s) .rw e e 8 = .ok ps →
      ps.any (touchesEmpty s) = false → ps.any (touchesPoison s) = false →
      let old := bytesNat (piecesBytes s ps)
      (old < x → exec (.taskjoin h d a b) s = .next ((readUses s (myReq s) e.toNat 8 ps).writeX d (BitVec.allOnes 64) 4)) ∧
      (x ≤ old → ∃ u, exec (.taskjoin h d a b) s = .next (u.writeX d (BitVec.ofNat 64 (old - x)) 4) ∧
        (let v := writePieces (walked s (myReq s) e.toNat 8) (myReq s) ps (natBytes 8 (old - x))
         u = if old ≠ 0 ∧ old = x then wakeHeld v ((ps.head?.map (·.key)).getD 0) else v) ∧
        (Memory.wf s.mem = true → ∀ k, ¬ InPieces ps k → SameByte s u k))) ∧
    (Runs (.taskjoin h d a b) s → e.toNat % 8 ≠ 0 → exec (.taskjoin h d a b) s = .next (takeFault s (trapOf Code.misalign 0 e))) ∧
    (Runs (.taskadd h d a b) s → x = 0 → exec (.taskadd h d a b) s = .next (s.writeX d 0 4)) ∧
    (Runs (.taskadd h d a b) s → 0 < x → e.toNat % 64 ≠ 0 → exec (.taskadd h d a b) s = .next (takeFault s (trapOf Code.misalign 0 e))) ∧
    (Runs (.taskadd h d a b) s → 0 < x → e.toNat % 64 = 0 →
      let n := min x 16
      (∀ f, recPieces s e n = .error f → exec (.taskadd h d a b) s = .next (takeTrap s f)) ∧
      (∀ ps, recPieces s e n = .ok ps → ps.any (touchesEmpty s) = false → ps.any (touchesPoison s) = false →
        (∀ rs, acceptAll s (chunks64 n (piecesBytes s ps)) = .ok rs →
          let s1 := recReads (readUses s (myReq s) e.toNat (64 * n) ps) rs
          (∀ u, addRecs s1 rs = some u → exec (.taskadd h d a b) s = .next (u.writeX d (BitVec.ofNat 64 n) 4) ∧
            (s.tq.records.length ≤ 4080 → SameMemory s u)) ∧
          (addRecs s1 rs = none → exec (.taskadd h d a b) s = .next (takeFault s (trapOf Code.segQuota 3)))) ∧
        (∀ t, acceptAll s (chunks64 n (piecesBytes s ps)) = .error t → exec (.taskadd h d a b) s = .next
          (if t.code = 0 ∧ t.sub = 4 then holdBundle s 4 0 (t.faddr.setWidth 32) else takeTrap s t)))) ∧
    (∀ ps, Runs (.taskget h d a b) s → e.toNat % 64 = 0 → resolveAccess s (myReq s) .w e e 64 = .ok ps →
      let flagged := sfind s.mySlot.replies 5 ≠ none
      let window := if isJob s.me.slot then popWindow (workCands s) else []
      let out := flagged ∨ taskgetDue s s.me.slot (x % 2 ^ 16) = true
      let clear (u : State) : State := u.modSlot s.me.slot fun t => { t with replies := sdel t.replies 5 }
      (window ≠ [] → ¬flagged → ∃ r s1, r ∈ window ∧ (window.length = 1 ∧ s1 = s ∨ s1 = s.drawFree.2) ∧
        exec (.taskget h d a b) s = .next ((clear (writePieces (walked (dropRec s1 r.1) (myReq s1) e.toNat 64) (myReq s1) ps r.2.bytes)).writeX d 1 4)) ∧
      (window = [] ∨ flagged → out → exec (.taskget h d a b) s = .next ((clear s).writeX d 0 4)) ∧
      (window = [] → ¬out → exec (.taskget h d a b) s = .next (holdBundle s 9 0 0))) ∧
    (∀ f, Runs (.taskget h d a b) s → e.toNat % 64 = 0 → resolveAccess s (myReq s) .w e e 64 = .error f →
      exec (.taskget h d a b) s = .next (takeTrap s f)) ∧
    (Runs (.taskget h d a b) s → e.toNat % 64 ≠ 0 → exec (.taskget h d a b) s = .next (takeFault s (trapOf Code.misalign 0 e))))

/-- R467, R153: returning to a job, waiting for an event, and giving a stopped job back to the task queue. That ERET waits for the job's
work to come to rest and STOPACK for room is the model's choice (log 85). -/
def Obligations.FirmwareWords : Prop :=
  (∀ (h : Hd) (s : State), isFw s.me.slot = true →
    let core := s.me.slot - 3072
    let n := fwTarget s core
    let st := (s.slot n).state
    let f := (s.core core).fw
    let rejected : State := s.setCore core { s.core core with fw := { f with reject := true } }
    (Runs (.wfe h) s → f.event &&& f.evmask ≠ 0 → exec (.wfe h) s = .next s) ∧
    (Runs (.wfe h) s → f.event &&& f.evmask = 0 → exec (.wfe h) s = .next (holdBundle s 14 0 0)) ∧
    (Runs (.eret h) s → n / 2 = core → st = .trapped ∨ st = .stopped → quiescent s n = true → ∃ t, exec (.eret h) s = .next t ∧ SameMemory s t ∧
      ((∀ e, e ∈ s.windows → windowBinds e.2 n (s.slot n) = true → (sget s.windows {} e.1).pending = []) →
        (t.slot n).state = (if (s.slot n).resuming then .starting else .running) ∧ (t.slot n).trapRec = none ∧
        ∀ k, ((t.slot n).stream k).wait = none)) ∧
    (Runs (.eret h) s → n / 2 = core → st = .trapped ∨ st = .stopped → quiescent s n = false →
      exec (.eret h) s = .next (stallBundle s)) ∧
    (Runs (.eret h) s → n / 2 ≠ core ∨ (st ≠ .trapped ∧ st ≠ .stopped) → exec (.eret h) s = .next rejected) ∧
    (Runs (.stopack h) s → st = .stopped →
      let r : TaskRec := { (s.slot n).job with resume := true, frame := (s.slot n).saveArea, prio := (s.slot n).prio
                                               launch := (s.slot n).launch, ctx := (s.slot n).ctx, held := false, ready := false, age := 0
                                               spilled := false, relaxed := false, rampSlot := none }
      (enqueue s r = none → exec (.stopack h) s = .next (stallBundle s)) ∧
      (∀ s1 : State, enqueue s r = some s1 → ∃ t q, exec (.stopack h) s = .next t ∧ (t.slot n).state = .free ∧
        (s.tq.records.length < 4096 → ∀ k, ¬ (isPadKey k = true ∧ padCore k = n / 2 ∧ (s.slot n).partStart ≤ padOff k ∧
          padOff k < (s.slot n).partStart + (s.slot n).partLen) → SameByte s t k) ∧
        sfind t.tq.records s.tq.nextRec = some q ∧ q.resume = true ∧ q.frame = (s.slot n).saveArea ∧ q.launchid = (s.slot n).job.launchid)) ∧
    (Runs (.stopack h) s → st ≠ .stopped → exec (.stopack h) s = .next rejected)) ∧
  (∀ (h : Hd) (g : Agent), isJob g.slot = true → wordFault g (.eret h) = some (Code.privilege, 0) ∧
    wordFault g (.wfe h) = some (Code.privilege, 0) ∧ wordFault g (.stopack h) = some (Code.privilege, 0))

/-- R202, R205: what a vector result writes, and which row a name stands for. -/
def Obligations.RowWrite : Prop :=
  (∀ (s : State) (d lat : Nat) (v en : Row) (f : VFlags), s.myStream.exposed = false → s.rowNo d < 256 → Rising (s.core s.myCore).tiles →
    let t := s.writeRow d v en lat f
    rowOf (t.core s.myCore).tiles (s.rowNo d) = (rowOf (s.core s.myCore).tiles (s.rowNo d) &&& ~~~en) ||| (v &&& en) ∧
    (∀ c r, c ≠ s.myCore ∨ r ≠ s.rowNo d → rowOf (t.core c).tiles r = rowOf (s.core c).tiles r) ∧
    (t.slot s.me.slot).vflags = s.mySlot.vflags ||| f ∧ SameMemory s t ∧
    ∀ g, (t.stream g).x = (s.stream g).x ∧ (t.stream g).p = (s.stream g).p) ∧
  (∀ (t : Slot) (rrb : BitVec 8) (n : Nat), n < 32 →
    vrowNo t rrb n = 64 * (t.vwin.toNat % 4) + 32 * (t.vwin.toNat / 4) +
      (if n < 16 then n else 16 + (n - 16 + 256 - rrb.toNat) % 16))

/-- R219, R220: the floating-point words, element by element; the write is that of RowWrite. The model's choices: the sign of an exact
sum of zero (log 31), VFNMA's rounding of the negated value, and no INX of the truncation of VRCPE and VRSQE (log 159). -/
def Obligations.VectorFloat : Prop :=
  ∀ (h : Hd) (d a b : BitVec 5) (m : BitVec 1) (s u : State) (rb : Row), SecondOperand s b m s.readType u rb →
    let ty := s.readType
    let w := ty.width
    let f := ty.fmtD
    let g := s.guard h
    let rm := u.vmode
    let x (i : Nat) : Nat := elem (s.readV a.toNat) w i
    let y (i : Nat) : Nat := elem rb w i
    let z (i : Nat) : Nat := elem (s.readV d.toNat) w i
    let gives (i : Instr) (lat : Nat) (r : Nat → ElemOp) : Prop := VRuns i .fp s → exec i s = .next
      (u.writeRow d.toNat (mkRow w fun n => if laneOn g w n then (r n).1 else 0) (laneMask g w) lat (flagsOf w g fun n => (r n).2))
    gives (.vadd h d a b m) 4 (fun i => fpOp f rm ((f.decode (x i)).add (isRdn rm) (f.decode (y i)))) ∧
    gives (.vsub h d a b m) 4 (fun i => fpOp f rm ((f.decode (x i)).add (isRdn rm) (f.decode (y i)).neg)) ∧
    gives (.vmul h d a b m) 4 (fun i => fpOp f rm ((f.decode (x i)).mul (f.decode (y i)))) ∧
    gives (.vfma h d a b m) 4 (fun i => fpFma f rm false false (x i) (y i) (z i)) ∧
    gives (.vfms h d a b m) 4 (fun i => fpFma f rm true false (x i) (y i) (z i)) ∧
    gives (.vfnma h d a b m) 4 (fun i => fpFma f rm false true (x i) (y i) (z i)) ∧
    gives (.vmax h d a b m) 2 (fun i => (if (f.decode (x i)).isNan ∨ (f.decode (y i)).isNan then f.nanCode
      else if (f.decode (x i)).lt (f.decode (y i)) then y i else if (f.decode (y i)).lt (f.decode (x i)) then x i
      else if (f.decode (x i)).sign = true then y i else x i, 0)) ∧
    gives (.vmin h d a b m) 2 (fun i => (if (f.decode (x i)).isNan ∨ (f.decode (y i)).isNan then f.nanCode
      else if (f.decode (x i)).lt (f.decode (y i)) then x i else if (f.decode (y i)).lt (f.decode (x i)) then y i
      else if (f.decode (x i)).sign = true then x i else y i, 0)) ∧
    (u = s →
    gives (.vabs h d a) 2 (fun i => (x i % 2 ^ (w - 1), 0)) ∧
    gives (.vneg h d a) 2 (fun i => (x i ^^^ 2 ^ (w - 1), 0)) ∧
    gives (.vrcpe h d a) 6 (fun i => fpOp f .rtz (rcpEst (min 12 (f.m + 1)) (f.decode (x i)), fNone)) ∧
    gives (.vrsqe h d a) 6 (fun i => fpOp f .rtz (rsqEst (min 12 (f.m + 1)) (f.decode (x i)))) ∧
    gives (.vfloor h d a) 3 (fun i => ((f.round .rne false (toIntegral .rdn (f.decode (x i)))).1, 0)) ∧
    gives (.vrnd h d a) 3 (fun i => ((f.round .rne false (toIntegral rm (f.decode (x i)))).1, 0))) ∧
    gives (.vscale h d a b m) 3 (fun i => fpScale f rm (x i) (signedElem w (y i)))

/-- R221, R222: the integer and move words, element by element; the write is that of RowWrite. -/
def Obligations.VectorInteger : Prop :=
  ∀ (h : Hd) (d a b : BitVec 5) (m : BitVec 1) (s u : State) (rb : Row), SecondOperand s b m s.readType u rb →
    let ty := s.readType
    let w := ty.width
    let g := s.guard h
    let x (i : Nat) : Nat := elem (s.readV a.toNat) w i
    let y (i : Nat) : Nat := elem rb w i
    let z (i : Nat) : Nat := elem (s.readV d.toNat) w i
    let signed (n : Nat) : Int := if n < 2 ^ (w - 1) then n else (n : Int) - 2 ^ w
    let wrap (v : Int) : Nat := (v % 2 ^ w).toNat
    let gives (i : Instr) (k : Need) (lat : Nat) (r : Nat → Nat) : Prop := VRuns i k s → exec i s = .next
      (u.writeRow d.toNat (mkRow w fun n => if laneOn g w n then r n else 0) (laneMask g w) lat 0)
    gives (.viadd h d a b m) .int 2 (fun i => wrap (x i + y i)) ∧
    gives (.visub h d a b m) .int 2 (fun i => wrap (x i - y i)) ∧
    gives (.vimul h d a b m) .int 3 (fun i => wrap (x i * y i)) ∧
    gives (.vand h d a b m) .any 2 (fun i => x i &&& y i) ∧
    gives (.vor h d a b m) .any 2 (fun i => x i ||| y i) ∧
    gives (.vxor h d a b m) .any 2 (fun i => x i ^^^ y i) ∧
    gives (.vshl h d a b m) .any 2 (fun i => wrap (x i * 2 ^ (y i % w))) ∧
    gives (.vshr h d a b m) .any 2 (fun i => x i / 2 ^ (y i % w)) ∧
    gives (.vsar h d a b m) .any 2 (fun i => wrap (signed (x i) / 2 ^ (y i % w))) ∧
    gives (.vmov h d b m) .any 2 y ∧
    (ty.isInt = true → gives (.vclamp h d a b m) .any 2 (fun i => wrap (min (max (signed (z i)) (signed (x i))) (signed (y i))))) ∧
    (ty.isInt = false → gives (.vclamp h d a b m) .any 2
      (fun i => fpMinMax false ty.fmtD (fpMinMax true ty.fmtD (z i) (x i)) (y i))) ∧
    (wordFault s.me (.vsel h d a b m) = none → windowFault s = none → exec (.vsel h d a b m) s = .next
      (u.writeRow d.toNat (mkRow w fun n => if laneOn g w n then x n else y n) (BitVec.allOnes 4096) 2 0))

/-- R223 to R229: the words that cross elements or types; the writes are those of RowWrite and PredicateWords. The model's choices: the
kinds 4 to 7 of VCVT ignore SAT (log 132), VRADDX of a NaN (log 35), and the sign of a zero sum (log 31). -/
def Obligations.VectorAcross : Prop :=
  ∀ (h : Hd) (d a b : BitVec 5) (m : BitVec 1) (p r : BitVec 3) (c : BitVec 4) (k : BitVec 2) (s u : State) (rb : Row),
    let ty := s.readType
    let w := ty.width
    let n := ty.lanes
    let g := s.guard h
    let x (i : Nat) : Nat := elem (s.readV a.toNat) w i
    let y (i : Nat) : Nat := elem rb w i
    let z (i : Nat) : Nat := elem (s.readV b.toNat) w i
    let signed (v : Nat) : Int := if v < 2 ^ (w - 1) then v else (v : Int) - 2 ^ w
    let puts (u : State) (v : Nat) (lat : Nat) (r : Nat → ElemOp) : State := u.writeRow d.toNat
      (mkRow v fun j => if laneOn g v j then (r j).1 else 0) (laneMask g v) lat (flagsOf v g fun j => (r j).2)
    let moves (i : Instr) (r : Nat → Nat) : Prop := SecondOperand s b m ty u rb →
      VRuns i .any s → exec i s = .next (puts u w 3 fun j => (r j, 0))
    let folds (i : Instr) (lat : Nat) (r : ElemOp) : Prop := wordFault s.me i = none → windowFault s = none →
      exec i s = .next (s.writeRow d.toNat (mkRow w fun _ => r.1) (BitVec.allOnes 4096) lat r.2)
    let word (i : Nat) : Nat := elem (s.readV a.toNat) 32 i
    let half (i : Nat) : Nat := elem (s.readV a.toNat) 16 i
    let sat := m == 1
    let cvt (code : BitVec 4) (v : Nat) (f : Nat → ElemOp) : Prop :=
      VRuns (.vcvt h d a m code r) .any s → exec (.vcvt h d a m code r) s = .next (puts s v 3 f)
    let narrows (code : BitVec 4) (hi : Nat) (f : Fmt) : Prop :=
      let on (i : Nat) : Bool := g.getLsbD (2 * i + hi)
      let res (i : Nat) : ElemOp := f.round (cvtMode s r ((s.gen i).toNat % 2 ^ 16)) sat (fp32.decode (word i))
      let t := s.writeRow d.toNat (mkRow 16 fun j => if j % 2 = hi ∧ on (j / 2) then (res (j / 2)).1 else 0)
        (mkRow 16 fun j => if j % 2 = hi ∧ on (j / 2) then 0xFFFF else 0) 3
        ((List.range 128).foldl (fun fl i => if on i then fl ||| (res i).2 else fl) 0)
      VRuns (.vcvt h d a m code r) .any s → exec (.vcvt h d a m code r) s = .next (if r = 5 then advanceGens t on else t)
    moves (.vperm h d a b m) (fun i => x (y i % n)) ∧
    moves (.vrot h d a b m) (fun i => x ((i + y 0 % n) % n)) ∧
    moves (.vshft h d a b m) (fun i => if 0 ≤ i + signed (y 0) ∧ i + signed (y 0) < n then x (i + signed (y 0)).toNat else 0) ∧
    moves (.vdup h d a b m) (fun _ => x (y 0 % n)) ∧
    (VRuns (.vbc h d a) .any s → exec (.vbc h d a) s = .next (puts s w 2 fun _ => ((s.readX a).toNat % 2 ^ w, 0))) ∧
    (Runs (.vext h d a b) s → windowFault s = none →
      exec (.vext h d a b) s = .next (s.writeX d (BitVec.ofNat 64 (x ((s.readX b).toNat % n))) 3)) ∧
    (VRuns (.vcmp h p a b c k) .any s → (ty.isInt = true ∧ c.toNat ≤ 11) ∨ c.toNat ≤ 7 → ∃ new en : BitVec 256,
      exec (.vcmp h p a b c k) s = .next ((s.writeP (2 * p.toNat) new en 2).writeP (2 * p.toNat + 1) (~~~new) en 2) ∧
      ∀ j, j < 256 →
        let i := if w = 32 then j / 2 else j
        let f := ty.fmtD
        let fa := f.decode (x i)
        let fb := f.decode (z i)
        let un := fa.isNan || fb.isNan
        let old := (s.readStream.readP (2 * p.toNat)).getLsbD j
        ∃ cnd : Bool, en.getLsbD j = laneOn g w i ∧
          new.getLsbD j = (if k = 0 then cnd else if k = 1 then old && cnd else if k = 2 then old || cnd else xor old cnd) ∧
          (ty.isInt = false →
            (c = 0 → cnd = fa.eq fb) ∧ (c = 1 → cnd = (un || !fa.eq fb)) ∧ (c = 2 → cnd = fa.lt fb) ∧ (c = 3 → cnd = (!un && !fa.lt fb)) ∧
            (c = 4 → cnd = un) ∧ (c = 5 → cnd = !un) ∧ (c = 6 → cnd = (!un && !fb.lt fa)) ∧ (c = 7 → cnd = fb.lt fa)) ∧
          (ty.isInt = true →
            (c = 0 → cnd = decide (x i = z i)) ∧ (c = 1 → cnd = decide (x i ≠ z i)) ∧
            (c = 2 → cnd = decide (signed (x i) < signed (z i))) ∧ (c = 3 → cnd = decide (signed (z i) ≤ signed (x i))) ∧
            (c = 4 → cnd = decide (x i < z i)) ∧ (c = 5 → cnd = decide (z i ≤ x i)) ∧
            (c = 6 → cnd = decide (signed (x i) ≤ signed (z i))) ∧ (c = 7 → cnd = decide (signed (z i) < signed (x i))) ∧
            (c = 8 → cnd = decide (x i ≤ z i)) ∧ (c = 9 → cnd = decide (z i < x i)) ∧
            (c = 10 → cnd = (x i).testBit (z i % w)) ∧ (c = 11 → cnd = !(x i).testBit (z i % w)))) ∧
    (VRuns (.vcmp h p a b c k) .any s → ty.isInt = false → 8 ≤ c.toNat → c.toNat ≤ 11 →
      exec (.vcmp h p a b c k) s = .next (takeFault s (trapOf Code.tileType 2))) ∧
    folds (.vradd h d a) (if w = 32 then 8 else 9) (treeResult (redAdd ty s.vmode) w g (s.readV a.toNat)) ∧
    folds (.vrmax h d a) (if w = 32 then 8 else 9) (treeResult (redMinMax true ty) w g (s.readV a.toNat)) ∧
    folds (.vrmin h d a) (if w = 32 then 8 else 9) (treeResult (redMinMax false ty) w g (s.readV a.toNat)) ∧
    folds (.vraddx h d a) 10 (let xs := ((List.range n).filter (laneOn g w)).map x
      match ty.fmt with | some f => exactSum f s.vmode xs | none => clampSum w xs) ∧
    narrows 0 0 bf16 ∧ narrows 1 1 bf16 ∧ narrows 2 0 fp16 ∧ narrows 3 1 fp16 ∧
    cvt 4 32 (fun i => fp32.round .rne false (bf16.decode (half (2 * i)))) ∧
    cvt 5 32 (fun i => fp32.round .rne false (bf16.decode (half (2 * i + 1)))) ∧
    cvt 6 32 (fun i => fp32.round .rne false (fp16.decode (half (2 * i)))) ∧
    cvt 7 32 (fun i => fp32.round .rne false (fp16.decode (half (2 * i + 1)))) ∧
    cvt 8 32 (fun i => f32ToInt (cvtMode s r 0) (-(2 ^ 31)) (2 ^ 31 - 1) (word i)) ∧
    cvt 9 32 (fun i => f32ToInt (cvtMode s r 0) 0 (2 ^ 32 - 1) (word i)) ∧
    cvt 10 32 (fun i => fp32.round (cvtMode s r 0) false (ofInt (signedElem 32 (word i)) 0)) ∧
    cvt 11 32 (fun i => fp32.round (cvtMode s r 0) false (ofInt (word i) 0)) ∧
    cvt 12 16 (fun i => fp16.round (cvtMode s r 0) sat (bf16.decode (half i))) ∧
    cvt 13 16 (fun i => bf16.round (cvtMode s r 0) sat (fp16.decode (half i))) ∧
    cvt 14 32 (fun i => (if word i / 2 ^ 23 % 256 = 255 then 0xFF else word i / 2 ^ 23 % 256, 0))

/-- R230 to R233: vector memory words. The value that VCORD gives has a free part (log 3), of which nothing is said here. -/
def Obligations.VectorMemory : Prop :=
  ∀ (h : Hd) (d a n : BitVec 5) (c : BitVec 4) (o : BitVec 5) (o8 : BitVec 8) (f : BitVec 3) (s : State), Memory.wf s.mem = true → Rising (s.core s.myCore).tiles →
    let ty := s.readType
    let w := ty.width
    let g := s.guard h
    let ea : Word := s.readX a + BitVec.ofNat 64 (512 * o.toNat)
    let lanes := (upTo 0 (4096 / w)).filter (laneOn g w)
    let lanes32 := (upTo 0 128).filter (laneOn g 32)
    (∀ l, VRuns (.vld h d a c o) .any s → ea.toNat % (w / 8) = 0 → vecPieces s .r ea w lanes = .ok l →
      (∀ e, e ∈ l → e.2.any (touchesEmpty s) = false ∧ e.2.any (touchesPoison s) = false) →
      exec (.vld h d a c o) s = .next ((l.foldl (fun u e => readUses u (myReq u) (ea.toNat + w / 8 * e.1) (w / 8) e.2) s).writeRow d.toNat
        (mkRow w fun i => if laneOn g w i then sget (l.map fun e => (e.1, bytesNat (piecesBytes s e.2))) 0 i else 0) (laneMask g w) 6 0)) ∧
    (∀ l, VRuns (.vld h d a c o) .any s → ea.toNat % (w / 8) = 0 → vecPieces s .r ea w lanes = .ok l →
      (∀ e, l.find? (fun e => e.2.any (touchesEmpty s)) = some e →
        exec (.vld h d a c o) s = .next (holdBundle s 4 0 ((ea + BitVec.ofNat 64 (w / 8 * e.1)).setWidth 32))) ∧
      (l.find? (fun e => e.2.any (touchesEmpty s)) = none → l.any (fun e => e.2.any (touchesPoison s)) = true →
        exec (.vld h d a c o) s = .next (consumePoison s))) ∧
    (∀ f, ea.toNat % (w / 8) = 0 →
      (VRuns (.vld h d a c o) .any s → vecPieces s .r ea w lanes = .error f → exec (.vld h d a c o) s = .next (takeTrap s f)) ∧
      (VRuns (.vst h d a c o) .any s → vecPieces s .w ea w lanes = .error f → exec (.vst h d a c o) s = .next (takeTrap s f))) ∧
    (VRuns (.vld h d a c o) .any s → ea.toNat % (w / 8) ≠ 0 → exec (.vld h d a c o) s = .next (takeFault s (trapOf Code.misalign 0 ea))) ∧
    (∀ l, VRuns (.vst h d a c o) .any s → ea.toNat % (w / 8) = 0 → vecPieces s .w ea w lanes = .ok l →
      ∃ t, exec (.vst h d a c o) s = .next t ∧
        t = l.foldl (fun u e => writePieces (walked u (myReq u) (ea.toNat + w / 8 * e.1) (w / 8)) (myReq u) e.2 (natBytes (w / 8) (elem (s.readV d.toNat) w e.1))) s ∧ (∀ k, (∀ e, e ∈ l → ¬ InPieces e.2 k) → SameByte s t k) ∧
        (∀ q, (t.stream q).x = (s.stream q).x ∧ (t.stream q).p = (s.stream q).p) ∧ ∀ q, (t.core q).tiles = (s.core q).tiles) ∧
    (VRuns (.vst h d a c o) .any s → ea.toNat % (w / 8) ≠ 0 → exec (.vst h d a c o) s = .next (takeFault s (trapOf Code.misalign 0 ea))) ∧
    (∀ off, laneAddr s a o8 = .ok off → off % 512 = (s.readX a).toNat % 512 + 4 * o8.toNat ∧ off / 512 = s.me.slot % 2 ∧
      (VRuns (.vldl h d a o8) .any s → exec (.vldl h d a o8) s = .next (s.writeRow d.toNat
        (mkRow 32 fun i => if laneOn g 32 i then memNat s (laneKey s.myCore i off) 4 else 0) (laneMask g 32) 3 0)) ∧
      (VRuns (.vstl h d a o8) .any s → ∃ t, exec (.vstl h d a o8) s = .next t ∧
        (∀ i, i ∈ lanes32 → memNat t (laneKey s.myCore i off) 4 = elem (s.readV d.toNat) 32 i) ∧
        (∀ k, (∀ i, i ∈ lanes32 → k < laneKey s.myCore i off ∨ laneKey s.myCore i off + 4 ≤ k) → SameByte s t k) ∧
        t.slots = s.slots ∧ t.cores = s.cores)) ∧
    (VRuns (.vcord h d a n f) .fp s →
      let iters := if n = 0 then 24 else n.toNat
      let value (i : Nat) : ElemOp :=
        let r := fpOp ty.fmtD s.vmode (vcordFn f.toNat iters (Config.freeWord (s.freeCount + i)) (ty.fmtD.decode (elem (s.readV a.toNat) w i)))
        if f = 2 ∧ r.2 &&& fOvf ≠ 0 then (ty.fmtD.infCode, r.2) else r
      exec (.vcord h d a n f) s = .next (({ s with freeCount := s.freeCount + ty.lanes } : State).writeRow d.toNat
        (mkRow w fun i => if laneOn g w i then (value i).1 else 0) (laneMask g w) (4 + (iters + 1) / 2) (flagsOf w g fun i => (value i).2))) ∧
    (VRuns (.vcord h d a n f) .fp s → s.myStream.exposed = false → s.rowNo d.toNat < 256 → ∃ t, exec (.vcord h d a n f) s = .next t ∧ SameMemory s t ∧
      (∀ i, i < 4096 / w → laneOn g w i = false →
        elem (rowOf (t.core s.myCore).tiles (s.rowNo d.toNat)) w i = elem (rowOf (s.core s.myCore).tiles (s.rowNo d.toNat)) w i) ∧
      (∀ k r, k ≠ s.myCore ∨ r ≠ s.rowNo d.toNat → rowOf (t.core k).tiles r = rowOf (s.core k).tiles r) ∧
      ∀ q, (t.stream q).x = (s.stream q).x ∧ (t.stream q).p = (s.stream q).p)

/-- R204, R212 to R217, R236, R341: the control words of the vector unit, and how a port feeds a word. The order of a use's faults is the
model's choice (log 155). -/
def Obligations.PortsAndWindow : Prop :=
  (∀ (h : Hd) (t : BitVec 2) (u : BitVec 1) (k p : BitVec 3) (d a : BitVec 5) (s : State),
    let sl := s.mySlot
    let q := sl.port p.toNat
    let r := s.readSlot.port p.toNat
    let declared := sl.portMask.testBit p.toNat = true
    (Runs (.vwin h t u k) s → sl.holdsTile t.toNat = true → k = 0 ∨ entryNames sl t.toNat = false → k.toNat ≤ 5 →
      ∃ v, exec (.vwin h t u k) s = .next v ∧ (v.slot s.me.slot) = { sl with vwin := u ++ t } ∧
        (k = 0 → v.cores = s.cores) ∧ (∀ ty, typeOfCode k.toNat = some ty → v.tileType s.myCore t.toNat = ty) ∧ SameMemory s v) ∧
    (Runs (.vwin h t u k) s → sl.holdsTile t.toNat = true → k ≠ 0 → entryNames sl t.toNat = true →
      exec (.vwin h t u k) s = .next (holdBundle s 11 t.toNat 0)) ∧
    (Runs (.vwin h t u k) s → sl.holdsTile t.toNat = false → exec (.vwin h t u k) s = .next (takeFault s (trapOf Code.tileType 1))) ∧
    (Runs (.pgo h p) s → declared → exec (.pgo h p) s = .next ((s.setSlot s.me.slot (sl.setPort p.toNat
      { q with run := true, exh := false, lbase := r.base, ltype := r.type, lcnt := r.cnt, lstride := r.stride
               idx := Vector.replicate 6 0, used := 0, ahead := [] })).wentPort p.toNat)) ∧
    (Runs (.pstop h p) s → declared → exec (.pstop h p) s =
      .next (s.setSlot s.me.slot (sl.setPort p.toNat { q with run := false, ahead := [] }))) ∧
    (Runs (.vstp h d p) s → declared → exec (.vstp h d p) s = .next (s.writeX d
      (BitVec.ofNat 64 ((if r.run then 2 ^ 63 else 0) + (if r.exh then 2 ^ 62 else 0) + r.used.toNat)) 1)) ∧
    (¬declared → (Runs (.pgo h p) s → exec (.pgo h p) s = .next (takeFault s (trapOf Code.ringProtocol 6))) ∧
      (Runs (.pstop h p) s → exec (.pstop h p) s = .next (takeFault s (trapOf Code.ringProtocol 6))) ∧
      (Runs (.vstp h d p) s → exec (.vstp h d p) s = .next (takeFault s (trapOf Code.ringProtocol 6)))) ∧
    (Runs (.vstat h d a) s → exec (.vstat h d a) s = .next
      ((s.setSlot s.me.slot { sl with vflags := (sl.vflags &&& ~~~((s.readX a).extractLsb' 8 5)) ||| s.issue.flags }).writeX d
        (BitVec.ofNat 64 (s.readSlot.vflags.toNat * 256 + s.readSlot.vrm.toNat)) 1))) ∧
  (∀ (b : BitVec 5) (ty : TType) (s : State),
    let q := s.usePort b.toNat
    let size := if q.splat then q.esz else 512
    let ready := s.mySlot.portMask.testBit b.toNat = true ∧ q.run = true ∧ q.exh = false ∧ (q.splat = true → 8 * q.esz = ty.width) ∧
      q.addr.toNat % (ty.width / 8) = 0
    ready →
    (∀ f rest, q.ahead = f :: rest → f.fault = none →
      SecondOperand s b 1 ty (s.tookUse b.toNat { q.advance with ahead := rest }) f.value) ∧
    (∀ ps, q.ahead = [] → (slotReq s s.me.slot).ctl = none →
      resolveAccess s.beforeBundle (slotReq s s.me.slot) .r q.addr q.addr size = .ok ps →
      ps.any (touchesEmpty s.beforeBundle) = false → ps.any (touchesPoison s.beforeBundle) = false →
      SecondOperand s b 1 ty ((hinted (readUses s (slotReq s s.me.slot) q.addr.toNat size ps) (s.myCore / 96) ps).tookUse b.toNat
        { q.advance with ahead := [] }) (q.value (piecesBytes s.beforeBundle ps)))) ∧
  (∀ (h : Hd) (d a b : BitVec 5) (s : State), VRuns (.vand h d a b 1) .any s →
    let q := s.usePort b.toNat
    let declared := s.mySlot.portMask.testBit b.toNat = true
    let raises (f : Trap) : Prop := exec (.vand h d a b 1) s = .next (takeFault s f)
    (¬declared → raises (trapOf Code.ringProtocol 6)) ∧
    (declared → q.run = false ∨ q.exh = true → raises (trapOf Code.ringProtocol 7)) ∧
    (declared → q.run = true → q.exh = false → q.splat = true → 8 * q.esz ≠ s.readType.width → raises (trapOf Code.tileType 3)) ∧
    (declared → q.run = true → q.exh = false → (q.splat = true → 8 * q.esz = s.readType.width) →
      q.addr.toNat % (s.readType.width / 8) ≠ 0 → raises (trapOf Code.misalign 0 q.addr)) ∧
    (∀ f e rest, declared → q.run = true → q.exh = false → (q.splat = true → 8 * q.esz = s.readType.width) →
      q.addr.toNat % (s.readType.width / 8) = 0 → q.ahead = e :: rest → e.fault = some f → raises f)) ∧
  (∀ (slot port : Nat) (s : State),
    let t := s.slot slot
    let p := t.port port
    let q := p.afterAhead
    let size := if q.splat then q.esz else 512
    t.state = .running → p.run = true → q.exh = false → p.ahead.length < 4 →
    (∀ f, resolveAccess s (slotReq s slot) .r q.addr q.addr size = .error f → f.code ≠ 0 → exec (.portPrefetch slot port) s =
      .next (s.setSlot slot (t.setPort port { p with ahead := p.ahead ++ [{ value := 0, fault := some f }] }))) ∧
    (∀ ps, resolveAccess s (slotReq s slot) .r q.addr q.addr size = .ok ps →
      (∀ x, x ∈ ps → x.attr ≠ 3 ∧ touchesEmpty s x = false ∧ touchesPoison s x = false) → exec (.portPrefetch slot port) s =
      .next ((hinted (readUses s (slotReq s slot) q.addr.toNat size ps) (slotCore slot / 96) ps).setSlot slot (t.setPort port { p with ahead := p.ahead ++
        [{ value := q.value (piecesBytes s ps), fault := none }] }))))

/-- R245 to R247, R250, R258, R268, R271 to R273: the words of the M stream. That a full queue is waited for before the checks are made is
the model's choice (log 38). -/
def Obligations.MatrixWords : Prop :=
  ∀ (h : Hd) (c : BitVec 8) (a d : BitVec 5) (e n m : BitVec 4) (t u : BitVec 2) (k : BitVec 1) (s : State),
    let sl := s.mySlot
    let x := s.readX a
    let sets (v : Slot) : State := s.setSlot s.me.slot v
    let o := sget sl.oslots {} n.toNat
    let freed : OSlot := if sl.nests = [] then {} else { o with state := .releasing, waitFor := sl.nests.length }
    let queues (w : Instr) (kind : NestKind) (td ts : Nat) : Prop := Runs w s →
      let q : Nest := { id := s.cmdCount, kind := kind, regs := sl.mregs, td := td, ts := ts, cmdidx := s.readStream.cmdidx
                        fmtA := sl.fmtEntry ((mreg sl.mregs 0x33).toNat % 16), fmtB := sl.fmtEntry ((mreg sl.mregs 0x34).toNat % 16)
                        prio := max ((mreg sl.mregs 0x3A).toNat % 4) sl.prio, issued := s.tick }
      (sl.nests.length < 8 → entryFault s s.me.slot q = none →
        exec w s = .next ({ s with cmdCount := s.cmdCount + 1 }.setSlot s.me.slot { sl with nests := sl.nests ++ [q] })) ∧
      (8 ≤ sl.nests.length → exec w s = .next (holdBundle s 12 1 0)) ∧
      (∀ f, sl.nests.length < 8 → entryFault s s.me.slot q = some f → exec w s = .next (takeFault s f))
    queues (.mma h) .mma 0 0 ∧ queues (.mmac h) .mmac 0 0 ∧ queues (.trn h t u) .trn t.toNat u.toNat ∧ queues (.prm h t u) .prm t.toNat u.toNat ∧
    queues (.rred h t u) .rred t.toNat u.toNat ∧ queues (.zero h m) .zero m.toNat 0 ∧ queues (.mret h t) .mret t.toNat 0 ∧
    (Runs (.mcfg h c a) s → exec (.mcfg h c a) s = .next (sets { sl with mregs := sput sl.mregs c.toNat x })) ∧
    (Runs (.mfmt h e a) s → exec (.mfmt h e a) s = .next (sets { sl with fmt := sput sl.fmt e.toNat (x.extractLsb' 0 32) })) ∧
    (Runs (.mpri h a) s → exec (.mpri h a) s = .next (sets { sl with
      mregs := sput sl.mregs 0x3A (BitVec.ofNat 64 (max (x.toNat % 4) sl.prio)),
      nests := sl.nests.map fun q => { q with prio := max (x.toNat % 4) sl.prio } })) ∧
    (Runs (.mclaim h n) s → sl.oslotMask.testBit n.toNat = true →
      (o.state = .full → exec (.mclaim h n) s = .next (sets { sl with oslots := sput sl.oslots n.toNat { o with state := .claimed, cancels := 0 } })) ∧
      (o.state = .claimed → exec (.mclaim h n) s = .next (takeFault s (trapOf Code.slotProtocol 6))) ∧
      (o.state = .empty ∨ o.state = .filling ∨ o.state = .releasing → exec (.mclaim h n) s = .next (holdBundle s 5 (16 + n.toNat) 0))) ∧
    (Runs (.mrel h n) s → sl.oslotMask.testBit n.toNat = true →
      (o.state = .claimed → exec (.mrel h n) s = .next (sets { sl with oslots := sput sl.oslots n.toNat freed })) ∧
      (o.state ≠ .claimed → exec (.mrel h n) s = .next (takeFault s (trapOf Code.slotProtocol 5)))) ∧
    (sl.oslotMask.testBit n.toNat = false →
      (Runs (.mclaim h n) s → exec (.mclaim h n) s = .next (takeFault s (trapOf Code.slotProtocol 1))) ∧
      (Runs (.mrel h n) s → exec (.mrel h n) s = .next (takeFault s (trapOf Code.slotProtocol 1)))) ∧
    (Runs (.mwaitn h a) s → exec (.mwaitn h a) s =
      if sl.nests.length ≤ x.toNat then .next s else .next (holdBundle s 12 0 (x.extractLsb' 0 32))) ∧
    (Runs (.mstat h k d) s → exec (.mstat h k d) s =
      .next ((if k = 1 then sets { sl with msat := false } else s).writeX d (s.mstat s.me.slot) 2))

/-- R254, R255, R259, R263, R266, R267, R269: the steps of the matrix engine. That the lower slot wins a tie of age is the model's choice
(log 160), and so is the FP32 reading of the words of a tile that CVT converts again (log 173). -/
def Obligations.MatrixSteps : Prop :=
  (∀ (s : State) (n : Nat) (e : Nest), n < 3072 → nextEntry s n = some e → e.offArray = true →
    (n % 2 = 1 → (nextEntry s (n - 1)).all (!·.offArray) = true) → ∃ t, exec (.nestStart (n / 2)) s = .next t ∧ SameMemory s t ∧
      (t.slot n).nests = ((s.slot n).nests.map fun q => if q.id = e.id then { q with started := true, worked := true } else q) ∧
      (e.kind = .mret → ∃ r, (t.core (n / 2)).port = (s.core (n / 2)).port ++ [r] ∧ r.slot = n ∧ r.nest = e.id ∧ r.tile = e.td) ∧
      (e.kind ≠ .mret → t.cores = s.cores)) ∧
  (∀ (s : State) (core n : Nat) (e : Nest), n < 3072 → core = n / 2 → (s.core core).arrayBy = none →
    (∀ j, j / 2 = core → (nextEntry s j).all (!·.offArray) = true) → candidate s n = some e → e.started = false →
    (∀ e', candidate s (4 * core + 1 - n) = some e' →
      let k := arrayKey s n e
      let k' := arrayKey s (4 * core + 1 - n) e'
      k.1 < k'.1 ∨ (k.1 = k'.1 ∧ k.2 < k'.2) ∨ (k = k' ∧ (e.issued < e'.issued ∨ (e.issued = e'.issued ∧ n % 2 = 0)))) →
    ∃ t, exec (.nestStart core) s = .next t ∧ (t.core core).arrayBy = some n ∧ SameMemory s t ∧
      (e.isMm = true → ∀ x, x ∈ e.tiles → t.tileType core x = ctypeOf e.regs)) ∧
  (∀ (s : State) (core n : Nat) (e : Nest), n < 3072 → core = n / 2 → (s.core core).arrayBy = some n → (s.slot n).worker = some e → e.isMm = true →
    (e.begins = true → ∀ r, r ∈ (s.core core).port → ¬(r.slot = n ∧ r.tile = e.tileAt)) → e.stepAt + e.cycles ≤ s.tick →
    refetching (s.slot n) e = false → badSlot s n e = none → Rising (s.core core).tiles →
    let a := e.shapes.1
    let b := e.shapes.2
    let ops := nestOperands e.regs a b
    let read (rs : List (Nat × Nat)) (i : Nat) : List Byte := readBytes s.mem (operandKey core (rs.getD i (0, 0)).1) (rs.getD i (0, 0)).2
    let ra := ops.2.1.runs ops.1 e.idx
    let rb := ops.2.2.runs ops.1 e.idx
    let gr : Groups := ⟨bytesNat (read ra 0), bytesNat (read rb 0), read ra 1, read rb 1⟩
    let acc (i j : Nat) : Nat := if e.kind = .mma ∧ e.begins = true then 0 else (tileWord (s.core core).tiles e.tileAt i j).toNat
    ∃ t, exec (.kstep core) s = .next t ∧ SameMemory s t ∧
      (∀ i j, i < 64 → j < 128 → tileWord (t.core core).tiles e.tileAt i j =
        BitVec.ofNat 32 (kElem a.int ((mreg e.regs 0x36).getLsbD 0) ops.1 a b gr i j (acc i j)).1) ∧
      (∀ x i j, x ≠ e.tileAt → i < 64 → j < 128 → tileWord (t.core core).tiles x i j = tileWord (s.core core).tiles x i j) ∧
      (t.slot n).mretired = (if e.atPoint = true then (s.slot n).mretired + 1 else (s.slot n).mretired)) ∧
  (∀ (s : State) (core n : Nat) (e : Nest), n < 3072 → core = n / 2 → (s.core core).arrayBy = some n → (s.slot n).worker = some e →
    e.isOp = true → e.stepAt + e.opCycles ≤ s.tick → Rising (s.core core).tiles → ∃ t, exec (.tileOpComplete core) s = .next t ∧ SameMemory s t ∧
      let old (x i l : Nat) : BitVec 32 := tileWord (s.core core).tiles x i l
      let new (x i l : Nat) : BitVec 32 := tileWord (t.core core).tiles x i l
      let cs := (mreg e.regs 0x3B).toNat
      let g := 2 ^ (cs / 2 ^ 8 % 8)
      (e.kind = .trn → ∀ i l, i < 64 → l < 128 →
        new e.td i l = if l / 64 = cs / 2 % 2 then old e.ts (l % 64) (64 * (cs % 2) + i) else old e.td i l) ∧
      (e.kind = .prm → ∀ i l, i < 64 → l < 128 → new e.td i l = old e.ts (permRow (cs / 16 % 4) i) l) ∧
      (e.kind = .rred → ∀ i l, i < 64 → l < 128 → new e.td i l = if i < 64 / g then
        BitVec.ofNat 32 (rredSum (s.tileType core e.ts == .int32) ((mreg e.regs 0x36).getLsbD 0)
          ((List.range g).map fun k => (old e.ts (g * i + k) l).toNat)).1 else 0) ∧
      (e.kind = .zero → ∀ x i l, x < 4 → i < 64 → l < 128 → new x i l = if e.td.testBit x then 0 else old x i l) ∧
      (e.kind ≠ .zero → ∀ x i l, x ≠ e.td → i < 64 → l < 128 → new x i l = old x i l)) ∧
  (∀ (s : State) (core : Nat) (r : Retire) (rest : List Retire) (t0 : Nat) (e : Nest), (s.core core).port = r :: rest → r.since = some t0 →
    core = slotCore r.slot → r.slot < 3072 → (s.slot r.slot).nest r.nest = some e → t0 + 96 ≤ s.tick →
    let asked := (mreg e.regs 0x39).getLsbD 23 = true
    let k := (mreg e.regs 0x39).toNat / 2 ^ 16 % 64
    let cvt := retCvt e.regs
    let size := if cvt = 0 then 4 else 2
    let conv (x : BitVec 32) : Nat := if cvt = 0 then x.toNat else convertWord cvt x % 2 ^ 16
    let word (i l : Nat) : BitVec 32 := tileWord (s.core core).tiles r.tile i l
    let freed (t : State) : Prop := (t.core core).port.length = rest.length ∧
      (asked → ((t.slot r.slot).semAt k).toNat = ((s.slot r.slot).semAt k).toNat + 1)
    (asked → ((s.slot r.slot).semAt k).toNat + 1 < 2 ^ 32) →
    (∀ ps, retDest e.regs = 0 → resolve s (slotReq s r.slot) .w (retAddr e.regs r.n) (retAddr e.regs r.n) (8192 * size) = .ok ps →
      Memory.wf s.mem = true → ∃ t, exec (.retirementComplete core) s = .next t ∧ freed t ∧ (∀ k, ¬ InPieces ps k → SameByte s t k) ∧
        (∀ p, ps = [p] → isCxl p.key = false → ∀ i l, i < 64 → l < 128 →
          memNat t (p.key + size * (128 * i + l)) size = conv (word i l))) ∧
    (retDest e.regs = 1 → Rising (s.core core).tiles → ∃ t, exec (.retirementComplete core) s = .next t ∧ freed t ∧ SameMemory s t ∧
      (cvt = 0 → (t.core core).tiles = (s.core core).tiles) ∧
      (cvt ≠ 0 → ∀ x i l, i < 64 → l < 128 → tileWord (t.core core).tiles x i l = if x ≠ r.tile then tileWord (s.core core).tiles x i l
        else if l < 64 then BitVec.ofNat 32 (conv (word i (2 * l)) + 65536 * conv (word i (2 * l + 1))) else 0)) ∧
    (∀ s0 bs poison s1 b, retDest e.regs = 2 → (s.slot r.slot).fq.length < 32 → readsEmpty s (slotReq s r.slot) (mreg e.regs 0x38) 64 = false →
      fetchAll s (slotReq s r.slot) (mreg e.regs 0x38) 64 = .ok (s0, bs, poison) → retireBuckets s0 r.slot r (descOf bs) = .ok (s1, b) →
      exec (.retirementComplete core) s = .next (handOff (freePort s1 core) r.slot e r bs b))) ∧
  (∀ (s : State) (n : Nat) (e : Nest) (es : List Nest), (s.slot n).nests = e :: es → entryDone s n e = true →
    exec (.nestEntryComplete n) s = .next (s.setSlot n { s.slot n with nests := es, oslots := releaseOslots (s.slot n).oslots })) ∧
  (∀ s : State, s.tick % 850 = 0 → sfind s.aged 1 ≠ some s.tick → ∃ t, exec .nestAgeTick s = .next t ∧ SameMemory s t ∧
    ∀ n, (t.slot n).nests.map (·.age) = (s.slot n).nests.map fun e => min 255 (e.age + 1))

/-- R29, R31, R33 to R36, R38 to R40, R528: the life of a queue outside its packets. The list of the notifies that a class 0 pause holds
is the model's (log 151), as is the wait of an embedded master's QCMD through a switch of the management controller (log 146). -/
def Obligations.QueueControl : Prop :=
  (∀ (m : Master) (q : Nat) (r : List Byte) (b : List (Nat × Nat)) (s : State), barWritable s m 0x100008 = true → mgmtWaits s m = false → q < 4096 → s.qregs.busy = none →
    s.qregs.enabling = none → (s.queue q).enabled = false → loadAll s recordReq (recordAddr s q) 128 = .ok (r, b) →
    (recordOk r = true → ∃ t, exec (.enable m q) s = .next t ∧ SameRegisters s t ∧ OtherQueues s t q ∧ t.qregs = s.qregs ∧
      (let u := t.queue q
       u.enabled = true ∧ u.error = none ∧ u.pending = false ∧ u.awake = true ∧ u.slot = none ∧ u.packets = [] ∧
       u.ring = BitVec.ofNat 64 (recNat r 0 8) ∧ u.log2 = recNat r 8 1 ∧ u.prio = recNat r 9 1 % 4 ∧ u.ctx = recNat r 10 2 % 4096 ∧
       u.next = recNat r 16 8 ∧ u.retired = recNat r 24 8)) ∧
    (recordOk r = false → exec (.enable m q) s =
      .next { readied s recordReq (recordAddr s q) 128 with qregs := { s.qregs with reject := true } })) ∧
  (∀ (m : Master) (q : Nat) (s : State), barWritable s m 0x100008 = true → mgmtWaits s m = false → q < 4096 →
    let idle := s.qregs.busy = none ∧ s.qregs.enabling = none
    (¬idle ∨ (s.queue q).enabled = true →
      exec (.enable m q) s = .next { s with qregs := { s.qregs with reject := true } }) ∧
    (∀ f, idle → (s.queue q).enabled = false → loadAll s recordReq (recordAddr s q) 128 = .error f → exec (.enable m q) s = .next
      { s with qregs := if f.code = 0 then { s.qregs with enabling := some q } else { s.qregs with reject := true } }) ∧
    (¬idle ∨ (s.queue q).enabled = false →
      exec (.disable m q) s = .next { s with qregs := { s.qregs with reject := true } }) ∧
    (idle → (s.queue q).enabled = true → ∃ t, exec (.disable m q) s = .next t ∧ SameRegisters s t ∧ OtherQueues s t q ∧
      t.qregs = { s.qregs with busy := some q }) ∧
    (idle → (s.queue q).enabled = true → (s.queue q).slot = none → ((s.queue q).error = none ∨ (s.queue q).errSet = true) →
      exec (.disable m q) s = .next { s with qregs := { s.qregs with busy := some q } }) ∧
    (∀ h, idle → (s.queue q).enabled = true → (s.queue q).slot = some h → (s.queue q).error = none →
      ∃ t, exec (.disable m q) s = .next t ∧ t.queue q = (s.queue q).unmap false)) ∧
  (∀ (q : Nat) (s : State), s.qregs.busy = some q → (s.queue q).slot = none → ((s.queue q).error = none ∨ (s.queue q).errSet = true) →
    (∀ p, p ∈ (s.queue q).packets → p.started = true → p.done = true) →
    ∃ t, exec .disableComplete s = .next t ∧ SameRegisters s t ∧ OtherQueues s t q ∧ t.qregs.busy = none ∧ (t.queue q).enabled = false) ∧
  (∀ (m : Master) (q : Nat) (s : State), hedgeOk s 23 m.toNat .w (4096 * q) = true → q < 4096 →
    let woken := { s.queue q with awake := true }
    (∀ h p, (s.queue q).enabled = true → (s.queue q).errSet = false → (s.queue q).slot = some h → classPaused s 0 = false →
      (s.queue q).waiting = some p → waitHolds (s.setQ q woken) woken p = .ok true → (s.queue q).error = none →
      exec (.notify m q) s = .next ((waitRead (s.setQ q woken) woken p).setQ q
        (({ woken with packets := completed woken.packets p.idx } : Queue).rest s.tick))) ∧
    (∀ h, (s.queue q).enabled = true → (s.queue q).errSet = false → (s.queue q).slot = some h → classPaused s 0 = true →
      exec (.notify m q) s = .next (notePending s h)) ∧
    (∀ h, (s.queue q).enabled = true → (s.queue q).errSet = false → (s.queue q).slot = some h → classPaused s 0 = false →
      (s.queue q).waiting = none → exec (.notify m q) s = .next (s.setQ q { s.queue q with awake := true })) ∧
    ((s.queue q).enabled = true → (s.queue q).errSet = false → (s.queue q).slot = none →
      ∃ t, exec (.notify m q) s = .next t ∧ SameRegisters s t ∧ OtherQueues s t q ∧ t.queue q = { s.queue q with pending := true }) ∧
    ((s.queue q).enabled = false ∨ (s.queue q).errSet = true → exec (.notify m q) s = .next s)) ∧
  (∀ (e : Nat × Queue) (s : State), e ∈ s.queues → mappable s e.1 e.2 = true → ∃ q u, nextQueue s = some (q, u) ∧ u.prio ≤ e.2.prio ∧
    (u.prio = e.2.prio → e.2.pending = true → u.pending = true) ∧
    (u.prio = e.2.prio → u.pending = e.2.pending → u.lastMap ≤ e.2.lastMap)) ∧
  (∀ (q : Nat) (u : Queue) (s : State) (r : List Byte) (b : List (Nat × Nat)), loadAll s recordReq (recordAddr s q) 128 = .ok (r, b) →
    recordOk r = true → ∃ v, loadRecord s q u = .ok v ∧ v.ring = BitVec.ofNat 64 (recNat r 0 8) ∧ v.log2 = recNat r 8 1 ∧
      v.prio = recNat r 9 1 % 4 ∧ v.ctx = recNat r 10 2 % 4096 ∧ v.pending = (recNat r 14 1).testBit 0 ∧
      (u.packets = [] → v.next = recNat r 16 8 ∧ v.retired = recNat r 24 8)) ∧
  (∀ (q : Nat) (u : Queue) (s : State), classPaused s 0 = false → s.qregs.enabling = none → nextQueue s = some (q, u) → s.queue q = u →
    (∀ h v, freeHw s = some h → loadRecord s q u = .ok v → ∃ t, exec .queueMap s = .next t ∧ SameRegisters s t ∧ OtherQueues s t q ∧
      (t.queue q).slot = some h ∧ (t.queue q).pending = false ∧ (t.queue q).awake = (v.awake || v.pending) ∧ (t.queue q).next = v.next ∧
      (t.queue q).ring = v.ring ∧ (t.queue q).packets = v.packets) ∧
    (∀ v w, freeHw s = none → victimQueue (s.queues.filter (·.2.slot.isSome)) = some (v, w) → s.queue v = w → u.prio < w.prio →
      ∃ t, exec .queueMap s = .next t ∧ SameRegisters s t ∧ OtherQueues s t v ∧ t.queue v = w.unmap true)) ∧
  (∀ (h q : Nat) (u : Queue) (s : State), queueAt s h = some (q, u) → s.queue q = u → classPaused s 0 = false →
    (u.awake = false → u.packets.all (·.done) = true → 54400 ≤ s.tick - u.idleFrom → ∃ t, exec (.idleUnmap h) s = .next t ∧
      SameRegisters s t ∧ OtherQueues s t q ∧ t.queue q = u.unmap false) ∧
    (freeHw s = none → (∃ e, e ∈ s.queues ∧ mappable s e.1 e.2 = true ∧ e.2.prio = u.prio) → 850000 ≤ s.tick - u.mappedAt →
      ∃ t, exec (.timesliceUnmap h) s = .next t ∧ SameRegisters s t ∧ OtherQueues s t q ∧ t.queue q = u.unmap true))

/-- R19, R20, R26, R31, R32: fetching, waits, and the ring area, whose accesses are checked under BAR2's Hedge target alone (log 65). -/
def Obligations.QueueFetch : Prop :=
  (∀ (h q : Nat) (u : Queue) (s : State), queueAt s h = some (q, u) → s.queue q = u →
    (∀ b c, u.awake = true → u.error = none → classPaused s 0 = false → loadAll s (packetReq u) (u.entryAddr u.next) 1 = .ok (b, c) →
      (bytesNat b % 2 ≠ 1 - u.next / 2 ^ u.log2 % 2 → ∃ t, exec (.entryFetch h) s = .next t ∧ OtherQueues s t q ∧ SameMemory s t ∧
        (t.queue q).awake = false ∧ (t.queue q).invalid = some s.tick ∧ (t.queue q).next = u.next ∧ (t.queue q).packets = u.packets) ∧
      (∀ bs d, bytesNat b % 2 = 1 - u.next / 2 ^ u.log2 % 2 → loadAll s (packetReq u) (u.entryAddr u.next) 128 = .ok (bs, d) →
        exec (.entryFetch h) s = .next ((readied s (packetReq u) (u.entryAddr u.next) 128).setQ q { u with packets := u.packets ++ [{ idx := u.next, bytes := bs }], next := u.next + 1, invalid := none }))) ∧
    (∀ t0, u.invalid = some t0 → 1700 ≤ s.tick - t0 → u.awake = false → exec (.fetchPoll h) s = .next (s.setQ q { u with awake := true })) ∧
    (∀ p, u.waiting = some p → u.error = none →
      (850 ≤ s.tick - p.checked → waitHolds s u p = .ok true → exec (.waitRecheck h) s =
        .next ((waitRead s u p).setQ q (({ u with packets := completed u.packets p.idx } : Queue).rest s.tick))) ∧
      (850 ≤ s.tick - p.checked → waitHolds s u p = .ok false → exec (.waitRecheck h) s =
        .next ((waitRead s u p).setQ q { u with packets := u.packets.map fun r => if r.idx = p.idx then { r with checked := s.tick } else r })) ∧
      (let n := recNat p.bytes 20 4
       n ≠ 0 → n * 850 ≤ s.tick - p.since →
        (waitHolds s u p = .ok true → exec (.waitTimeout h) s =
          .next ((waitRead s u p).setQ q (({ u with packets := completed u.packets p.idx } : Queue).rest s.tick))) ∧
        (waitHolds s u p = .ok false → ∃ t e, exec (.waitTimeout h) s = .next t ∧ SameRegisters s t ∧ OtherQueues s t q ∧
          (t.queue q).error = some e ∧ e.code = Code.watchdog ∧ e.idx = p.idx)) ∧
      (∀ f, 850 ≤ s.tick - p.checked → waitHolds s u p = .error f → f.code ≠ 0 → ∃ t e, exec (.waitRecheck h) s = .next t ∧
        OtherQueues s t q ∧ (t.queue q).error = some e ∧ e.code = f.code ∧ e.idx = p.idx))) ∧
  (∀ (off : Nat) (op : HostOp) (s : State), bar0Only s = false → 0x1000000 ≤ off → off + HostOp.len op ≤ 0x2000000 →
    let a := s.qregs.ringwin.toNat + (off - 0x1000000)
    (hedgeOk s 23 6 (HostOp.acc op) off = true → isHbm a = true →
      (∀ n, op = .read n → readReady s a n = true → exec (.bar2RingAccess off op) s =
        .next { s with outbox := s.outbox ++ [.hostRead (readBytes s.mem a n) (touchesPoison s { key := a, len := n })] }) ∧
      (∀ bs, op = .write bs → bs ≠ [] → accReady s .w a bs.length = true → logReady s a bs.length = true → Memory.wf s.mem = true → ∃ t, exec (.bar2RingAccess off op) s = .next t ∧
        SameRegisters s t ∧ readBytes t.mem a bs.length = bs ∧ ∀ k, (k < a ∨ a + bs.length ≤ k) → SameByte s t k)) ∧
    (hedgeOk s 23 6 (HostOp.acc op) off = false ∨ isHbm a = false →
      (∀ n, op = .read n → exec (.bar2RingAccess off op) s = .next { s with outbox := s.outbox ++ [.hostRead (List.replicate n 0) false] }) ∧
      (∀ bs, op = .write bs → exec (.bar2RingAccess off op) s = .next s))) ∧
  (∀ (off : Nat) (s : State), bar0Only s = false → off < 0x1000000 →
    (∀ n, exec (.bar2RingAccess off (.read n)) s = .next { s with outbox := s.outbox ++ [.hostRead (List.replicate n 0) false] }) ∧
    (∀ bs, off % 4096 = 0 → exec (.bar2RingAccess off (.write bs)) s = exec (.notify 6 (off / 4096)) s) ∧
    (∀ bs, off % 4096 ≠ 0 → exec (.bar2RingAccess off (.write bs)) s = .next s))

/-- R25 to R27, R29, R281: the packets. The model's choices: FILL's misalignment before COUNT 0 and before the space (logs 64, 128), and a
SIGNAL of OP NONE whose ADDR nothing looks at (log 129). -/
def Obligations.QueuePackets : Prop :=
  (∀ (h q : Nat) (u : Queue) (p : Packet) (s : State),
    let r := packetReq u
    let fin : Queue := ({ u with packets := completed u.packets p.idx } : Queue).rest s.tick
    let begun (f : Packet → Packet) : Queue := { u with packets := u.packets.map fun x => if x.idx = p.idx then f { x with started := true } else x }
    let a := p.word 8
    let ends (w : Instr) (s1 : State) : Prop := exec w s = .next (s1.setQ q fin)
    let stores (w : Instr) (key n v : Nat) : Prop := ∃ t, exec w s = .next t ∧ SameRegisters s t ∧ OtherQueues s t q ∧ t.queue q = fin ∧
      memNat t key n = v ∧ ∀ k, (k < key ∨ key + n ≤ k) → SameByte s t k
    (Starts s h 0 q u p → ends (.nopPacket h) s) ∧
    (Starts s h 8 q u p → ends (.fencePacket h) s) ∧
    (∀ s1, Starts s h 3 q u p → storeRunAll s r a ((p.bytes.drop 32).take (recNat p.bytes 16 1)) = (s1, none) → ends (.writePacket h) s1) ∧
    (Starts s h 4 q u p →
      let w := 2 ^ recNat p.bytes 24 1
      (∀ s1, a.toNat % w = 0 → storeRunAll s r a (fillBytes w (recNat p.bytes 32 8) (recNat p.bytes 40 8) (recNat p.bytes 16 8)) = (s1, none) →
        ends (.fillPacket h) s1) ∧
      (a.toNat % w ≠ 0 → ∃ t e, exec (.fillPacket h) s = .next t ∧ OtherQueues s t q ∧ (t.queue q).error = some e ∧ e.code = Code.misalign ∧ e.idx = p.idx)) ∧
    (Starts s h 5 q u p →
      let n := recNat p.bytes 24 8
      (n = 0 → ends (.copyPacket h) s) ∧
      (∀ bs bad s1, 0 < n → loadRun s r a n = .ok (bs, bad) → storeRunAll (readied s r a n) r (p.word 16) bs = (s1, none) →
        ends (.copyPacket h) (poisonRun s1 r (p.word 16) n bad))) ∧
    (Starts s h 6 q u p →
      let op := recNat p.bytes 16 1
      let m := recNat p.bytes 18 2
      (op = 0 → ends (.signalPacket h) (if m.testBit 15 then sendMsix s (m % 2048) else s)) ∧
      (∀ pc, a.toNat % 8 = 0 → a.toNat / 2 ^ 60 = 0 → isCxl pc.key = false → Memory.wf s.mem = true →
        (op = 1 → resolve s r .w a a 8 = .ok [pc] → stores (.signalPacket h) pc.key 8 (recNat p.bytes 24 8)) ∧
        (op = 2 → resolve s r .rw a a 8 = .ok [pc] → stores (.signalPacket h) pc.key 8 ((memNat s pc.key 8 + recNat p.bytes 24 8) % 2 ^ 64)) ∧
        ((op = 1 ∧ resolve s r .w a a 8 = .ok [pc] ∨ op = 2 ∧ resolve s r .rw a a 8 = .ok [pc]) → ∃ t, exec (.signalPacket h) s = .next t ∧
          t.outbox = (if m.testBit 15 then sendMsix s (m % 2048) else s).outbox))) ∧
    (∀ pc, Starts s h 10 q u p → a.toNat % 8 = 0 → a.toNat / 2 ^ 60 = 0 → isCxl pc.key = false → Memory.wf s.mem = true →
      resolve s r .w a a 8 = .ok [pc] → stores (.timestampPacket h) pc.key 8 (s.tick % 2 ^ 64)) ∧
    (Starts s h 7 q u p →
      (waitHolds s u p = .ok true → ends (.waitPacket h) (waitRead s u p)) ∧
      (waitHolds s u p = .ok false → exec (.waitPacket h) s = .next ((waitRead s u p).setQ q (begun fun x => { x with since := s.tick, checked := s.tick })))) ∧
    (∀ bs b, Starts s h 1 q u p → a.toNat / 2 ^ 60 = 0 → a.toNat % 256 = 0 → loadAll s (engineReq 3 u.ctx) a 256 = .ok (bs, b) →
      ∃ t l, exec (.launchPacket h) s = .next t ∧ SameRegisters s t ∧ OtherQueues s t q ∧ t.queue q = begun ({ · with launch := some s.nextLaunch }) ∧
        t.nextLaunch = s.nextLaunch + 1 ∧ t.launch s.nextLaunch = some l ∧ l.origin = .packet q p.idx ∧ l.phase = .waiting ∧ l.ctx = u.ctx ∧
        l.code = BitVec.ofNat 64 (recNat bs 0 8) ∧ l.launchid = BitVec.ofNat 32 (recNat bs 20 4) ∧ l.completion = BitVec.ofNat 64 (recNat bs 40 8)) ∧
    (∀ hdr ns, Starts s h 2 q u p → readTable s u.ctx a (recNat p.bytes 16 4) = .ok (hdr, ns) →
      ∃ t v, exec (.graphPacket h) s = .next t ∧ SameRegisters s t ∧ OtherQueues s t q ∧ t.queue q = begun ({ · with graph := some s.nextGraph }) ∧
        t.nextGraph = s.nextGraph + 1 ∧ t.graph s.nextGraph = some v ∧ v.ctx = u.ctx ∧ v.table = a ∧ v.q = q ∧ v.idx = p.idx ∧
        v.entry = recNat p.bytes 16 4 ∧ v.fault = recNat hdr 2 2 ∧ v.nodes.length = ns.length) ∧
    (queueAt s h = some (q, u) → s.queue q = u → classPaused s 0 = false → u.error = none → u.startable = some p → 11 ≤ p.type →
      ∃ t e, exec (.nopPacket h) s = .next t ∧ SameRegisters s t ∧ OtherQueues s t q ∧ (t.queue q).error = some e ∧ e.code = Code.illegalOp ∧ e.idx = p.idx)) ∧
  (∀ (r : Req) (a : Word) (bs : List Byte) (pc : Piece) (s : State), a.toNat / 2 ^ 60 = 0 → a.toNat % 65536 + bs.length ≤ 65536 →
    resolve s r .w a a bs.length = .ok [pc] → isCxl pc.key = false → Memory.wf s.mem = true → ∃ s1, storeRunAll s r a bs = (s1, none) ∧
      SameRegisters s s1 ∧ readBytes s1.mem pc.key bs.length = bs ∧ ∀ k, (k < pc.key ∨ pc.key + bs.length ≤ k) → SameByte s s1 k) ∧
  (∀ w v st n i : Nat, i < n → bytesNat (((fillBytes w v st n).drop (i * w)).take w) = (v + i * st) % 2 ^ (8 * w)) ∧
  (∀ (h n q : Nat) (u : Queue) (s : State), s.queues.find? (fun e => e.2.enabled && e.2.lastSlot == h &&
      e.2.packets.any fun p => p.idx == n && (p.isOver s || (p.done && (dropDone e.2.retired e.2.packets).1 != e.2.retired))) = some (q, u) →
    s.queue q = u → (u.error = none ∨ u.errSet = true ∨ u.packets.any (fun p => p.idx == n && p.isOver s) = false) →
    let ps := if u.packets.any (fun p => p.idx == n && p.isOver s) then completed u.packets n else u.packets
    ∃ t, exec (.packetComplete h n) s = .next t ∧ SameRegisters s t ∧ OtherQueues s t q ∧
      (t.queue q).retired = u.retired + (ps.takeWhile fun p => p.done && !p.failed).length ∧
      (t.queue q).packets = ps.dropWhile fun p => p.done && !p.failed)

/-- R191, R377, R379, R382, R390, R391: the directory. -/
def Obligations.TarnPackets : Prop :=
  (∀ (h q : Nat) (u : Queue) (p : Packet) (rec : List Byte) (b : List (Nat × Nat)) (s : State), Starts s h 9 q u p → adminRunning s h = [] →
    p.admin = none → p.since = 0 →
    let r := packetReq u
    let a := p.word 8
    let name := recNat rec 8 6
    let who := Asker.admin q p.idx
    let spec : Word := BitVec.ofNat 64 (recNat rec 16 8)
    let op := recNat rec 0 1
    let s' := readied s r a 64
    let new := newTarn s' u.ctx name (recNat rec 24 2) spec (.auto none (recordAsker q p.idx))
    let ends (w : Instr) (code sub : Nat) (v : Word) (s0 : State) : Prop := ∀ s1 s2,
      storeAll s0 r (a + 32) (natBytes 1 code ++ natBytes 1 sub) = .ok s1 → storeAll s1 r (a + 40) (natBytes 8 v.toNat) = .ok s2 →
      ∃ t, exec w s = .next t ∧ OtherQueues s0 t q ∧ SameRegisters s0 t ∧ t.mem = s2.mem ∧ t.tarns = s2.tarns ∧
        t.queue q = ({ s0.queue q with packets := completed (s0.queue q).packets p.idx } : Queue).rest s.tick
    let goesOn (w : Instr) (s0 : State) : Prop := ∃ t, exec w s = .next t ∧ OtherQueues s0 t q ∧ SameRegisters s0 t ∧ t.mem = s0.mem ∧
      t.tarns = s0.tarns ∧ (t.queue q).packets = (s0.queue q).packets.map fun x => if x.idx = p.idx then { x with started := true } else x
    let seg (w : Instr) : Seg → Prop
      | .done s0 => ends w 0 0 0 s0
      | .wait s0 => goesOn w s0
      | .fail f => ends w f.code f.sub.toNat 0 s'
    a.toNat % 64 = 0 → a.toNat / 2 ^ 60 = 0 → loadRun s r a 64 = .ok (rec, b) → badAdmin rec = false →
    (op = 3 → ends (.segadminQuery h) 0 0 (tarnWord s u.ctx name) s') ∧
    (op = 2 → seg (.segadminDrop h) (segDrop s' u.ctx name who)) ∧
    (op = 1 → seg (.segadminEvict h) (segEvict s' u.ctx name who)) ∧
    (op = 0 → specBad spec = true ∨ bits spec 17 2 ≤ 1 → ends (.segadminNew h) Code.illegalOp 0x0A 0 s') ∧
    (op = 0 → specBad spec = false → 2 ≤ bits spec 17 2 →
      (∀ s1, new = .wait s1 → goesOn (.segadminNew h) s1) ∧
      (∀ e s1, new = .fail e s1 → ends (.segadminNew h) e.code e.sub.toNat 0 s1) ∧
      (∀ s1 n, new = .made s1 n → ∃ t, exec (.segadminNew h) s = .next t ∧ OtherQueues s1 t q ∧ SameRegisters s1 t ∧
        findTarn t u.ctx name = some { n with askedBy := some who } ∧
        n.state = .filling ∧ n.readers = 0 ∧ n.writer = false ∧ n.size = bits spec 0 15 ∧ n.level = bits spec 15 2 ∧
        (t.queue q).packets = (s1.queue q).packets.map fun x =>
          if x.idx = p.idx then { x with started := true, since := 1, adminVal := adminBase n } else x))) ∧
  (∀ (ctx name : Nat) (n : Tarn) (s : State), findTarn s ctx name = some n →
    (∀ who s1, segDrop s ctx name who = .done s1 → findTarn s1 ctx name = none) ∧
    (∀ who, n.attached = true → n.ending = false → n.drops.contains who = false → segDrop s ctx name who = .fail (trapOf Code.segConflict 1)) ∧
    (∀ who, n.attached = true → n.ending = false → n.evicts.contains who = false → segEvict s ctx name who = .fail (trapOf Code.segConflict 1))) ∧
  (∀ (ctx name : Nat) (n : Tarn) (s : State), findTarn s ctx name = some n → n.ending = false →
    let quiet (l : List Asker) : Prop := ∀ m id, Asker.cmd m id ∉ l
    (n.state = .filling → n.moveFrom = none → n.fresh = true → n.fill = false → n.evicts = [] → ∃ t, exec (.tarnFillComplete ctx name) s = .next t ∧
      SameRegisters s t ∧ (quiet n.askedBy.toList → SameMemory s t) ∧ (findTarn t ctx name).map (·.state) = some .resident) ∧
    (∀ s1, n.state = .filling → n.moveFrom = none → (n.fresh = false ∨ n.fill = true) → n.evicts = [] → fillUnits s n (upTo 0 n.size) = .ok s1 →
      ∃ t, exec (.tarnFillComplete ctx name) s = .next t ∧ SameRegisters s t ∧ (quiet n.askedBy.toList → t.mem = s1.mem) ∧
        (findTarn t ctx name).map (·.state) = some .resident) ∧
    (∀ home run, n.state = .filling → n.moveFrom = some (home, run) → n.evicts = [] → ∃ t, exec (.tarnFillComplete ctx name) s = .next t ∧
      SameRegisters s t ∧ (quiet n.askedBy.toList → t.mem = (moveCopy s n home run).mem) ∧
        (findTarn t ctx name).map (fun x => (x.state, x.moveFrom)) = some (.resident, none)) ∧
    (∀ s1, n.state = .evicting → writeBackUnits s n (sortNat n.dirty) = .ok s1 →
      ∃ t, exec (.tarnWritebackComplete ctx name) s = .next t ∧ SameRegisters s t ∧
        (findTarn t ctx name).map (fun x => (x.state, x.dirty, x.evicts)) = some (.evicted, [], []) ∧
        (quiet n.evicts → t.mem = (freeStorage s1 n).mem)) ∧
    (∀ g w s1 run, n.mover = some (g, w) → (n.leave w).attached = false → (∀ x, x ∈ n.holds → x = (s.slot g.slot).launch) →
      n.state = .resident ∨ n.state = .evicted →
      allocRun s n.level (domainOf n.level (slotCore g.slot)) n.size (.auto (some (s.slot g.slot).launch) g.asker) = (.got run, s1) →
      (findTarn s1 ctx name).isSome = true → ∃ t, exec (.tarnMigration ctx name) s = .next t ∧ SameRegisters s t ∧
        (findTarn t ctx name).map (fun x => (x.state, x.home, x.run, x.moveFrom)) =
          some (.filling, domainOf n.level (slotCore g.slot), run, if n.state = .resident then some (n.home, n.run) else none)))

/-- R281 to R284, R286, R290: resident graphs. -/
def Obligations.GraphSteps : Prop :=
  (∀ (g : Nat) (v : Graph) (s : State), s.graph g = some v → classPaused s 0 = false →
    let started (n : GNode) : GNode := { n with state := .done, tick := BitVec.ofNat 64 s.tick }
    let fails (w : Instr) (i code sub : Nat) : Prop := (v.node i).onPath = false → v.failed = false → v.fault < v.nodes.length → v.fault ≠ 0xFFFF →
      v.fault ≠ i → (v.node v.fault).state = .waiting → ∃ t u, exec w s = .next t ∧ SameRegisters s t ∧ t.graph g = some u ∧ u.failed = true ∧
        u.faultCode = code ∧ u.failNode = i ∧ (u.node i).state = .failed ∧ (u.node i).code = code ∧ (u.node i).sub = sub ∧
        (u.node v.fault).state = .running
    (v.loaded = false → tableRoom s v = true → v.entry < v.nodes.length → ∃ t w, exec (.graphTableLoad g) s = .next t ∧ SameRegisters s t ∧
      t.graph g = some w ∧ w.loaded = true ∧ w.start = BitVec.ofNat 64 s.tick ∧ (w.node v.entry).state = .running ∧
      ∀ j, j < v.nodes.length → (w.node j).cnt = (v.node j).preds) ∧
    (v.loaded = true ∨ tableRoom s v = false → exec (.graphTableLoad g) s = .next s) ∧
    (∀ (i : Nat) (c : Completion), s.completions[i]? = some c → c.graph = g → c.node < v.nodes.length →
      let n := v.node c.node
      let set := n.succ (if n.type = 3 then c.status else 0)
      let after := v.modNode c.node fun n => { started n with result := if n.type = 0 ∨ n.type = 3 then c.status else n.result }
      let lost := n.type = 0 ∧ c.status = 2
      (c.fault = none → ¬lost → v.halted c.node = false → ∃ t, exec (.completionProcessing i) s = .next t ∧ SameRegisters s t ∧
        SetTaken t g after set) ∧
      (c.fault = none → ¬lost → v.pathDead = false → decrement after set = none → fails (.completionProcessing i) c.node Code.illegalOp 0x0C) ∧
      (∀ f, c.fault = some f → fails (.completionProcessing i) c.node f.code f.sub.toNat) ∧
      (c.fault = none → lost → fails (.completionProcessing i) c.node c.code 0)) ∧
    (∀ (node : Nat), node < v.nodes.length →
      let n := v.node node
      let first := recNat n.bytes 36 2
      let last := recNat n.bytes 38 2
      let limit := recNat n.bytes 32 4
      n.evaluating = true → (∀ k, first ≤ k → k ≤ last → (v.node k).state ≠ .running) → (n.word 24).toNat % 8 = 0 →
      (n.word 24).toNat / 2 ^ 60 = 0 →
      let read := loadAll s (engineReq 3 v.ctx) (n.word 24) 8
      let quits (r : Nat) : Prop := ∃ t, exec (.loopEvaluate g node) s = .next t ∧ SameRegisters s t ∧
        SetTaken t g (v.modNode node fun n => { started n with result := r, evaluating := false }) (n.succ 1)
      (∀ b z, read = .ok (b, z) → v.halted node = false →
        (bytesNat b = 0 → quits 0) ∧ (bytesNat b ≠ 0 → limit ≤ n.iter → quits 1) ∧
        (bytesNat b ≠ 0 → n.iter < limit → ∃ t, exec (.loopEvaluate g node) s = .next t ∧ SameRegisters s t ∧
          SetTaken t g (rearm v node first last) (n.succ 0))) ∧
      (∀ f, read = .error f → f.code ≠ 0 → fails (.loopEvaluate g node) node f.code f.sub.toNat)) ∧
    (∀ node, (v.node node).type = 6 → (v.node node).state = .running → v.halted node = false →
      (v.othersRun node = false → ∃ t, exec (.endNode g node) s = .next t ∧ SameRegisters s t ∧ t.graph g = none ∧
        (∀ k, k ≠ g → t.graph k = s.graph k) ∧ ∀ c, c ∈ t.completions ↔ c ∈ s.completions ∧ c.graph ≠ g) ∧
      (v.othersRun node = true → exec (.endNode g node) s = .next s))) ∧
  (∀ (v v1 : Graph) (ks ready : List Nat), decrement v ks = some (v1, ready) → ks.Nodup → ∀ k,
    (k ∈ ks → (v1.node k).cnt = (v.node k).cnt - 1 ∧ (k ∈ ready ↔ (v.node k).cnt = 1)) ∧ (k ∉ ks → v1.node k = v.node k)) ∧
  (∀ (v : Graph) (i first last k : Nat), first ≤ k → k ≤ last → k < v.nodes.length → k ≠ i → i < v.nodes.length →
    let w := rearm v i first last
    (w.node k).state = .waiting ∧ (w.node k).cnt = (v.node k).preds ∧ (w.node i).state = .iterating ∧ (w.node i).iter = (v.node i).iter + 1 ∧
    (w.node i).evaluating = false ∧ (¬(first ≤ i ∧ i ≤ last) → (w.node i).cnt = recNat (v.node i).bytes 40 2))

/-- R293, R295, R302, R305, R307 to R309, R311, R314 to R317: launches and the task queue. The model's choices: TQ.REPRIO reaches every
context (log 163), an admission waits through a class 3 switch (log 146), and the counter that a leaf's JOIN names is free (log 76). -/
def Obligations.LaunchSteps : Prop :=
  (∀ (l : Launch) (s : State), admitting s = some l → s.launch l.id = some l → l.phase = .waiting → Rising s.launches →
    (∀ f, checkLaunch s l = .error f → f.code ≠ 0 → ∃ t, exec .launchAdmission s = .next t ∧ t.launch l.id = none ∧
      ∀ g : Agent, (s.slot g.slot).state ≠ .free → (t.stream g).x = (s.stream g).x) ∧
    (∀ l1 s1 l2 s2 l3, checkLaunch s l = .ok l1 → admitTarns (checkReads s l) { l1 with phase := .tarns } (l1.tarns.drop l1.heldN) = .go s1 l2 → s1.therm.held = false →
      classPaused s1 3 = false → assignRamp s1 l2 = .go s2 l3 →
      (l2.coresident = false → ∃ t, exec .launchAdmission s = .next t ∧ (t.launch l.id).map (·.phase) = some .running) ∧
      (∀ h, l2.coresident = true → readHeader s2 3 l.ctx l.code = .ok h → impossible s2 l3 h = false →
        exec .launchAdmission s = .next (putLaunch s2 { l3 with phase := .reserve, openedAt := s1.tick }))) ∧
    (∀ l1 s1 l2, checkLaunch s l = .ok l1 → admitTarns (checkReads s l) { l1 with phase := .tarns } (l1.tarns.drop l1.heldN) = .go s1 l2 →
      s1.therm.held = true ∨ classPaused s1 3 = true → exec .launchAdmission s = .next (putLaunch s1 l2))) ∧
  (∀ (id : Nat) (l : Launch) (s s1 : State), s.launch id = some l → l.id = id →
    (l.phase = .running → l.nextLeaf < l.jobs → queuedLeaves s id < 256 → enqueue s (leafRec l l.nextLeaf s.tick) = some s1 →
      ∃ t r, exec (.hierarchyExpansion id) s = .next t ∧ sfind t.tq.records s.tq.nextRec = some r ∧ r.code = l.code ∧
        r.frame = l.frame + BitVec.ofNat 64 (l.nextLeaf * l.fstride) ∧ r.leaf = BitVec.ofNat 32 l.nextLeaf ∧ r.leafv = true ∧ r.launch = l.id ∧ r.join.toNat % 8 = 0 ∧
        (∃ l', t.launch id = some l' ∧ l.nextLeaf < l'.nextLeaf) ∧ ∀ n, (t.slot n).state = (s.slot n).state) ∧
    (∀ h n, l.phase = .reserve → readHeader s 3 l.ctx l.code = .ok h → reservable s l h n = true →
      let s2 := s.setSlot n { reserved := some id, tilesMask := hdrTiles h, oslotMask := hdrOslots h, ringMask := hdrRings h, portMask := hdrPorts h
                              partStart := (fitHeader s n h).getD 0, partLen := hdrQuota h }
      let free := ∀ c, l.cluster = some c → sfind s.circuits c = none
      (reservedAll s2 l = false → exec (.coresidentReserve id n) s = .next s2) ∧
      (reservedAll s2 l = true → free → s.tick < 256 * l.rampFirst → ∃ t, exec (.coresidentReserve id n) s = .next t ∧
        (t.launch id).map (·.phase) = some .running ∧ (t.slot n).reserved = some id) ∧
      (∀ s3 l3, reservedAll s2 l = true → free → 256 * l.rampFirst ≤ s.tick → s.therm.held = false → classPaused s 3 = false →
        assignRamp { s2 with gov := s2.gov.release (rampPower l.rampclass) l.rampList } { l with rampList := [] } = .go s3 l3 →
        ∃ t, exec (.coresidentReserve id n) s = .next t ∧ (t.launch id).map (·.phase) = some .running)) ∧
    (l.phase = .reserve → max 1 s.tq.cowait.toNat * 850 ≤ s.tick - l.openedAt → Rising s.launches →
      ∃ t, exec (.cowaitTimeout id) s = .next t ∧ t.launch id = none ∧
        ∀ n, n < 3072 → (s.slot n).state = .free → (s.slot n).reserved = some id → (t.slot n).reserved = none)) ∧
  (∀ (id : Nat) (r : TaskRec) (s : State), sfind s.tq.records id = some r →
    let sets (r : TaskRec) : State := { s with tq := { s.tq with records := sput s.tq.records id r } }
    (r.held = false → r.ready = false → r.readyAt ≤ s.tick → exec (.recordReady id) s = .next (sets { r with ready := true, age := 0, prioAt := if r.resume then r.prioAt else r.prio })) ∧
    (r.ready = true → max 1 s.tq.affwait.toNat * 850 ≤ s.tick - r.readyAt → exec (.affinityRelax id) s = .next (sets { r with relaxed := true })) ∧
    (∀ b, smallestKey (s.tq.records.filter fun e => e.2.spilled && e.2.bank == b && !mustSpill s e.2) = some (id, r) →
      exec (.spillRefill b) s = .next (sets { r with spilled := false, spillAt := 0 }))) ∧
  (∀ (e : Nat × TaskRec) (es : List (Nat × TaskRec)), e ∈ es → ∃ x, smallestKey es = some x ∧ x.2.key.toNat ≤ e.2.key.toNat) ∧
  (∀ s : State, s.tick % 850 = 0 → sfind s.aged 2 ≠ some s.tick → ∃ t, exec .recordAgeTick s = .next t ∧ t.slots = s.slots ∧ t.mem = s.mem ∧
    t.tq.records = s.tq.records.map fun e => (e.1, { e.2 with age := if e.2.ready then min 255 (e.2.age + 1) else e.2.age })) ∧
  (∀ (n pick id start : Nat) (r : TaskRec) (h : List Byte) (s : State), n < 3072 → (s.slot n).state = .free → coreOpen s (n / 2) = true →
    blockedBy s n = none → (popWindow (jobCands s n))[pick % max 1 (popWindow (jobCands s n)).length]? = some (id, r) →
    readHeader s 4 r.ctx r.code = .ok h → fitRec s n r = some start → Rising s.tq.records →
    ∃ t, exec (.taskPop n pick) s = .next t ∧ sfind t.tq.records id = none ∧ (∀ m, m ≠ n → t.slot m = s.slot m) ∧
      (let j := t.slot n
       j.state = .starting ∧ j.job = r ∧ j.ctx = r.ctx ∧ j.launch = r.launch ∧ j.prio = r.prio ∧ j.partStart = start ∧ j.partLen = hdrQuota h ∧
       j.tilesMask = hdrTiles h ∧ j.oslotMask = hdrOslots h ∧ j.ringMask = hdrRings h ∧ j.portMask = hdrPorts h) ∧
      (start + hdrQuota h ≤ 2 ^ 21 → ∀ k, start ≤ k → k < start + hdrQuota h → memRead t.mem (padKey (n / 2) k) = 0)) ∧
  (∀ (id n : Nat) (s : State), isVictim s (victimsOf s id) n = true → ∃ t, exec (.preemptionRequest id n) s = .next t ∧
    sfind t.tq.stopReqs n = some id ∧ (t.core (n / 2)).fw.event = (s.core (n / 2)).fw.event ||| (if n % 2 = 0 then 8 else 16) ∧ t.slots = s.slots) ∧
  (∀ (m : Master) (d : Word) (s : State), barWritable s m 0x120010 = true → mgmtWaits s m = false → ∃ t, exec (.tqReprio m d) s = .next t ∧ SameMemory s t ∧ SameRegisters s t ∧
    (∀ e, e ∈ s.tq.records → (e.1, { e.2 with prio := if e.2.launchid = d.setWidth 32 then bits d 32 2 else e.2.prio }) ∈ t.tq.records) ∧
    (∀ n, n < 3072 → (s.slot n).state ≠ .free → (s.slot n).job.launchid = d.setWidth 32 → (t.slot n).prio = bits d 32 2 ∧
      (t.slot n).nests = (s.slot n).nests.map fun e => { e with prio := max e.prio (bits d 32 2) }) ∧
    (∀ e, e ∈ s.launches → (e.1, { e.2 with prio := if e.2.launchid = d.setWidth 32 then bits d 32 2 else e.2.prio }) ∈ t.launches) ∧
    (∀ n, n < 3072 → (s.slot n).state ≠ .free → (s.slot n).job.launchid ≠ d.setWidth 32 → t.slot n = s.slot n))

/-- R79, R110, R152, R154, R203, R231, R303, R318, R321, R335, R434, R479: the life of a job. That an age moves once in a TICK, by the unit's
cycle or by STREAM_AGE_TICK, whichever comes first, is the model's choice (log 144), and so is that a restored stream's barrier counts are
those which its launch keeps (log 83). -/
def Obligations.JobLife : Prop :=
  (∀ (n live : Nat) (h : List Byte) (es : List TarnReq) (ranges : List (Nat × Nat)) (s s1 : State),
    let s' := startReads (loadStart s n) n
    let j := s'.slot n
    n < 3072 → (s.slot n).state = .starting → (s.slot n).resuming = false → (s.slot n).job.resume = false → readHeader s' 3 j.ctx j.job.code = .ok h →
    startEntries s' j h = .ok es → liveEntries s' j.ctx h = .ok (live, ranges) → attachAll s' n (es.drop j.attachAt) = .go s1 →
    ∃ u, exec (.jobStart n) s = .next u ∧ (u.slot n).state = .running ∧ (u.slot n).startAt = s1.tick ∧
      (u.slot n).a = firstStream h j.job.frame .a ∧ (u.slot n).m = firstStream h j.job.frame .m ∧ (u.slot n).v = firstStream h j.job.frame .v ∧
      (∀ x i l, x < 4 → (s1.slot n).tilesMask.testBit x = true → i < 64 → l < 128 →
        tileWord (u.core (n / 2)).tiles x i l = 0 ∧ u.tileType (n / 2) x = .fp32) ∧
      (∀ lane off, lane < 128 → off < 512 → memRead u.mem (laneKey (n / 2) lane (512 * (n % 2) + off)) = 0)) ∧
  (∀ (h : List Byte) (f : Word) (k : StreamId),
    let sect := hdrSect h (match k with | .a => 0 | .m => 1 | .v => 2)
    let st := firstStream h f k
    (sect.2 = 0 → st.ended = true) ∧
    (sect.2 ≠ 0 → st.ended = false ∧ st.pc = sect.1 + BitVec.ofNat 64 (recNat h (8 + 4 * (match k with | .a => 0 | .m => 1 | .v => 2)) 4) ∧
      st.x[(29 : Fin 32)] = f ∧ ∀ i : Fin 32, i ≠ 29 → st.x[i] = 0)) ∧
  (∀ (n : Nat) (sv : Saved) (s : State), n < 3072 → (s.slot n).state = .starting → (s.slot n).resuming = false → (s.slot n).job.resume = true →
    sfind s.saves (s.slot n).job.frame.toNat = some sv → refetches sv.slot = [] → sv.slot.cq = [] → sv.slot.fq = [] → sv.windows = [] →
    ∃ u, exec (.jobStart n) s = .next u ∧ (u.slot n).state = .running ∧
      (∀ k, (u.slot n).stream k = { sv.slot.stream k with wait := none, age := 0, readyFor := 0, monitor := none, phase := none, rdv := []
                                                          lbar := ((u.slot n).stream k).lbar }) ∧ (u.slot n).sem = sv.slot.sem ∧ (u.slot n).attach = sv.slot.attach ∧ ∀ g : Agent, g.slot ≠ n → u.stream g = s.stream g) ∧
  (∀ (n : Nat) (s : State), n < 3072 → jobDone (s.slot n) = true → ∃ u, exec (.jobEnd n) s = .next u ∧ u.slot n = {} ∧
    ∀ g : Agent, g.slot ≠ n → ((s.slot g.slot).state ≠ .free ∨ (s.slot g.slot).reserved = none) →
      (u.stream g).x = (s.stream g).x ∧ (u.stream g).p = (s.stream g).p ∧ (u.stream g).pc = (s.stream g).pc) ∧
  (∀ (n : Nat) (w : Wait) (blk : Block) (p q : Parcel) (h : Hd) (d a b : BitVec 5) (s : State),
    let t := s.slot n
    t.a.wait = some w → w.kind = 9 → t.a.blk = some blk → blk.body[blk.pos]? = some p → blk.body[blk.pos + 1]? = some q →
    decodeParcels p q = .ok (.taskget h d a b) → bits (if b = 0 then 0 else t.a.x[b.toFin]) 0 16 * 850 ≤ s.tick - w.since →
    exec (.taskgetTimeout n) s = .next (s.setSlot n { t with replies := sput t.replies 5 0 })) ∧
  (∀ (g : Agent) (w : Wait) (m : Monitor) (s : State), (s.stream g).wait = some w → (s.stream g).monitor = some m → w.kind = 8 → 42500 ≤ s.tick - w.since →
    exec (.mwaitTimeout g.slot g.st) s = .next (s.setStream g { s.stream g with monitor := some { m with written := true } })) ∧
  (∀ s : State, s.tick % 850 = 0 →
    (Rising s.slots → ∃ t, exec .streamAgeTick s = .next t ∧ SameMemory s t ∧ SameRegisters s t ∧
      ∀ g : Agent, g.slot < 3072 → (t.stream g).age =
        if (s.stream g).agedAt ≠ some s.tick ∧ readyStream s g = true then min 255 ((s.stream g).age + 1) else (s.stream g).age) ∧
    (sfind s.aged 3 ≠ some s.tick → ∃ t, exec .packetAgeTick s = .next t ∧ SameMemory s t ∧ t.slots = s.slots ∧
      t.fab.inq = s.fab.inq.map fun e => (e.1, e.2.map fun q => { q with age := min 255 (q.age + 1) })))

/-- R164 to R166, R168, R169, R171 to R173, R183, R186, R346, R348: the engines. The model's choices: the source is read at
COMMAND_START as far as its lines are full (log 13), and a unit of a shaped, gathered or scattered copy holds all its runs of a 4 KiB block
(log 137). -/
def Obligations.CommandSteps : Prop :=
  (∀ (n : Nat) (c : Cmd) (rs : List Run3) (s : State), startable s n false = some c → c.handoff = none → cwRingen c.cw = false → c.slotNo = none →
    (c.op = 0x25 ∧ (c.fn = 0 ∨ c.fn = 1 ∨ c.fn = 3) ∨ c.op = 0x26 ∧ c.fn < 2) → descEmpty s n c = false → cmdRuns s n c c.opa c.opb = .ok rs →
    ∃ t, exec (.commandStart n false) s = .next t ∧ SameMemory s t ∧ SameRegisters s t ∧ (t.slot n).cmd false c.id = some { c with
      started := true, units := if c.op = 0x25 ∧ c.fn = 3 then (cutRuns rs).map (fillUnit c.opa)
        else (cmdUnits c rs).map (·.read (s.modCmd n false c.id fun _ => c) (slotReq (s.modCmd n false c.id fun _ => c) n)) }) ∧
  (∀ r : Run3, ((cutRun (r.len / 4096 + 2) r).map (·.len)).sum = r.len ∧
    ∀ u, u ∈ cutRun (r.len / 4096 + 2) r → 0 < u.len ∧ u.dst.toNat % 4096 + u.len ≤ 4096 ∧ u.src - r.src = u.dst - r.dst) ∧
  (∀ (n idx unit : Nat) (c : Cmd) (u0 u : Unit4k) (ds : List (Part × List Piece)) (s : State), (s.slot n).cq[idx]? = some c →
    (s.slot n).cmd false c.id = some c → let us := c.units.map (·.read s (slotReq s n))
    c.units[unit]? = some u0 → us[unit]? = some u → c.failed = false → u0.landed = false → unitBlocked c unit u = false →
    segmentHeld (s.slot n) c u0 = false → u.isLate = false → u.fault = none → unitDest s n c u.parts = .ok ds →
    overUnread s (slotReq s n) c us unit ((ds.map (·.2)).foldl (· ++ ·) []) = false →
    (cwDone c.cw = 2 → c.again = true ∨ ((s.slot n).addSem (cwSem c.cw) u.len).isSome = true) → Memory.wf s.mem = true →
    ∃ t d, exec (.commandUnitLand n false idx unit) s = .next t ∧ SameRegisters s t ∧
      (∀ k, (∀ e, e ∈ ds → ¬InPieces e.2 k) → SameByte s t k) ∧
      (∀ i p pc, ds[i]? = some (p, [pc]) → p.data.length = pc.len → isCxl pc.key = false → (∀ e, e ∈ ds.drop (i + 1) → piecesMeet e.2 [pc] = false) →
        readBytes t.mem pc.key pc.len = p.data) ∧
      (t.slot n).cmd false c.id = some d ∧ d.bytes = c.bytes + u.len ∧ d.units = us.set unit { u with landed := true } ∧
      (∀ v, cwDone c.cw = 2 → c.again = false → (s.slot n).addSem (cwSem c.cw) u.len = some v → (t.slot n).sem = v.sem)) ∧
  (∀ (n idx : Nat) (fq : Bool) (c : Cmd) (s : State), ((s.slot n).cmds fq)[idx]? = some c → (s.slot n).cmd fq c.id = some c → c.started = true →
    c.failed = false → c.handoff = none → c.again = false → c.slotNo = none → (c.op = 0x25 ∧ c.fn ≠ 2 ∧ c.fn ≠ 4 ∨ c.op = 0x26 ∨ c.op = 0x29) →
    c.units.all (·.landed) = true →
    (cwDone c.cw ≠ 1 → exec (.commandComplete n fq idx) s = .next (s.setSlot n ((s.slot n).dropCmd fq c.id))) ∧
    (∀ t, cwDone c.cw = 1 → (s.slot n).addSem (cwSem c.cw) 1 = some t →
      exec (.commandComplete n fq idx) s = .next ((engineSem (s.setSlot n t) n).setSlot n (t.dropCmd fq c.id)))) ∧
  (∀ (cl a b : Nat) (k : Circuit) (c : Cmd) (p q : Piece) (s : State),
    let n := 2 * (96 * cl + a % 128) + a / 128
    let peer := circPeer n c
    let src := c.opa + BitVec.ofNat 64 c.bytes
    let dst : Word := BitVec.ofNat 64 (2 ^ 63 + (128 * peer.2 + c.bytes))
    sfind s.circuits cl = some k → k.table.find? (fun e => e.1 == (s.tick - k.since) % max 1 k.rev) = some ((s.tick - k.since) % max 1 k.rev, a, b) →
    k.sentAt ≠ some s.tick → k.since ≤ s.tick →
    (s.slot n).cq.find? (fun c => c.op == 0x25 && c.fn == 4 && c.started && !c.failed && decide (c.bytes < cwCount c.cw) &&
      circByte (circPeer n c).1 == b) = some c → (s.slot n).cmd false c.id = some c → circFault s n c = none → cwDone c.cw ≠ 2 →
    resolve s (slotReq s n) .r src src 128 = .ok [p] → touchesEmpty s p = false → p.len = 128 →
    resolve s (slotReq s peer.1) .w dst dst 128 = .ok [q] → q.len = 128 → Memory.wf s.mem = true → isCxl q.key = false →
    ∃ t, exec (.circuitSlot cl) s = .next t ∧ SameRegisters s t ∧ readBytes t.mem q.key 128 = readBytes s.mem p.key 128 ∧
      (∀ j, (j < q.key ∨ q.key + 128 ≤ j) → SameByte s t j) ∧ touchesEmpty t q = false ∧ ((t.slot n).cmd false c.id).map (·.bytes) = some (c.bytes + 128)) ∧
  (∀ s : State, exec .reservationExpire s = .next { s with resv := s.resv.filter fun r => decide (s.tick - r.since < 85000) }) ∧
  (∀ (tag : Nat) (x : Xact) (s : State), sfind s.fab.xacts tag = some x → 170000 ≤ s.tick - x.at_ → Rising s.fab.xacts →
    (x.cmd = none → ((s.slot x.slot).reply x.st 0).isSome = true → ∃ t, exec (.fabricTimeout tag) s = .next t ∧ SameMemory s t ∧ SameRegisters s t ∧
      sfind t.fab.xacts tag = none ∧ (t.slot x.slot).reply x.st 2 = some (BitVec.ofNat 64 Code.fabricTimeout)) ∧
    (∀ id c, x.cmd = some id → (s.slot x.slot).cmd true id = some c → ∃ t, exec (.fabricTimeout tag) s = .next t ∧ SameRegisters s t ∧
      sfind t.fab.xacts tag = none ∧ ((t.slot x.slot).cmd true id).map (·.failed) = some true))

/-- R37, R317, R330, R336, R337, R342, R393, R423, R431, R492, R508, R509, R522, R525, R527, R536, R538, R542, R544: registers that
software writes and reads. What waits through a switch is log 146, what the share write looks at and clears log 87, and when a context is
destroyed log 139: the model's choices. -/
def Obligations.RegisterWrites : Prop :=
  (∀ (m : Master) (c : Nat) (d : Word) (s : State), barWritable s m (0x130000 + 8 * c) = true → mgmtWaits s m = false → c < 16 →
    (bits d 0 2 ≠ 3 → shareFree s c = true → Memory.wf s.mem = true → ∃ t, exec (.clusterShareWrite m c d) s = .next t ∧ SameRegisters s t ∧
      (sget t.shares {} c).share = bits d 0 2 ∧ (∀ e, e ≠ c → sget t.shares {} e = sget s.shares {} e) ∧
      (let shared := max (bits d 0 2) (sget s.shares {} c).share * 2 ^ 19
       let inside (k : Nat) : Prop := isPadKey k = true ∧ padCore k / 96 = c ∧ 2 ^ 21 - shared ≤ padOff k
       ∀ k, (inside k → memRead t.mem k = 0) ∧ (¬inside k → SameByte s t k))) ∧
    (bits d 0 2 = 3 ∨ shareFree s c = false → exec (.clusterShareWrite m c d) s =
      .next { s with shares := sput s.shares c { sget s.shares {} c with reject := true } })) ∧
  (∀ (m : Master) (d : Word) (s : State), barWritable s m 0x140008 = true →
    (s.tlb.busy = false → mgmtWaits s m = false → exec (.tlbinv m d) s = .next { s with tlb := { s.tlb with busy := true, all := d.getLsbD 63, ctx := bits d 0 12, va := if d.getLsbD 63 then 0 else bits d 16 39, pages := if d.getLsbD 63 then 2 ^ 39 else 2 ^ bits d 58 5 } }) ∧
    (s.tlb.busy = true → exec (.tlbinv m d) s = .next s)) ∧
  (∀ s : State, s.tlb.busy = false → exec .tlbinvComplete s = .next s) ∧
  (∀ s : State, s.tlb.busy = true → ∃ t, exec .tlbinvComplete s = .next t ∧ t.tlb.busy = false ∧ SameRegisters s t ∧
    (∀ c l, (c, l) ∈ t.tlb.cores ∨ (c, l) ∈ t.tlb.clusters → ∀ e ∈ l, e.2.inRange s.tlb = false) ∧
    (let whole : Prop := s.tlb.all = true ∧ memNat s (s.ctxbase.toNat + 256 * s.tlb.ctx) 8 % 2 = 0
     let works : Prop := s.slots.any (fun e => decide (e.1 < 3072) && e.2.state != .free && e.2.ctx == s.tlb.ctx) = true
     (¬whole → t = { s with tlb := t.tlb }) ∧ (whole → works → t = { s with tlb := t.tlb, dying := s.tlb.ctx :: s.dying }) ∧
     (whole → ¬works → s.tlb.ctx ∉ t.dying ∧ ∀ u, u ∈ t.tarns → u.ctx = s.tlb.ctx → 2 ≤ u.life → u.ending = true))) ∧
  (∀ (m : Master) (n : Nat) (d : Word) (s : State), barWritable s m (0x150000 + 32 * n + 16) = true → mgmtWaits s m = false → n < 16 →
    (((upTo 16 16).filter (d.getLsbD ·)).length ≤ 12 → ∃ t, exec (.rangeCtlWrite m n d) s = .next t ∧
      t = { s with ranges := sput s.ranges n { sget s.ranges {} n with ctl := d &&& 0xFFFFFF81 }, l2tags := t.l2tags } ∧
      (d.getLsbD 0 = true → t.l2tags = s.l2tags) ∧
      (d.getLsbD 0 = false → ∀ k set, (k, set) ∈ t.l2tags → ∀ l ∈ set, l.range ≠ some n)) ∧
    (12 < ((upTo 16 16).filter (d.getLsbD ·)).length → exec (.rangeCtlWrite m n d) s = .next s)) ∧
  (∀ (m : Master) (d : Word) (s : State),
    let ok (n : Nat) : Prop := 50 ≤ n ∧ n ≤ 2000
    let mine : Prop := m.toNat % 16 = 15
    let free : Prop := classPaused s 4 = false
    (mine → free → barWritable s m 0x160000 = true → classPaused s 3 = false →
      (ok (bits d 0 11) → ok (bits d 16 11) → exec (.govLimitsWrite m d) s =
        .next { s with gov := { s.gov with rise := bits d 0 11, fall := bits d 16 11, reject := s.gov.reject && !d.getLsbD 32 } }) ∧
      (¬(ok (bits d 0 11) ∧ ok (bits d 16 11)) → exec (.govLimitsWrite m d) s = .next { s with gov := { s.gov with reject := true } })) ∧
    (mine → barWritable s m 0x160000 = true → classPaused s 3 = true ∨ classPaused s 4 = true → exec (.govLimitsWrite m d) s = .next s.stall) ∧
    (¬mine → exec (.govLimitsWrite m d) s = .next s ∧ exec (.hedgeSelWrite m d) s = .next s ∧ exec (.hedgeDataWrite m d) s = .next s) ∧
    (barWritable s m 0x184800 = true → routesFrozen s = true ∨ mgmtWaits s m = true → exec (.escctlFlip m d) s = .next s.stall) ∧
    (barWritable s m 0x184800 = true → routesFrozen s = false → mgmtWaits s m = false →
      exec (.escctlFlip m d) s = .next { s with fab := { s.fab with escActive := d.getLsbD 0 } }) ∧
    (mine → free → s.hedge.pending = none →
      exec (.hedgeSelWrite m d) s = .next { s with hedge := { s.hedge with sel := d &&& 0xFE0F00000000FFFF } } ∧
      (26 < bits s.hedge.sel 58 6 → exec (.hedgeDataWrite m d) s = .next { s with hedge := { s.hedge with reject := true } }) ∧
      (bits s.hedge.sel 58 6 ≤ 26 → exec (.hedgeDataWrite m d) s = .next { s with hedge := { s.hedge with pending := some (s.hedge.sel, d) } })) ∧
    (mine → free → s.hedge.pending ≠ none → exec (.hedgeSelWrite m d) s = .next { s with hedge := { s.hedge with reject := true } } ∧
      exec (.hedgeDataWrite m d) s = .next { s with hedge := { s.hedge with reject := true } }) ∧
    (mine → ¬free → exec (.hedgeSelWrite m d) s = .next s.stall ∧ exec (.hedgeDataWrite m d) s = .next s.stall)) ∧
  (∀ (sel d : Word) (s : State), s.hedge.pending = some (sel, d) → ∃ t, exec .hedgeApply s = .next t ∧ SameMemory s t ∧ t.slots = s.slots ∧
    t.hedge.pending = none ∧
    (let k := bits sel 58 6
     let a := sget s.hedge.tables {} k
     let b := sget t.hedge.tables {} k
     (∀ j, j ≠ k → sget t.hedge.tables {} j = sget s.hedge.tables {} j) ∧
     (sel.getLsbD 57 = true → b.perms = a.perms ∧ sget b.windows (0, 0) (bits sel 48 4) = (bits d 0 32, bits d 32 32)) ∧
     (sel.getLsbD 57 = false → b.windows = a.windows ∧ sget b.perms 0 (bits sel 0 16) = d.setWidth 32))) ∧
  (∀ (m : Master) (vec : Nat) (mask : Bool) (s : State), vec < 2048 → barWritable s m (16 * vec + 8) = true → mgmtWaits s m = false →
    let v := sget s.msix {} vec
    let t : State := { s with msix := sput s.msix vec { v with masked := mask, pending := v.pending && mask } }
    exec (.msixMaskWrite m vec mask) s = .next (if v.pending = true ∧ mask = false then { t with outbox := s.outbox ++ [.msix vec] } else t)) ∧
  (∀ (m : Master) (off : Nat) (d : Word) (s : State),
    let keeps (off : Nat) (t : State) : Prop := barWritable s m off = true → mgmtWaits s m = false → exec (.registerWrite m off d) s = .next t
    let quiet : Prop := s.upd.busy = false
    keeps 0x100000 { s with qregs := { s.qregs with qtbase := d >>> 19 <<< 19 } } ∧
    keeps 0x100010 { s with qregs := { s.qregs with reject := s.qregs.reject && !d.getLsbD 1 } } ∧
    keeps 0x100018 { s with qregs := { s.qregs with ringwin := d >>> 24 <<< 24 } } ∧
    keeps 0x120000 { s with tq := { s.tq with cowait := d.extractLsb' 32 32, prewait := d.extractLsb' 16 8, affwait := d.setWidth 8 } } ∧
    keeps 0x120008 (if spilledCount s = 0 then { s with tq := { s.tq with spillbase := d &&& 0xFFFFFFFFFFFFF01F } } else s) ∧
    keeps 0x140000 { s with ctxbase := d &&& 0xFFFFFFFF00000 } ∧
    (∀ n, n < 16 → keeps (0x150000 + 32 * n) { s with ranges := sput s.ranges n { sget s.ranges {} n with base := d &&& 0xFFFFFFFFF0000 } } ∧
      keeps (0x150008 + 32 * n) { s with ranges := sput s.ranges n { sget s.ranges {} n with limit := d &&& 0xFFFFFFFFF0000 } }) ∧
    keeps 0x170000 { s with ckpt := { s.ckpt with
      rollvec := d.extractLsb' 48 11, rollen := d.getLsbD 47, defer := d.extractLsb' 32 15, len := d.setWidth 8 } } ∧
    (m.toNat % 16 = 15 → keeps 0x171010 { s with hedge := { s.hedge with reject := s.hedge.reject && !d.getLsbD 1 } }) ∧
    (fabMaster m = true → routesFrozen s = false →
      (∀ n, n < 128 → keeps (0x180000 + 16 * n) (s.setPort n { s.port n with cfg := d &&& 0xFFFF00FF000F00F3 })) ∧
      (∀ n, n < 1024 → keeps (0x182000 + 8 * n)
        { s with fab := { s.fab with routeWrites := s.fab.routeWrites + 1, grt := sput s.fab.grt n (d &&& 0xFFFFFFFFFFFF) } })) ∧
    (quiet → keeps 0x190000 { s with upd := { s.upd with image := d &&& 0xFFFFFFFFFF000 } }) ∧
    (¬quiet → keeps 0x190000 { s with upd := { s.upd with result := 10 } }) ∧
    keeps 0x1A0000 { s with bar4map := d &&& 0xFFFFFC0000000 } ∧
    (¬(m.toNat % 16 = 15 ∧ 80 ≤ bits d 48 8 ∧ bits d 48 8 ≤ 110) → keeps 0x1A2000 s) ∧
    (m.toNat % 16 = 15 → 80 ≤ bits d 48 8 → bits d 48 8 ≤ 110 → keeps 0x1A2000 { s with therm := { s.therm with
      throttle := bits d 48 8, held := s.therm.temps.any fun e => decide (bits d 48 8 ≤ e.2) } }) ∧
    (off % 8 ≠ 0 → keeps off s) ∧
    (barWritable s m off = true → mgmtWaits s m = true → exec (.registerWrite m off d) s = .next s.stall) ∧
    (barWritable s m off = false → exec (.registerWrite m off d) s = .next s)) ∧
  (∀ (m : Master) (off : Nat) (s : State),
    let grant (off : Nat) : Prop := hedgeOk s 22 m.toNat .r off = true ∧ (0x171000 ≤ off → off < 0x172000 → m.toNat % 16 = 15)
    let shows (off : Nat) (v : Word) : Prop := grant off → bar0Read s m off = v
    (¬grant off → isTelemetry off = false → bar0Read s m off = 0) ∧ (off % 8 ≠ 0 → bar0Read s m off = 0) ∧
    shows 0x100000 s.qregs.qtbase ∧ shows 0x100018 s.qregs.ringwin ∧ shows 0x120008 s.tq.spillbase ∧ shows 0x140000 s.ctxbase ∧
    shows 0x171000 s.hedge.sel ∧ shows 0x190000 s.upd.image ∧ shows 0x1A0000 s.bar4map ∧
    (∀ n, n < 16 → shows (0x150000 + 32 * n) (sget s.ranges {} n).base ∧ shows (0x150008 + 32 * n) (sget s.ranges {} n).limit ∧
      shows (0x150010 + 32 * n) (sget s.ranges {} n).ctl) ∧
    (∀ n, n < 128 → shows (0x180000 + 16 * n) (s.port n).cfg) ∧ (∀ n, n < 1024 → shows (0x182000 + 8 * n) (sget s.fab.grt 0 n)) ∧
    shows 0x120000 (s.tq.cowait ++ (0 : BitVec 8) ++ s.tq.prewait ++ (0 : BitVec 8) ++ s.tq.affwait) ∧
    shows 0x140010 (if s.tlb.busy then 1 else 0) ∧
    shows 0x170000 ((0 : BitVec 5) ++ s.ckpt.rollvec ++ BitVec.ofBool s.ckpt.rollen ++ s.ckpt.defer ++ (0 : BitVec 24) ++ s.ckpt.len) ∧
    shows 0x171010 ((0 : BitVec 62) ++ BitVec.ofBool s.hedge.reject ++ BitVec.ofBool s.hedge.pending.isSome) ∧
    (s.gov.rise ≤ 2000 → s.gov.fall ≤ 2000 → grant 0x160000 → let v := bar0Read s m 0x160000
      bits v 0 11 = s.gov.rise ∧ bits v 16 11 = s.gov.fall ∧ v.getLsbD 32 = s.gov.reject) ∧
    (∀ n, s.ckpt.committed = some n → bar0Read s m 0x170008 = BitVec.ofNat 64 n) ∧
    (s.ckpt.committed = none → bar0Read s m 0x170008 = BitVec.allOnes 64) ∧ bar0Read s m 0x170010 = BitVec.ofNat 64 s.ckpt.current ∧
    (∀ n, n < 16 → bar0Read s m (0x1B0000 + 8 * n) = sget s.tel.resteer 0 n)) ∧
  (∀ (m : Master) (c : Nat) (mask : Bool) (d : Word) (s : State), (∀ off, barWritable s m off = false) →
    exec (.clusterShareWrite m c d) s = .next s ∧ exec (.tlbinv m d) s = .next s ∧ exec (.rangeCtlWrite m c d) s = .next s ∧
    exec (.escctlFlip m d) s = .next s ∧ exec (.msixMaskWrite m c mask) s = .next s)

/-- R395, R404, R406: the governor's cycle. -/
def Obligations.GovernorSteps : Prop :=
  ∀ s : State, Rising s.cores → Rising s.slots → ∃ t, exec .ballastStep s = .next t ∧ t.tick = s.tick + 1 ∧ SameMemory s t ∧ t.slots = s.slots ∧
    t.gov.rise = s.gov.rise ∧ t.gov.fall = s.gov.fall ∧
    (∀ c, c ∈ busyCores s → 100 ≤ (t.core c).est ∧ (t.core c).est ≤ 2000 ∧ (t.core c).estPrev = (s.core c).est) ∧
    1024 * ((busyCores s).map fun c => (s.core c).est).sum + (s.gov.ballast.map (·.2)).sum ≤
      1024 * ((busyCores s).map fun c => (t.core c).est).sum + (t.gov.ballast.map (·.2)).sum + s.gov.fall * 1000 * 1024 / 850 ∧
    ∀ c, (t.core c).ballast = if t.gov.ballast.any (·.1 == c) = true then (s.core c).ballast + 1 else (s.core c).ballast

/-- R513 to R518, R525, R527: the HBM channels. The classes that reach the registers are log 114, and the wait through a switch log 146:
the model's choices. -/
def Obligations.ChannelEvents : Prop :=
  (∀ (m : Master) (st ch : Nat) (d : Word) (s : State), (m.toNat % 16 = 5 ∨ m.toNat % 16 = 15) → sequencerPaused s m st = false → mgmtWaits s m = false → st < 16 → ch < 32 →
    let n := 32 * st + ch
    let c := s.chan n
    let sets (c : Chan) : Host.Outcome State Fault Refusal := .next (s.setChan n c)
    let no : Chan := { c with reject := true }
    (d.getLsbD 0 = true → c.busy = false → c.online = false → chctlOk d = true → exec (.patternTest m st ch d) s = sets { c with busy := true, test := some (d, s.tick) }) ∧
    (d.getLsbD 0 = true → c.busy = true ∨ c.online = true ∨ chctlOk d = false → exec (.patternTest m st ch d) s = sets no) ∧
    (d.getLsbD 0 = false → exec (.patternTest m st ch d) s = sets c) ∧
    (c.online = false →
      (∃ c1, exec (.rdallWrite m st ch d) s = sets c1 ∧ c1 = { c with rdly := c1.rdly } ∧ ∀ k, k < 66 → sget c1.rdly 32 k = d.setWidth 6) ∧
      (∃ c1, exec (.wdallWrite m st ch d) s = sets c1 ∧ c1 = { c with wdly := c1.wdly } ∧ ∀ k, k < 66 → sget c1.wdly 32 k = d.setWidth 6) ∧
      (repairOk d = true → exec (.repairWrite m st ch d) s = sets { c with repair := d.setWidth 16 })) ∧
    (c.online = true → exec (.rdallWrite m st ch d) s = sets no ∧ exec (.wdallWrite m st ch d) s = sets no ∧ exec (.repairWrite m st ch d) s = sets no) ∧
    (repairOk d = false → exec (.repairWrite m st ch d) s = sets no) ∧
    (let c1 : Chan := { c with trained := d.getLsbD 1 }
     let t : State := s.setChan n (if d.getLsbD 0 then { c1 with online := true, holding := false }
       else if c.online then { c1 with holding := true, offlineAt := s.tick } else c1)
     exec (.chmodeWrite m st ch d) s = .next { t with backs := s.backs.filter fun u => !chanReady t (32 * u) 32 })) ∧
  (∀ (m : Master) (st ch : Nat) (d : Word) (s : State), chanMaster m = false → exec (.patternTest m st ch d) s = .next s ∧
    exec (.rdallWrite m st ch d) s = .next s ∧ exec (.wdallWrite m st ch d) s = .next s ∧ exec (.repairWrite m st ch d) s = .next s ∧
    exec (.chmodeWrite m st ch d) s = .next s) ∧
  (∀ (m : Master) (st ch : Nat) (d : Word) (s : State), sequencerPaused s m st = true ∨ mgmtWaits s m = true → exec (.patternTest m st ch d) s = .next s.stall ∧
    exec (.rdallWrite m st ch d) s = .next s.stall ∧ exec (.wdallWrite m st ch d) s = .next s.stall ∧ exec (.repairWrite m st ch d) s = .next s.stall ∧
    exec (.chmodeWrite m st ch d) s = .next s.stall) ∧
  (∀ (st ch : Nat) (pass : BitVec 66) (errs : Word) (s : State), st < 16 → ch < 32 →
    let n := 32 * st + ch
    (∀ d t0, (s.chan n).test = some (d, t0) → t0 + (96 + 4 * max 1 (bits d 16 16)) ≤ s.tick → ∃ c, exec (.patternTestComplete st ch pass errs) s = .next (s.setChan n c) ∧
      c.busy = false ∧ c.test = none ∧ (d.getLsbD 2 = true → c.pass = pass.setWidth 64 ∧ c.passx = pass.extractLsb' 64 2) ∧
      (d.getLsbD 2 = false → c.passx = 0 ∧ ∀ k, k < 64 → c.pass.getLsbD k = pass.getLsbD ((s.chan n).lane k)) ∧
      c.errs.toNat = min errs.toNat (2 ^ 32 - 1) ∧ c.online = (s.chan n).online ∧ c.repair = (s.chan n).repair ∧ c.rdly = (s.chan n).rdly ∧ c.wdly = (s.chan n).wdly) ∧
    ((s.chan n).holding = true → exec (.channelOffline st ch) s = .next (s.setChan n { s.chan n with online := false, holding := false })) ∧
    ((s.chan n).holding = false → exec (.channelOffline st ch) s = .next s))

/-- R482, R483, R485 to R487, R489, R490, R493, R503, R505: reliability. The lines that SLICE_SPARE writes back are log 53, the spare
lasers logs 59 and 150, and the scan pointer of each cluster log 101: the model's choices. -/
def Obligations.CheckpointEvents : Prop :=
  (∀ (c : Nat) (s : State), c < 1536 →
    ((s.core c).scan = .run → (nextScan s (c / 96) + (c % 96 + 96 - nextScan s (c / 96) % 96) % 96) * 85000 ≤ s.tick + 170000 →
      exec (.scanDrain c) s = .next (s.setCore c { s.core c with scan := .drain })) ∧
    (scanDue s c = true → (s.slot (2 * c)).state = .free → (s.slot (2 * c + 1)).state = .free → ∃ t, exec (.coppiceScan c) s = .next t ∧ t.slots = s.slots ∧
      SameMemory s t ∧ (t.core c).scanning = some s.tick ∧ (t.core c).scanInt = s.ckpt.current ∧ ∀ e, e ≠ c → t.core e = s.core e) ∧
    (scanDue s c = true → (s.slot (2 * c)).state ≠ .free ∨ (s.slot (2 * c + 1)).state ≠ .free → (s.core c).waitScan = none → (∀ n, n / 2 = c → scanMoves s n = false) →
      exec (.coppiceScan c) s = .next (s.setCore c { s.core c with scan := .drain, waitScan := some s.tick })) ∧
    (∀ t0, (s.core c).waitScan = some t0 → t0 + max 1 s.ckpt.defer.toNat * 850 ≤ s.tick → ∃ t, exec (.scanDeferTimeout c) s = .next t ∧ t.slots = s.slots ∧
      (t.core c).scan = .deferred ∧ (t.core c).waitScan = none) ∧
    (∀ t0, (s.core c).scanning = some t0 → t0 + 85000 ≤ s.tick →
      (∃ t, exec (.scanEnd c true) s = .next t ∧ (t.core c).scanning = none ∧ (t.core c).scan = .run ∧ (t.core c).passAt = some t0 ∧
        (t.core c).passInt = BitVec.ofNat 32 (s.core c).scanInt ∧ t.ckpt.fails = s.ckpt.fails) ∧
      (∃ t, exec (.scanEnd c false) s = .next t ∧ t.slots = s.slots ∧ SameMemory s t ∧ (t.core c).scanning = none ∧ (t.core c).passAt = (s.core c).passAt ∧
        t.ckpt.failed = s.ckpt.failed ++ [c] ∧ (s.ckpt.fails.toNat < 65535 → t.ckpt.fails = s.ckpt.fails + 1) ∧
        (0 < sget s.ckpt.spares 4 (c / 96) → sget t.ckpt.spares 4 (c / 96) = sget s.ckpt.spares 4 (c / 96) - 1 ∧ t.ckpt.down = s.ckpt.down) ∧
        (sget s.ckpt.spares 4 (c / 96) = 0 → c / 96 ∈ t.ckpt.down)))) ∧
  (∀ s : State, s.ckpt.logging = true → s.ckpt.openedAt + s.ckpt.lenNow * 850000 ≤ s.tick → (closeInterval s).ckpt.logging = true →
    ∃ t, exec .checkpointClose s = .next t ∧ SameRegisters s t ∧ t.ckpt.current = s.ckpt.current + 1 ∧ t.ckpt.openedAt = s.tick ∧ t.l2 = [] ∧
      t.mem = (closeInterval s).mem) ∧
  (∀ (n m : Nat) (s : State), (Final (commitOne s n) m ↔ m ≤ n) ∧ (s.ckpt.committed = none → ¬Final s m)) ∧
  (∀ s : State, s.tarns = [] → (closeInterval s).mem = s.mem) ∧
  (∀ s : State, (∀ u, u ∈ s.tarns → u.cleaning = []) →
    let held := s.backs.filter fun u => !chanReady s (32 * u) 32
    (held = [] → exec .closeComplete s = .next { s with backs := [], ckpt := { s.ckpt with
      intervals := s.ckpt.intervals.map fun i => if i.closedAt.isSome then { i with complete := true } else i } }) ∧
    (held ≠ [] → exec .closeComplete s = .next { s with backs := held })) ∧
  (∀ (c core : Nat) (rest : List Nat) (snap : Snap) (s : State), s.ckpt.failed = core :: rest → ¬(s.upd.busy = true ∧ s.upd.phase = 4) →
    (∀ u, u ∈ s.tarns → u.cleaning = []) → s.ckpt.committed = some c →
    s.ckpt.intervals.any (·.unprot) = false → s.snaps.find? (fun e => s.ckpt.committed == some e.n) = some snap →
    ∃ t, exec .rollback s = .next t ∧ (∀ n, n < 3072 → t.slot n = {}) ∧ t.tq.records = [] ∧ t.ckpt.current = c + 1 ∧ t.ckpt.failed = rest ∧
      t.ckpt.committed = some c ∧ (s.ckpt.rollbacks.toNat < 65535 → t.ckpt.rollbacks = s.ckpt.rollbacks + 1) ∧
      (s.queues = [] → snap.launches = [] → Memory.wf s.mem = true → (∀ e, e ∈ s.ckpt.undo → e.line % 128 = 0 ∧ e.line < 2 ^ 40) →
        t.ckpt.undo = [] ∧ ∀ pre e post, s.ckpt.undo = pre ++ e :: post → c < e.interval → (∀ f, f ∈ post → c < f.interval → f.line ≠ e.line) →
          memNat t e.line 128 = e.image.toNat)) ∧
  (∀ (n : Nat) (s : State),
    (0 < s.ckpt.slices → 4096 < sget s.ckpt.sliceErrs 0 n ∨ n ∈ s.ckpt.sliceBad → ∃ t, exec (.sliceSpare n) s = .next t ∧ SameMemory s t ∧ t.slots = s.slots ∧
      t.l2 = s.l2.filter (fun e => !inSlice s n e.1) ∧ t.l2tags = s.l2tags.filter (fun e => e.1 / 1024 != n) ∧ t.ckpt.slices = s.ckpt.slices - 1 ∧
      n ∉ t.ckpt.sliceBad) ∧
    (s.ckpt.slices = 0 ∨ sliceFails s n = false → exec (.sliceSpare n) s = .next s) ∧
    (sget s.ckpt.lasers 0 n < Config.laserSpares n → ∃ t, exec (.laserSpare n) s = .next t ∧ SameMemory s t ∧ t.slots = s.slots ∧
      t.ckpt = { s.ckpt with lasers := sput s.ckpt.lasers n (sget s.ckpt.lasers 0 n + 1) } ∧
      ∀ e, e ∈ Config.laserLanes n → (t.port e.1).active &&& e.2 = 0 ∧ (t.port e.1).trained &&& e.2 = 0 ∧ (t.port e.1).standby &&& e.2 = 0) ∧
    (Config.laserSpares n ≤ sget s.ckpt.lasers 0 n → exec (.laserSpare n) s = .next s))

/-- R458 to R460, R463, R464, R466, R472, R476, R479, R480: per-core firmware's events. What a restart clears is log 148, when a trap's
record is made log 147, and that TRAP is set where its write faults log 21: the model's choices. -/
def Obligations.FirmwareEvents : Prop :=
  (∀ (c : Nat) (s : State),
    let f := s.fw c
    let n := f.target
    let j := s.slot n
    n < 3072 → f.busy = true →
    (let w := (withdrawSlot s n).drawFree.2
     let sv := savedOf w n f.cmdArg
     ∀ ps, f.op = 1 → j.state = .stopping → quiescent s n = true → resolve w (fwReq w c) .w f.cmdArg f.cmdArg sv.size = .ok ps →
      ∃ t, exec (.stop c) s = .next t ∧ SameRegisters s t ∧ (t.slot n).state = .stopped ∧ sfind t.saves f.cmdArg.toNat = some sv ∧
        (∀ k : StreamId, (sv.slot.stream k).x = (j.stream k).x ∧ (sv.slot.stream k).p = (j.stream k).p ∧ (sv.slot.stream k).lc = (j.stream k).lc ∧
          (sv.slot.stream k).pc = (j.stream k).pc) ∧ (t.fw c).result = 0 ∧ (t.fw c).op = 0 ∧ (t.fw c).busy = true) ∧
    (∀ sv h start, f.op = 2 → j.state = .free → (s.core (n / 2)).scanning = none → areaOf s c f.cmdArg = .ok (some sv) → resumeFit s n sv = .ok (some (h, start)) → sv.windows = [] →
      ∃ t, exec (.resume c) s = .next t ∧ (t.slot n).state = .starting ∧ (t.slot n).resuming = true ∧ (t.slot n).a = sv.slot.a.restored ∧
        (t.slot n).m = sv.slot.m.restored ∧ (t.slot n).v = sv.slot.v.restored ∧ (t.slot n).partStart = start ∧ (t.slot n).sem = sv.slot.sem ∧
        ∀ g : Agent, g.slot ≠ n → t.stream g = s.stream g) ∧
    (∀ s2, f.op = 3 → j.state = .killing → quiescent s n = true → storeAll s (fwReq s c) f.cmdArg (killRecord j) = .ok s2 →
      ∃ t, exec (.kill c) s = .next t ∧ t.slot n = {} ∧ (t.fw c).result = 0 ∧ (t.fw c).op = 0 ∧
        ∀ l, (t.launch l).map (fun v => (v.counters, v.added)) = (s.launch l).map fun v => (v.counters, v.added)) ∧
    (f.op = 4 → j.state = .trapped → quiescent s n = true →
      ((∀ r, j.trapRec = some r → reportBad s j.launch r = none) → ∃ t, exec (.report c) s = .next t ∧ t.slot n = {} ∧ (t.fw c).result = 0 ∧ (t.fw c).op = 0) ∧
      (∀ r e, j.trapRec = some r → reportBad s j.launch r = some e →
        exec (.report c) s = .next (s.setCore c { s.core c with fw := { f with result := BitVec.ofNat 8 e.code, op := 0 } }))) ∧
    (f.op = 0 → exec (.fwCommandComplete c) s = .next (s.setCore c { s.core c with fw := { f with busy := false, op := 0 } }))) ∧
  (∀ (c : Nat) (d : Word) (s : State),
    let rejects : State := s.setCore c { s.core c with fw := { s.fw c with reject := true } }
    let legal : Prop := bits d 0 7 ≤ 95 ∧ bits d 8 2 ≠ 3 ∧ bits d 10 12 ≤ 0x4FF
    (legal → exec (.fwSelWrite c d) s = .next (s.setCore c { s.core c with fw := { s.fw c with sel := d &&& 0x3FFFFF } })) ∧
    (¬legal → exec (.fwSelWrite c d) s = .next rejects) ∧
    (let st := (s.slot (fwTarget s c)).state
     let num := bits (s.fw c).sel 10 12
     let reached : Prop := (st = .stopped ∨ st = .trapped) ∧ csrExists num = true ∧ csrWritable false num = true
     (reached → exec (.fwJcsrWrite c d) s =
       .next (csrSet { s with issue := { s.issue with flags := 0 } } (fwTarget s c) (fwStream (s.fw c).sel) num d)) ∧
     (¬reached → exec (.fwJcsrWrite c d) s = .next rejects))) ∧
  (∀ s : State, 0 < s.tick → s.tick % 850 = 0 → ∃ t, exec .fwTick s = .next t ∧ t.slots = s.slots ∧ SameMemory s t ∧ ∀ c, c < 1536 →
    (t.fw c).event = if (s.fw c).period.toNat ≠ 0 ∧ s.tick % ((s.fw c).period.toNat * 850) = 0 then (s.fw c).event ||| 4 else (s.fw c).event) ∧
  (∀ (n : Nat) (k : StreamId) (w : Wait) (s : State), n < 3072 → (s.slot n).state = .running → ((s.slot n).stream k).wait = some w → (s.fw (n / 2)).wdage ≠ 0 →
    (s.fw (n / 2)).wdage.toNat ≤ min ((s.tick - w.since) / 850) 65535 → ∃ t r, exec (.wdageExpire n k) s = .next t ∧ SameRegisters s t ∧ SameMemory s t ∧
      (t.slot n).state = .trapped ∧ (t.slot n).trapRec = some r ∧ (t.slot n).trapDue = true ∧ r.code = Code.watchdog ∧ r.status = BitVec.ofNat 64 w.kind) ∧
  (∀ (n : Nat) (s : State), n < 3072 → (s.slot n).state = .trapped →
    let j := s.slot n
    let w := withdrawSlot s n
    ∃ t, exec (.jobTrap n) s = .next t ∧ SameRegisters s t ∧ (∀ x k, x ∈ t.tarns → x.waits ⟨n, k⟩ = none) ∧
      (j.trapDue = false ∨ streamsStopped j = false ∨ nestStopped s n = false → t = w) ∧
      (∀ r, j.trapRec = some r → j.trapDue = true → streamsStopped j = true → nestStopped s n = true →
        let v := w.modSlot n ({ · with trapDue := false })
        let a := (v.fw (n / 2)).tbase + BitVec.ofNat 64 (64 * (n % 2))
        (t.slot n).trapDue = false ∧ (t.fw (n / 2)).event = (w.fw (n / 2)).event ||| (if n % 2 = 0 then 1 else 2) ∧
        ∀ p, resolve v (fwReq v (n / 2)) .w a a r.bytes.length = .ok [p] → p.len = r.bytes.length → isCxl p.key = false → Memory.wf v.mem = true →
          readBytes t.mem p.key p.len = r.bytes ∧ ∀ k, (k < p.key ∨ p.key + p.len ≤ k) → SameByte v t k)) ∧
  (∀ (c : Nat) (i : Image) (s : State), (s.fw c).faulted ≠ none → coreImage s c = some i → ∃ t, exec (.fwContextRestart c) s = .next t ∧ SameMemory s t ∧
    t.fw c = { s.fw c with arg := 0, reject := false, faulted := none } ∧ (t.slot (fwSlot c)).state = .running ∧
    (t.slot (fwSlot c)).a.pc = BitVec.ofNat 64 (bnat i.bytes 8 4) ∧
    (∀ r : Fin 32, (t.slot (fwSlot c)).a.x[r] = 0) ∧ ∀ n, n ≠ fwSlot c → t.slot n = s.slot n)

/-- R512, R519, R520, R522 to R526, R529, R530: updates. The model's choices: where a record lies, and the bodies of classes 2 to 4 (log 151);
that class 0 is ready, handed over and healthy with its last controller (20); PHASE after an end (22); the RESULT of an ACTIVATE without an
image (55); the reserved values of UPD.CMD (104); when ABORT is allowed (105); the order of STAGE's checks (106); what SVNCOMMIT raises
(107); the writes that wait through a class 4 switch (146). -/
def Obligations.UpdateEvents : Prop :=
  (∀ (m : Master) (d : Word) (s : State), barWritable s m 0x190008 = true → s.upd.busy = false → updReserved d = false →
    let sets (u : Upd) : Host.Outcome State Fault Refusal := .next { s with upd := u }
    let cls := bits d 12 4
    let inst := bits d 16 8
    (bits d 0 4 = 1 → exec (.stage m d) s = sets { s.upd with cmd := d, busy := true, phase := 1, startedAt := s.tick }) ∧
    (bits d 0 4 = 2 → ((imageCtls cls inst).all fun n => (s.ctl n).stagedImage.isSome) = true → ∃ t, exec (.activate m d) s = .next t ∧ SameJobs s t ∧
      t.upd.busy = true ∧ t.upd.phase = (if cls = 5 then 4 else 3) ∧ t.upd.startedAt = s.tick ∧ t.upd.cmd = d ∧
      (cls ≠ 5 → ∀ n b e, n ∈ classCtls cls inst → ((s.ctl n).stagedImage.bind fun i => placeUzo i.bytes) = some (b, e) →
        (t.slot (ctlSlot ((s.ctl n).stagedCtx n))).state = .running ∧ (t.slot (ctlSlot ((s.ctl n).stagedCtx n))).a.pc = BitVec.ofNat 64 e)) ∧
    (bits d 0 4 = 2 → ((imageCtls cls inst).all fun n => (s.ctl n).stagedImage.isSome) = false → exec (.activate m d) s =
      .next { s with freeCount := s.freeCount + 1, upd := { s.upd with result := bits (Config.freeWord s.freeCount) 0 8 } }) ∧
    (bits d 0 4 = 3 → exec (.abort m d) s = sets { s.upd with result := 9 }) ∧
    (bits d 0 4 = 4 → exec (.svncommit m d) s = sets { s.upd with
      minima := sput s.upd.minima cls (max (sget s.upd.minima 0 cls) ((((imageCtls cls inst).head?.bind fun n => (s.ctl n).activeImage).map (·.svn)).getD 0))
      result := 0 })) ∧
  (∀ (m : Master) (d : Word) (s : State), barWritable s m 0x190008 = true → mgmtWaits s m = false →
    let refused : Host.Outcome State Fault Refusal := .next { s with upd := { s.upd with result := 10 } }
    (updReserved d = true ∨ s.upd.busy = true ∧ (bits d 0 4 ≠ 3 ∨ 4 ≤ s.upd.phase) →
      (bits d 0 4 = 1 → exec (.stage m d) s = refused) ∧ (bits d 0 4 = 2 → exec (.activate m d) s = refused) ∧
      (bits d 0 4 = 3 → exec (.abort m d) s = refused) ∧ (bits d 0 4 = 4 → exec (.svncommit m d) s = refused)) ∧
    (updReserved d = false → s.upd.busy = true → s.upd.phase < 3 → bits d 0 4 = 3 →
      exec (.abort m d) s = .next { s with upd := { s.upd with busy := false, phase := 0, result := 9 } })) ∧
  (∀ s : State, s.upd.busy = true → s.upd.phase = 1 →
    let a := bits s.upd.image 12 40 * 4096
    let e := readBytes s.mem a 256
    let n := if envelopeOk a e then bnat e 16 8 else 0
    let uzo := readBytes s.mem (a + 256) n
    let r := stageResult s e uzo (envelopeOk a e)
    readReady s a 256 = true → readReady s (a + 256) n = true → ∃ t, exec .stageComplete s = .next t ∧ SameJobs s t ∧ SameMemory s t ∧
      t.upd = { s.upd with busy := false, phase := if r = 0 then 2 else 0, result := r } ∧
      (r = 0 → ∀ k, k ∈ imageCtls s.upd.cls s.upd.inst → (t.ctl k).stagedImage = some (imageOf e uzo) ∧ (t.ctl k).activeImage = (s.ctl k).activeImage) ∧
      (r ≠ 0 → t.ctls = s.ctls)) ∧
  (∀ (n : Nat) (s : State), n < 23 → updating s n = true →
    let c := s.ctl n
    (s.upd.phase = 3 → c.sig.ready = false → ∃ t, exec (.ready n) s = .next t ∧ SameJobs s t ∧ (t.ctl n).sig.ready = true ∧
      ((∀ m, m ∈ s.upd.ctls → m ≠ n → (s.ctl m).sig.ready = true) → t.upd.phase = 4 ∧ ∀ m, m ∈ s.upd.ctls → (t.ctl m).sig.req = true) ∧
      ((∃ m, m ∈ s.upd.ctls ∧ m ≠ n ∧ (s.ctl m).sig.ready = false) → t.upd.phase = 3)) ∧
    (c.sig.req = true → c.sig.handed = false → switchPoint s n = true → ∃ t, exec (.handed n) s = .next t ∧ SameJobs s t ∧ (t.ctl n).sig.handed = true ∧
      (∃ v, let bs := handOver s n v
        let at_ := (t.ctl n).sig.record.toNat
        Memory.wf s.mem = true → at_ + bs.length ≤ 2 ^ 18 → readBytes t.mem (ramKey (c.activeCtx n) at_) bs.length = bs) ∧
      t.upd.pausedAt = some (s.upd.pausedAt.getD s.tick) ∧ (t.slot (ctlSlot (c.activeCtx n))).state = .stopped) ∧
    (recordGood s (c.stagedCtx n) (c.sig.record.toNat % 2 ^ 18) = false → exec (.healthy n) s = .next s) ∧
    (c.sig.handed = true → c.sig.healthy = false → recordGood s (c.stagedCtx n) (c.sig.record.toNat % 2 ^ 18) = true → (∀ m, m ∈ s.upd.ctls → m ≠ n → (s.ctl m).sig.healthy = true) → ∃ t, exec (.healthy n) s = .next t ∧
      SameJobs s t ∧ t.upd.busy = false ∧ t.upd.phase = 0 ∧ t.upd.result = 0 ∧ t.upd.seq = s.upd.seq + 1 ∧ (t.ctl n).activeB = !c.activeB ∧ (t.ctl n).sig = {})) ∧
  (∀ s : State, s.upd.busy = true → (s.upd.phase = 3 ∨ s.upd.phase = 4) → s.upd.cls ≠ 5 →
    (s.upd.startedAt + (if bits s.upd.cmd 48 16 = 0 then 200 else bits s.upd.cmd 48 16) * 850000 ≤ s.tick → ∃ t, exec .updateDeadline s = .next t ∧ SameJobs s t ∧
      t.upd.busy = false ∧ t.upd.phase = 2 ∧ t.upd.result = (if s.upd.phase = 3 then 6 else 7)) ∧
    (∀ t0, s.upd.phase = 4 → s.upd.pausedAt = some t0 → t0 + 1700000 ≤ s.tick → ∃ t, exec .switchWindowExpire s = .next t ∧ SameJobs s t ∧
      t.upd.busy = false ∧ t.upd.phase = 2 ∧ t.upd.result = 7)) ∧
  (∀ (core : Nat) (i : Image) (s : State), s.upd.busy = true → s.upd.cls = 5 → s.upd.phase = 4 → s.upd.back = false → core < 1536 →
    s.ckpt.down.contains (core / 96) = false →
    (fwSwitchPoint s core = true → sfind s.upd.switched core = none → (s.ctl 23).stagedImage = some i → ∃ t, exec (.coreFirmwareSwitch core) s = .next t ∧ SameJobs s t ∧
      sfind t.upd.switched core = some s.tick ∧ (t.fw core).image = 1 ∧ (t.slot (fwSlot core)).state = .running ∧
      (t.slot (fwSlot core)).a.pc = BitVec.ofNat 64 (bnat i.bytes 8 4)) ∧
    (∀ d : Word, d.getLsbD 0 = true → (sfind s.upd.switched core).isSome = true → class5Done (s.setCore core { s.core core with fw := { s.fw core with health := true } }) = false →
      exec (.fwHealth core d) s = .next (s.setCore core { s.core core with fw := { s.fw core with health := true } }))) ∧
  (∀ (n e : Nat) (b : List Byte) (s : State), n < 23 → ctlStopped s n = true → ((s.ctl n).activeImage.bind fun i => placeUzo i.bytes) = some (b, e) →
    ∃ t, exec (.controllerRestart n) s = .next t ∧ SameJobs s t ∧
      (let j := t.slot (ctlSlot ((s.ctl n).activeCtx n))
       j.state = .running ∧ j.a.pc = BitVec.ofNat 64 e ∧ (∀ r : Fin 32, j.a.x[r] = 0) ∧ j.a.ended = false))

/-- R531 to R533, R535, R536, R539 to R542: the module's edges. What a reset keeps is log 56, the REASON of PERST# log 111, the slots that a
boot takes log 112, the table that checks BAR4 log 65: the model's choices. -/
def Obligations.BootAndEdges : Prop :=
  let fresh (s t : State) (reason : Nat) : Prop := t.slots = [] ∧ t.launches = [] ∧ t.queues = [] ∧ t.chans = [] ∧ t.boot.reason = reason ∧
    t.boot.ready = false ∧ t.boot.stage = 0 ∧ (∀ n, (t.ctl n).slotA = (s.ctl n).slotA ∧ (t.ctl n).slotB = (s.ctl n).slotB) ∧
    ∀ k, (k < 2 ^ 40 ∨ 2 ^ 52 ≤ k) → memRead t.mem k = 0
  (∀ (ok : List Bool) (s : State), s.boot.ready = false → s.boot.minimal = false →
    (s.boot.attempts < 3 → (∀ k, k < 6 → stagePasses s ok k = true) → ∃ t, exec (.boot ok) s = .next t ∧ SameJobs s t ∧ t.powered = true ∧ t.boot.ready = true ∧
      t.boot.stage = 6 ∧ t.boot.attempts = 0 ∧ ∀ c, c < 512 → (t.chan c).online = true ∧ (t.chan c).trained = true) ∧
    (3 ≤ s.boot.attempts → stagePasses s ok 0 = true → stagePasses s ok 1 = true → ∃ t, exec (.boot ok) s = .next t ∧ t.powered = true ∧ t.boot.minimal = true ∧
      t.boot.ready = false ∧ t.boot.attempts = s.boot.attempts) ∧
    (∀ k, s.boot.attempts < 3 → (upTo 0 6).find? (!stagePasses s ok ·) = some k → k ≠ 2 → ∃ t, exec (.boot ok) s = .next t ∧
      fresh s t (match k with | 0 => 1 | 1 => 2 | _ => k) ∧ t.boot.attempts = min 3 (s.boot.attempts + 1) ∧ t.boot.lastStage = k ∧ t.powered = true)) ∧
  (∀ (m : Master) (s : State), barWritable s m 0x190028 = true → mgmtWaits s m = false →
    exec (.clear m) s = .next { s with boot := { s.boot with attempts := 0 } } ∧
    ∃ t, exec (.retry m) s = .next t ∧ fresh s t 7 ∧ t.boot.attempts = 0) ∧
  (∀ s : State, s.powered = true → ∃ t, exec .perst s = .next t ∧ fresh s t 7 ∧ t.boot.attempts = s.boot.attempts) ∧
  (∀ (off : Nat) (op : HostOp) (s : State), bar0Only s = true → exec (.bar4Access off op) s = .next s) ∧
  (∀ (off : Nat) (op : HostOp) (s : State), bar0Only s = false → off + HostOp.len op ≤ 2 ^ s.bar4log2 →
    let a := bar4Addr s off
    (bar4Ok s (HostOp.acc op) a (HostOp.len op) = true →
      (∀ n, op = .read n → readReady s a n = true → exec (.bar4Access off op) s =
        .next { s with outbox := s.outbox ++ [.hostRead (readBytes s.mem a n) (touchesPoison s { key := a, len := n })] }) ∧
      (∀ bs, op = .write bs → bs ≠ [] → accReady s .w a bs.length = true → logReady s a bs.length = true → isCxl a = false → Memory.wf s.mem = true → ∃ t, exec (.bar4Access off op) s = .next t ∧
        SameRegisters s t ∧ readBytes t.mem a bs.length = bs ∧ ∀ k, (k < a ∨ a + bs.length ≤ k) → SameByte s t k)) ∧
    (bar4Ok s (HostOp.acc op) a (HostOp.len op) = false →
      (∀ n, op = .read n → exec (.bar4Access off op) s = .next { s with outbox := s.outbox ++ [.hostRead (List.replicate n 0) false] }) ∧
      (∀ bs, op = .write bs → exec (.bar4Access off op) s = .next s))) ∧
  (∀ (p : Nat) (s : State), p < 4 →
    exec (.cxlLinkDown p) s = .next { s with cxl := sput s.cxl p { sget s.cxl {} p with linkup := false } } ∧
    (s.boot.minimal = false → ∃ t c, exec (.cxlLinkUp p) s = .next t ∧
      t = { s with cxl := sput s.cxl p c, freeCount := s.freeCount + 1, mem := t.mem, lost := t.lost } ∧ (s.lost = [] → t.mem = s.mem) ∧
      c.linkup = true ∧ c.size ≤ 512 ∧ c.width ≤ 16 ∧ c.drops = (sget s.cxl {} p).drops)) ∧
  (∀ s : State, ∃ t, exec .undervoltage s = .next t ∧ t.powered = false ∧ fresh s t 6) ∧
  (∀ (die temp : Nat) (s : State), die ≤ 8 →
    (115 ≤ temp → ∃ t, exec (.overtemperature die temp) s = .next t ∧ t.powered = false ∧ fresh s t 6) ∧
    (s.therm.throttle ≤ temp → ∃ t, exec (.thermalThrottle die temp) s = .next t ∧ t.slots = s.slots ∧ SameMemory s t ∧ t.therm.held = true ∧
      sget t.therm.temps 0 die = temp)) ∧
  (∀ (temps : List Nat) (s : State), temps.length = 9 → (∀ x, x ∈ temps → x < s.therm.throttle) → (∀ e, e ∈ s.therm.temps → e.1 ≤ 8) → Rising s.therm.temps →
    ∃ t, exec (.throttleRelease temps) s = .next t ∧ t.slots = s.slots ∧ SameMemory s t ∧ t.therm.held = false)

/-- R521, R525, R527: SPDM. The layout of the answers, that the controller answers from stage 1 on and takes a measurement's index from the
offset are log 109, and the wait through a class 4 switch is log 146: the model's choices. -/
def Obligations.SpdmAnswers : Prop :=
  ∀ (r : SpdmReq) (s : State),
    let chain := Config.certChain s.boot.measured
    let sends (i : Instr) (a : SpdmAns) : Prop := exec i s = .next { s with outbox := s.outbox ++ [.spdm a] }
    let signs (i : Instr) (a : Word → List Byte → SpdmAns) : Prop := ∃ v sig, exec i s =
      .next { s with outbox := s.outbox ++ [.spdm (a v sig)], freeCount := s.freeCount + 1 }
    (classPaused s 4 = false → s.powered = true → 1 ≤ s.boot.stage →
      sends (.getVersion r) (.version 1 3) ∧ sends (.getCapabilities r) (.capabilities true true true false false) ∧
      sends (.negotiateAlgorithms r) (.algorithms "Ed25519" "SHA-512") ∧ sends (.getDigests r) (.digests 0 (sha512 chain)) ∧
      (r.slot = 0 → r.offset ≤ chain.length → sends (.getCertificate r) (.certificate 0 ((chain.drop r.offset).take r.length)
        (chain.length - r.offset - ((chain.drop r.offset).take r.length).length))) ∧
      (r.slot ≠ 0 → sends (.getCertificate r) .error ∧ sends (.challenge r) .error ∧ sends (.getMeasurements r) .error) ∧
      (r.slot = 0 → signs (.challenge r) (.challengeAuth 0)) ∧
      (r.slot = 0 → r.offset = 0 → signs (.getMeasurements r) (.measurements 6 [])) ∧
      (r.slot = 0 → 1 ≤ r.offset → r.offset ≤ 6 → signs (.getMeasurements r) (.measurements 6 [(r.offset, measurement s (r.offset - 1))])) ∧
      (r.slot = 0 → r.offset = 0xFF → signs (.getMeasurements r) (.measurements 6 ((upTo 0 6).map fun i => (i + 1, measurement s i))))) ∧
    (classPaused s 4 = false → s.powered = false ∨ s.boot.stage = 0 → exec (.getVersion r) s = .next s ∧ exec (.getCapabilities r) s = .next s ∧
      exec (.negotiateAlgorithms r) s = .next s ∧ exec (.getDigests r) s = .next s ∧ exec (.getCertificate r) s = .next s) ∧
    (classPaused s 4 = true → exec (.getVersion r) s = .next s.stall ∧ exec (.getCapabilities r) s = .next s.stall ∧
      exec (.negotiateAlgorithms r) s = .next s.stall ∧ exec (.getDigests r) s = .next s.stall ∧ exec (.getCertificate r) s = .next s.stall ∧
      (∃ t, exec (.challenge r) s = .next t ∧ t.outbox = s.outbox ∧ t.stalls = s.stalls + 1) ∧
      ∃ t, exec (.getMeasurements r) s = .next t ∧ t.outbox = s.outbox ∧ t.stalls = s.stalls + 1)

/-- R415, R416, R418 to R422, R424, R435, R532: the link layer's events. One NACK for a gap is log 89, the lanes of a control flit log 170,
the comparison of START, at every width, log 164: the model's choices. -/
def Obligations.LinkEvents : Prop :=
  let kept (l : List InPkt) : List InPkt := l.map ({ · with since := 0 })
  (∀ (i : Instr) (n k : Nat) (f : Flit) (d : LinkDir) (s : State),
    i ∈ [Instr.dataFlit n f, .creditFlit n f, .nackFlit n f, .shedreqFlit n f, .restripeFlit n f, .abortFlit n f, .uncorrectableCodeword n k,
      .shedWindowEnd n, .linkDown n d, .laneRetrain n k] →
    ∃ t, exec i s = .next t ∧ t.slots = s.slots ∧ t.cores = s.cores ∧ t.mem = s.mem ∧ ∀ m, m ≠ n → t.port m = { s.port m with
      seq := (t.port m).seq, replay := (t.port m).replay, credits := (t.port m).credits, sending := (t.port m).sending, txUnits := (t.port m).txUnits }) ∧
  (∀ (n : Nat) (f : Flit) (s : State),
    let p := s.port n
    let k := 12 * n + Flit.vc f
    let h := Flit.payload f
    let lanes := flitLanes p.active p.txUnits
    let nack : List Output := if p.active = 0 then [] else [.flit n lanes (mkFlit p.rxNext 0 FType.nack p.ackSeq [])]
    p.rxActive ≠ 0 → Flit.good f = true →
    (Flit.seq f = p.rxNext → Flit.type f = FType.head → badHeader h = false → ∃ t e, exec (.dataFlit n f) s = .next t ∧
      (t.port n).rxNext = (p.rxNext + 1) % 4096 ∧ (t.port n).replay = dropAcked (Flit.ack f) p.replay ∧ t.vcq k = s.vcq k ++ [e] ∧
      (∀ j, j ≠ k → t.vcq j = s.vcq j) ∧ e.pkt = { pktOf h n with data := (h.drop 32).take (recNat h 12 2) } ∧ e.flits = 1 ∧
      e.need = (32 + recNat h 12 2 + 247) / 248 ∧ e.stomp = none ∧ e.bad = false ∧ t.outbox = s.outbox) ∧
    (Flit.seq f = p.rxNext → Flit.type f = FType.head → badHeader h = true → ∃ t, exec (.dataFlit n f) s = .next t ∧
      (t.port n).rxNext = (p.rxNext + 1) % 4096 ∧ sget t.tel.badhdr 0 n = min (2 ^ 32 - 1) (sget s.tel.badhdr 0 n + 1)) ∧
    (∀ e r, Flit.seq f = p.rxNext → Flit.type f = FType.body → s.vcq k = r ++ [e] → e.flits < e.need → e.stomp = none → e.bad = false →
      ∃ t, exec (.dataFlit n f) s = .next t ∧ (t.port n).rxNext = (p.rxNext + 1) % 4096 ∧ t.outbox = s.outbox ∧
        t.vcq k = r ++ [{ e with flits := e.flits + 1, pkt := { e.pkt with data := (e.pkt.data ++ h).take e.len } }]) ∧
    (Flit.seq f ≠ p.rxNext → (Flit.type f = FType.head ∨ Flit.type f = FType.body) → ∃ t, exec (.dataFlit n f) s = .next t ∧
      (t.port n).rxNext = p.rxNext ∧ (t.port n).nacked = true ∧ t.fab.inq = s.fab.inq ∧
      t.outbox = s.outbox ++ (if p.nacked = true then [] else nack)) ∧
    (Flit.type f = FType.credit → ∃ t, exec (.creditFlit n f) s = .next t ∧ t.fab.inq = s.fab.inq ∧ t.outbox = s.outbox ∧
      ∀ v, v < 12 → sget (t.port n).credits 0 v = sget p.credits 0 v - recNat h v 1) ∧
    (∀ j, Flit.type f = FType.nack → (dropAcked (Flit.ack f) p.replay).findIdx? (fun e => e.1 == Flit.seq f) = some j → p.active ≠ 0 →
      let again := (dropAcked (Flit.ack f) p.replay).drop j
      let copy (g : Flit) : Flit := mkFlit (Flit.seq g) (Flit.vc g) (Flit.type g) p.ackSeq (Flit.payload g)
      let flits := (again.map fun e => if Flit.stomped e.2 = true then [stompFlit (copy e.2), mkFlit (Flit.seq e.2) 0 FType.abort p.ackSeq []] else [copy e.2]).foldr (· ++ ·) []
      ∃ t, exec (.nackFlit n f) s = .next t ∧ (t.port n).replay = again ∧ (t.port n).nacks = min 0xFFFF (p.nacks + 1) ∧ t.fab.inq = s.fab.inq ∧
        t.outbox = s.outbox ++ (upTo 0 flits.length).map fun i =>
          .flit n (flitLanes p.active (p.txUnits + 16 * (flits.take i).countP fun g => Flit.type g == FType.head || Flit.type g == FType.body)) (flits.getD i [])) ∧
    (let shed := BitVec.ofNat 16 (recNat h 0 2) &&& p.active
     Flit.type f = FType.shedreq → shed ≠ 0 →
      (4 ≤ popcount (p.active &&& ~~~shed) → ∃ t lane, exec (.shedreqFlit n f) s = .next t ∧ lane < 16 ∧ bit shed lane = true ∧
        (t.port n).active = p.active &&& ~~~shed ∧ (t.port n).trained = p.trained &&& ~~~(shed &&& ~~~BitVec.ofNat 16 (2 ^ lane)) ∧
        (t.port n).rxActive = p.rxActive ∧ (t.port n).txUnits = 0 ∧ t.outbox = s.outbox ++ [.flit n lanes (restripeFlitOf p (p.active &&& ~~~shed))]) ∧
      (popcount (p.active &&& ~~~shed) < 4 → ∃ t, exec (.shedreqFlit n f) s = .next t ∧ (t.port n).active = 0 ∧ (t.port n).replay = [] ∧
        (t.port n).credits = [] ∧ (p.sending = none → t.outbox = s.outbox))) ∧
    (Flit.type f = FType.abort → ∃ t, exec (.abortFlit n f) s = .next t ∧
      ∀ v, v < 12 → kept (t.vcq (12 * n + v)) = kept ((s.vcq (12 * n + v)).filter fun e =>
        !(e.stomp == some (Flit.seq f) || (e.seqIn == Flit.seq f && decide (e.flits < e.need)))))) ∧
  (∀ (n : Nat) (f : Flit) (s : State),
    let p := s.port n
    let nack (lanes : List Nat) : List Output := if p.active = 0 then [] else [.flit n lanes (mkFlit p.rxNext 0 FType.nack p.ackSeq [])]
    (p.rxActive ≠ 0 → Flit.good f = false → Flit.stomped f = false → restripeRecord p f = none → ∃ t copies lanes, exec (.dataFlit n f) s = .next t ∧
      (t.port n).rxNext = p.rxNext ∧ t.fab.inq = s.fab.inq ∧ t.outbox = s.outbox ++ copies ++ nack lanes ∧
      (lateCheck s n f = none → copies = [] ∧ lanes = flitLanes p.active p.txUnits)) ∧
    (s.boot.minimal = true → exec (.restripeFlit n f) s = .next s) ∧
    (∀ m start, s.boot.minimal = false → ¬(Flit.good f = true ∧ Flit.type f ≠ FType.restripe) → restripeRecord p f = some (m, start) →
      ((p.rxActive = 0 ∨ start = p.rxNext) → ∃ t, exec (.restripeFlit n f) s = .next t ∧ (t.port n).rxActive = m ∧ (t.port n).rxNext = start ∧
        (t.port n).rxUnits = 0 ∧ (t.port n).active = p.active ∧ t.outbox = s.outbox ∧ t.fab.inq = s.fab.inq) ∧
      (let behind := (start + 4096 - p.rxNext) % 4096
       p.rxActive ≠ 0 → 0 < behind → behind < 2048 → ∃ t, exec (.restripeFlit n f) s = .next t ∧ (t.port n).rxActive = m ∧ (t.port n).rxNext = p.rxNext ∧
        (t.port n).active = p.active ∧ t.outbox = s.outbox ++ nack (flitLanes p.active p.txUnits)))) ∧
  (∀ (n lane : Nat) (s : State),
    let p := s.port n
    let mask := p.rxActive &&& ~~~p.asked
    bit mask lane = true →
    (popcount mask ≤ 4 → ∃ t, exec (.uncorrectableCodeword n lane) s = .next t ∧ (t.port n).rxActive = 0 ∧ (t.port n).active = p.active) ∧
    (4 < popcount mask → p.active ≠ 0 → ∃ t second, exec (.uncorrectableCodeword n lane) s = .next t ∧ second ≠ lane ∧
      bit mask second = true ∧
      (let two : BitVec 16 := BitVec.ofNat 16 (2 ^ lane) ||| BitVec.ofNat 16 (2 ^ second)
       (t.port n).asked = p.asked ||| two ∧ (t.port n).rxActive = p.rxActive ∧ (t.port n).rxTrained = p.rxTrained &&& ~~~BitVec.ofNat 16 (2 ^ lane) ∧
       t.outbox = s.outbox ++ [.flit n (flitLanes p.active p.txUnits) (mkFlit 0 0 FType.shedreq p.ackSeq (natBytes 2 two.toNat))]))) ∧
  (∀ (n : Nat) (s : State),
    let p := s.port n
    p.winStart + p.window ≤ s.tick → ∃ t, exec (.shedWindowEnd n) s = .next t ∧ (t.port n).errs = [] ∧ (t.port n).winStart = s.tick ∧
      (t.port n).lastNacks = p.winNacks ∧ (t.port n).winNacks = 0 ∧ (t.port n).active = p.active ∧
      ∀ k, k < 16 → bit p.rxActive k = true → p.thresh < sget ((sampleErrs s n).port n).errs 0 k →
        (t.port n).rxActive = 0 ∨ bit (t.port n).asked k = true) ∧
  (∀ (n : Nat) (s : State),
    (∃ t, exec (.linkDown n .outbound) s = .next t ∧ (t.port n).active = 0 ∧ (t.port n).replay = [] ∧ (t.port n).credits = [] ∧ (t.port n).sending = none ∧
      (t.port n).rxActive = (s.port n).rxActive ∧ ∀ e q, e ∈ t.fab.inq → q ∈ e.2 → q.sent = 0 → q.out ≠ some n) ∧
    (∃ t, exec (.linkDown n .inbound) s = .next t ∧ (t.port n).rxActive = 0 ∧ (t.port n).active = (s.port n).active ∧
      ∀ v, v < 12 → kept (t.vcq (12 * n + v)) = kept ((s.vcq (12 * n + v)).filter fun e => decide (e.need ≤ e.flits) && e.stomp.isNone))) ∧
  (∀ (n lane : Nat) (s : State), s.boot.minimal = true → exec (.laneRetrain n lane) s = .next s) ∧
  (∀ (n lane : Nat) (s : State), lane < 16 → s.boot.minimal = false →
    let p := s.port n
    let m : BitVec 16 := BitVec.ofNat 16 (2 ^ lane)
    let again := bit (Config.freeWord s.freeCount) 0 = true ∧ p.role ≠ 3 ∧ p.width < popcount (legalMask (p.trained ||| m))
    ∃ t, exec (.laneRetrain n lane) s = .next t ∧ (t.port n).trained = p.trained ||| m ∧ (t.port n).rxTrained = p.rxTrained ||| m ∧
      (again → (t.port n).active = legalMask (p.trained ||| m)) ∧ (¬again → (t.port n).active = p.active ∧ t.outbox = s.outbox))

/-- R425, R426, R428 to R431, R434: the router. -/
def Obligations.RouterEvents : Prop :=
  (∀ (n vc : Nat) (e : InPkt) (r : List InPkt) (s : State),
    let k := 12 * n + vc
    let ent := routeEntry s e.pkt.dest
    let goes (p : FPkt) (o : Option Nat) : Host.Outcome State Fault Refusal := .next (s.setVcq k ({ e with pkt := p, out := o } :: r))
    let escapes := goes { e.pkt with esc := true, escb := s.fab.escActive } (escPort ent s.fab.escActive)
    let cs := (candidates ent).filter (admits s ·)
    let routed : Prop := candidates ent ≠ [] ∨ escPort ent false ≠ none ∨ escPort ent true ≠ none
    s.vcq k = e :: r → e.bad = false → e.stomp = none → e.out = none →
    (e.pkt.dest = s.deviceId → exec (.routeSelect n vc) s = goes e.pkt (some 128)) ∧
    (e.pkt.dest ≠ s.deviceId → ¬routed →
      (e.flits < e.need → exec (.routeSelect n vc) s = .next s) ∧
      (e.need ≤ e.flits → e.pkt.cls ≠ 0 → exec (.routeSelect n vc) s = .next (popVc s k e)) ∧
      (e.need ≤ e.flits → e.pkt.cls = 0 → exec (.routeSelect n vc) s = .next (inject (popVc s k e) { dest := e.pkt.src, src := s.deviceId, cls := 1, prio := e.pkt.prio, op := Op.ack, status := Code.fabricUnreachable, sub := 1, tag := e.pkt.tag }))) ∧
    (e.pkt.dest ≠ s.deviceId → routed → e.pkt.esc = true → exec (.routeSelect n vc) s = goes e.pkt (escPort ent e.pkt.escb)) ∧
    (e.pkt.dest ≠ s.deviceId → routed → e.pkt.esc = false →
      (8 ≤ e.pkt.hops → exec (.routeSelect n vc) s = escapes) ∧
      (e.pkt.hops < 8 → (0 < e.pkt.hops ∨ e.pkt.dest / 256 = s.deviceId / 256) →
        (cs = [] → exec (.routeSelect n vc) s = escapes) ∧
        (cs ≠ [] → ∃ m, exec (.routeSelect n vc) s = goes e.pkt (some m) ∧ m ∈ cs ∧
          ∀ j, j ∈ cs → routeCost s m e.pkt.cls < routeCost s j e.pkt.cls ∨ routeCost s m e.pkt.cls = routeCost s j e.pkt.cls ∧ m ≤ j)) ∧
      (e.pkt.hops = 0 → e.pkt.dest / 256 ≠ s.deviceId / 256 →
        let far := cheapest s e.pkt.cls (farPorts s cs)
        (∀ j, cs = [] → far = some j → exec (.routeSelect n vc) s = goes { e.pkt with nonmin := true } (some j)) ∧
        (cs = [] → far = none → exec (.routeSelect n vc) s = escapes) ∧
        (∀ m j, cheapest s e.pkt.cls cs = some m → far = some j → exec (.routeSelect n vc) s =
          if 2 * routeCost s j e.pkt.cls + 32 < routeCost s m e.pkt.cls then goes { e.pkt with nonmin := true } (some j) else goes e.pkt (some m)) ∧
        (∀ m, cheapest s e.pkt.cls cs = some m → far = none → exec (.routeSelect n vc) s = goes e.pkt (some m))))) ∧
  (∀ (n vc o : Nat) (e : InPkt) (r : List InPkt) (s : State),
    let k := 12 * n + vc
    s.vcq k = e :: r → e.out = some o → o ≠ 128 → e.pkt.esc = false → e.bad = false → e.sent = 0 → (e.since + 128 ≤ s.tick ∨ 8 ≤ e.pkt.hops) →
    (∀ v, v < 3 → (s.port o).hasCredit (4 * e.pkt.cls + v) e.need = false) →
    exec (.escapeEntry n vc) s = .next (s.setVcq k ({ e with
      pkt := { e.pkt with esc := true, escb := s.fab.escActive }, out := escPort (routeEntry s e.pkt.dest) s.fab.escActive } :: r))) ∧
  (∀ (o k : Nat) (e : InPkt) (r : List InPkt) (s : State),
    let p := s.port o
    let bs := { e.pkt with hops := min 255 (e.pkt.hops + 1) }.header e.len ++ e.pkt.data
    let part (vc : Nat) : Flit := mkFlit p.seq vc (if e.sent = 0 then FType.head else FType.body) p.ackSeq ((bs.drop (248 * e.sent)).take 248)
    let sends (t : State) (vc : Nat) : Prop := t.slots = s.slots ∧ SameMemory s t ∧ (t.port o).seq = (p.seq + 1) % 4096 ∧
      (t.port o).replay = p.replay ++ [(p.seq, part vc)] ∧ (t.port o).sending = (if e.need ≤ e.sent + 1 then none else some k) ∧
      (∃ credit, t.outbox = s.outbox ++ .flit o (flitLanes p.active p.txUnits) (part vc) :: credit) ∧
      (e.need ≤ e.sent + 1 → (t.vcq k).map (·.pkt) = r.map (·.pkt))
    s.vcq k = e :: r →
    (bestInput s o s.fab.inq = some (k, e) → p.sending = none →
      canSend s o e = true ∧ (∀ j f l, (j, f :: l) ∈ s.fab.inq → canSend s o f = true → sendsFirst e f = true) ∧
      (o = 128 → ∃ t, exec (.egressSend o) s = .next t ∧ t.fab.inbox = s.fab.inbox ++ [e.pkt] ∧ (t.vcq k).map (·.pkt) = r.map (·.pkt) ∧
        t.slots = s.slots ∧ SameMemory s t) ∧
      (o ≠ 128 → ∃ t vc, exec (.egressSend o) s = .next t ∧ sends t vc ∧ vc / 4 = e.pkt.cls ∧ (e.pkt.esc = true ↔ vc % 4 = 3) ∧
        p.hasCredit vc e.need = true ∧ sget (t.port o).credits 0 vc = sget p.credits 0 vc + e.need ∧
        (1 < e.need → t.vcq k = { e with sent := 1, vcOut := vc, seqOut := p.seq } :: r))) ∧
    (p.sending = some k → p.replay.length < 512 → e.sent < e.flits → p.active ≠ 0 → ∃ t, exec (.egressSend o) s = .next t ∧ sends t e.vcOut ∧
      (t.port o).credits = p.credits ∧ (e.sent + 1 < e.need → t.vcq k = { e with sent := e.sent + 1 } :: r)) ∧
    (p.sending = some k → e.flits ≤ e.sent → p.active ≠ 0 → ∃ t, exec (.egressSend o) s = .next t ∧ t.fab.inq = s.fab.inq ∧ t.slots = s.slots ∧
      SameMemory s t ∧ t.outbox = s.outbox ++ [.flit o (flitLanes p.active p.txUnits) (mkFlit 0 0 FType.idle p.ackSeq [])]))

/-- R132, R180, R181, R183, R186, R411 to R413, R454, R456: packets at their target, and answers. The fields of GETREQ, FLL and FSC are
log 44, the rights that FLL and FSC need log 164: the model's choices. -/
def Obligations.TargetPackets : Prop :=
  (∀ (p : FPkt) (s s1 : State),
    let wn := p.addr / 2 ^ 38 % 16
    let off := p.addr % 2 ^ 38
    let w := sget s1.windows {} wn
    let n := p.data.length
    let arr := arriveOf p.arrive
    let acks (t : State) (u : State) (status sub : Nat) : Prop := u = inject t { dest := p.src, src := s.deviceId, cls := 1, prio := p.prio, op := Op.ack, status := status, sub := sub, tag := p.tag }
    let denied (c : Nat) : Prop := ∃ u, exec .put s = .next u ∧ acks s1 u Code.remoteDenied c
    takeInbox s (fun q => q.op == Op.put) = some (p, s1) →
    (w.holds off n = false → denied 1) ∧
    (w.holds off n = true → (∀ o, arr ≠ .word o) → ingressOk s1 wn w.ctx .w = false → denied 2) ∧
    (w.holds off n = true → ingressOk s1 wn w.ctx .w = true →
      (∀ k, arr = .sem k → boundJob s1 wn w = .none → denied 4) ∧
      (∀ t, arr = .none → resolve s1 { cls := 7, ctx := w.ctx } .w (w.addr off) (w.addr off) n = .error t → t.code ≠ 0 → denied 3) ∧
      (∀ pc, resolve s1 { cls := 7, ctx := w.ctx } .w (w.addr off) (w.addr off) n = .ok [pc] → isCxl pc.key = false → p.poison = [] →
        Memory.wf s.mem = true →
        (arr = .none → ∃ t u, exec .put s = .next u ∧ acks t u 0 0 ∧ SameRegisters s u ∧ t.fab = s1.fab ∧ readBytes u.mem pc.key n = p.data ∧
          ∀ k, (k < pc.key ∨ pc.key + n ≤ k) → SameByte s u k) ∧
        (∀ k j, arr = .sem k → boundJob s1 wn w = .job j →
          (∀ v, (s.slot j).addSem k n = some v → ∃ t u, exec .put s = .next u ∧ acks t u 0 0 ∧ (u.slot j).sem = v.sem ∧ (∀ i, i ≠ j → (u.slot i).sem = (s.slot i).sem) ∧ SameRegisters s u ∧
            readBytes u.mem pc.key n = p.data) ∧
          ((s.slot j).addSem k n = none → ∃ t u, exec .put s = .next u ∧ acks t u Code.semOverflow 0 ∧ (∀ i, (u.slot i).sem = (s.slot i).sem) ∧ SameRegisters s u ∧
            readBytes u.mem pc.key n = p.data)))) ∧
    (∀ o, w.holds off n = true → arr = .word o →
      (w.holds o 8 = false → denied 1) ∧
      (w.holds o 8 = true → ingressOk s1 wn w.ctx .rw = false → denied 2) ∧
      (∀ pc qc, w.holds o 8 = true → ingressOk s1 wn w.ctx .rw = true →
        resolve s1 { cls := 7, ctx := w.ctx } .w (w.addr off) (w.addr off) n = .ok [pc] → pc.len = n →
        resolve s1 { cls := 7, ctx := w.ctx } .rw (w.addr o) (w.addr o) 8 = .ok [qc] → qc.len = 8 → isCxl pc.key = false → isCxl qc.key = false →
        p.poison = [] → Memory.wf s.mem = true → (pc.key + n ≤ qc.key ∨ qc.key + 8 ≤ pc.key) →
        ∃ t u, exec .put s = .next u ∧ acks t u 0 0 ∧ SameRegisters s u ∧ readBytes u.mem pc.key n = p.data ∧
          readBytes u.mem qc.key 8 = natBytes 8 (bytesNat (readBytes s.mem qc.key 8) + n) ∧
          ∀ k, (k < pc.key ∨ pc.key + n ≤ k) → (k < qc.key ∨ qc.key + 8 ≤ k) → SameByte s u k))) ∧
  (∀ (p : FPkt) (s s1 : State) (r : Req) (ps qs : List Piece), takeInbox s (fun q => q.op == Op.getreq) = some (p, s1) →
    checkPacket s1 p p.arrive .r .none = .ok r ps qs → exec .getreq s = .next (inject (arrivedRead s1 p ps) { dest := p.src, src := s.deviceId, cls := 1, prio := p.prio, op := Op.getdata, tag := p.tag, data := piecesBytes s1 ps, poison := badRuns s1 0 ps })) ∧
  (∀ (p : FPkt) (s s1 : State) (r : Req) (pc : Piece) (qs : List Piece), takeInbox s (fun q => q.op == Op.sig) = some (p, s1) → p.arrive % 16 ≤ 10 →
    let n := if p.arrive % 16 = 9 then 4 else 8
    checkPacket s1 p n .rw .none = .ok r [pc] qs → isCxl pc.key = false → Memory.wf s.mem = true →
    let old := bytesNat (readBytes s.mem pc.key n)
    let x := bytesNat (p.data.take 8)
    ∃ u, exec .sig s = .next u ∧ SameRegisters s u ∧ (∀ k, (k < pc.key ∨ pc.key + n ≤ k) → SameByte s u k) ∧
      readBytes u.mem pc.key n = natBytes n (if p.arrive % 16 = 9 then faddCode fp32 old (x % 2 ^ 32) else if p.arrive % 16 = 10 then faddCode fp64 old x
        else (amoOp (p.arrive % 16) (BitVec.ofNat 64 old) (BitVec.ofNat 64 x)).toNat)) ∧
  (∀ (p : FPkt) (s s1 : State) (r : Req) (ps qs : List Piece), takeInbox s (fun q => q.op == Op.fll) = some (p, s1) →
    checkPacket s1 p 8 .r .none = .ok r ps qs →
    let q : Reservation := ⟨requesterOf p, lineOf ps, s.tick⟩
    ∃ t u, exec .fllRequest s = .next u ∧ SameMemory s u ∧ u.slots = s.slots ∧ q ∈ u.resv ∧ (∀ x, x ∈ u.resv → x.requester = requesterOf p → x = q) ∧
      u.resv.length ≤ 4096 ∧ (∀ x, x ∈ u.resv → x = q ∨ x ∈ s.resv) ∧
      u = inject t { dest := p.src, src := s.deviceId, cls := 1, prio := p.prio, op := Op.ack, tag := p.tag, data := piecesBytes s1 ps, poison := badRuns s1 0 ps }) ∧
  (∀ (p : FPkt) (s s1 : State) (r : Req) (pc : Piece) (qs : List Piece), takeInbox s (fun q => q.op == Op.fsc) = some (p, s1) →
    checkPacket s1 p 8 .rw .none = .ok r [pc] qs →
    let holds : Prop := ∃ q, q ∈ s.resv ∧ q.requester = requesterOf p ∧ q.line = pc.key / 128 ∧ s.tick - q.since < 85000
    let tells (t u : State) (v : Nat) : Prop := u = inject t { dest := p.src, src := s.deviceId, cls := 1, prio := p.prio, op := Op.ack, tag := p.tag, data := natBytes 8 v }
    (holds → isCxl pc.key = false → Memory.wf s.mem = true → 8 ≤ p.data.length → ∃ t u, exec .fscRequest s = .next u ∧ tells t u 0 ∧ SameRegisters s u ∧
      (∀ q, q ∈ u.resv → q.requester ≠ requesterOf p) ∧ readBytes u.mem pc.key 8 = p.data.take 8 ∧
      ∀ k, (k < pc.key ∨ pc.key + 8 ≤ k) → SameByte s u k) ∧
    (¬holds → ∃ t u, exec .fscRequest s = .next u ∧ tells t u 1 ∧ u.slots = s.slots ∧ SameMemory s u ∧
      u.resv = s.resv.filter fun q => q.requester != requesterOf p)) ∧
  (∀ (p : FPkt) (x : Xact) (c : Cmd) (i : Nat) (v : Unit4k) (q : Part) (pc : Piece) (s s1 : State), takeInbox s (fun q => q.op == Op.getdata) = some (p, s1) →
    sfind s.fab.xacts p.tag = some x → unitByTag s1 x p.tag = some (c, i, v) → v.parts = [q] → q.elem = none → c.slotCopy = false →
    resolve s1 (slotReq s1 x.slot) .w q.run.dst q.run.dst q.run.len = .ok [pc] → isCxl pc.key = false → p.poison = [] → p.data.length = v.len →
    (cwDone c.cw = 2 → c.again = true ∨ ((s1.slot x.slot).addSem (cwSem c.cw) v.len).isSome = true) → Memory.wf s.mem = true → Rising s.fab.xacts →
    ∃ u d, exec .getdata s = .next u ∧ SameRegisters s u ∧ readBytes u.mem pc.key v.len = p.data ∧
      (∀ k, (k < pc.key ∨ pc.key + v.len ≤ k) → SameByte s u k) ∧ sfind u.fab.xacts p.tag = none ∧
      (u.slot x.slot).cmd true c.id = some d ∧ d.bytes = c.bytes + v.len ∧ d.units = c.units.set i { v with landed := true } ∧
      ∀ z, cwDone c.cw = 2 → c.again = false → (s1.slot x.slot).addSem (cwSem c.cw) v.len = some z → (u.slot x.slot).sem = z.sem) ∧
  (∀ (p : FPkt) (x : Xact) (s s1 : State), takeInbox s (fun q => q.op == Op.ack) = some (p, s1) → sfind s.fab.xacts p.tag = some x → Rising s.fab.xacts →
    (∀ c i v, p.status = 0 → unitByTag s1 x p.tag = some (c, i, v) →
      (cwDone c.cw = 2 → c.again = true ∨ ((s1.slot x.slot).addSem (cwSem c.cw) v.len).isSome = true) → ∃ u d, exec .ack s = .next u ∧ SameMemory s u ∧
      SameRegisters s u ∧ sfind u.fab.xacts p.tag = none ∧ (u.slot x.slot).cmd true c.id = some d ∧ d.units = c.units.set i { v with landed := true }) ∧
    (p.status = 0 → x.cmd = none → ((s.slot x.slot).reply x.st 0).isSome = true → ∃ u, exec .ack s = .next u ∧ SameMemory s u ∧ SameRegisters s u ∧
      sfind u.fab.xacts p.tag = none ∧ (u.slot x.slot).reply x.st (if p.poison ≠ [] then 3 else 1) = some (if p.poison ≠ [] then 0 else leWord (p.data.take 8))) ∧
    (∀ id c, p.status ≠ 0 → x.cmd = some id → (s.slot x.slot).cmd true id = some c → ∃ u, exec .ack s = .next u ∧ SameRegisters s u ∧
      sfind u.fab.xacts p.tag = none ∧ ((u.slot x.slot).cmd true id).map (·.failed) = some true))

/-- R437 to R440, R443 to R445, R447 to R449, R451, R453: reductions. The credits that come back from elsewhere are log 51, a bucket's timer
log 116, the wait of a write through a switch log 146: the model's choices. -/
def Obligations.ReductionEvents : Prop :=
  (∀ (m : Master) (d : Word) (s : State), barWritable s m 0x185000 = true → mgmtWaits s m = false → readReady s (bits d 6 46 * 64) 64 = true →
    let r := physBytes s (bits d 6 46 * 64) 64
    (recNat r 4 4 ≤ 2 ^ 18 → readReady s (recNat r 8 8) (4 * recNat r 4 4) = true) →
    let g := recNat r 0 2
    let errs (e : Nat) : Host.Outcome State Fault Refusal := .next { s with fab := { s.fab with rgErr := e } }
    (s.fab.rgBusy = none → rgError s r = 0 →
      (recNat r 2 1 = 0 → ∃ t, exec (.install m d) s = .next t ∧ SameJobs s t ∧ SameMemory s t ∧ t.fab.rgErr = 0 ∧
        t.group g = some { fanin := recNat r 3 1, n := recNat r 4 4, leaves := (upTo 0 (recNat r 4 4)).map fun p => memNat s (recNat r 8 8 + 4 * p) 4, stage := recNat r 16 8, maxElems := recNat r 24 4, timeout := if recNat r 28 2 = 0 then 50 else recNat r 28 2, report := recNat r 32 8 } ∧
        ∀ j, j ≠ g → t.group j = s.group j) ∧
      (recNat r 2 1 = 1 → exec (.remove m d) s = .next { s with fab := { s.fab with rgErr := 0, rgBusy := some g } })) ∧
    (s.fab.rgBusy = none → rgError s r ≠ 0 →
      (recNat r 2 1 ≠ 1 → exec (.install m d) s = errs (rgError s r)) ∧ (recNat r 2 1 = 1 → exec (.remove m d) s = errs (rgError s r))) ∧
    (s.fab.rgBusy.isSome = true → (recNat r 2 1 ≠ 1 → exec (.install m d) s = errs 6) ∧ (recNat r 2 1 = 1 → exec (.remove m d) s = errs 6))) ∧
  (∀ (g : Nat) (v : Group) (s : State), s.fab.rgBusy = some g → s.group g = some v → v.insts = [] → v.buckets = [] → v.staged = [] → v.outq = [] → Rising s.fab.groups →
    ∃ t, exec .removeComplete s = .next t ∧ SameJobs s t ∧ SameMemory s t ∧ t.group g = none ∧ t.fab.rgBusy = none ∧
      ∀ j, j ≠ g → t.group j = s.group j) ∧
  (∀ (n : Nat) (c : Cmd) (s : State), startable s n true = some c → c.op = 0x2B → c.fn = 3 →
    let gn := bits c.opb 0 16
    (∀ g s1 bs e, s.group gn = some g → g.insts.length < 4 → g.closings = [] → c.handoff = none → readsEmpty s (slotReq s n) c.opa 64 = false →
      fetchAll s (slotReq s n) c.opa 64 = .ok (s1, bs, e) → descFault (descOf bs) g.maxElems (descOf bs).elems = none →
      ∀ ws f s2 s3 b, readsEmpty s1 (slotReq s1 n) (BitVec.ofNat 64 (descOf bs).src) (4 * (descOf bs).elems) = false →
      fetchAll s1 (slotReq s1 n) (BitVec.ofNat 64 (descOf bs).src) (4 * (descOf bs).elems) = .ok (s2, ws, f) →
      contribBuckets s2 n (descOf bs) (words4 ws (descOf bs).elems) = .ok (s3, b) →
      ∃ t h x, exec (.collectiveStart n) s = .next t ∧ t.mem = s3.mem ∧ ((descOf bs).mode < 2 → SameMemory s t) ∧ SameRegisters s t ∧ t.group gn = some h ∧ h.insts = g.insts ++ [x] ∧
        h.nextInst = (g.nextInst + 1) % 65536 ∧ x.inst = g.nextInst ∧ x.slot = n ∧ x.cmd = c.id ∧ x.elems = (descOf bs).elems ∧ x.sent = 0 ∧
        x.dst = BitVec.ofNat 64 (descOf bs).dst ∧ x.statusw = BitVec.ofNat 64 (descOf bs).statusw ∧ x.buckets = b ∧ b.length = ((descOf bs).elems + 127) / 128 ∧
        ((t.slot n).cmd true c.id).map (·.started) = some true) ∧
    (s.group gn = none → (s.slot n).cmd true c.id = some c → ∃ t, exec (.collectiveStart n) s = .next t ∧ SameRegisters s t ∧
      t.fab.groups = s.fab.groups ∧ ((t.slot n).cmd true c.id).map (·.failed) = some true)) ∧
  (∀ (gn i p : Nat) (g : Group) (x : Inst) (b : List Byte) (s : State), s.group gn = some g → g.insts.find? (·.inst == i) = some x →
    g.place s.deviceId = some p → x.buckets[x.sent]? = some b → ((s.slot x.slot).cmd true x.cmd).isSome = true → g.outq = [] →
    (∀ e, e ∈ g.buckets → bucketWhole g e = false) →
    (16 ≤ sget g.used 0 0 → g.host 1 (p / g.fanin) = s.deviceId → exec (.bucketSend gn i) s = .next s) ∧
    (sget g.used 0 0 < 16 → ∃ t h, exec (.bucketSend gn i) s = .next t ∧ SameJobs s t ∧ SameMemory s t ∧ t.group gn = some h ∧
      (h.insts.find? (·.inst == i)).map (·.sent) = some (x.sent + 1) ∧ sget h.used 0 0 = sget g.used 0 0 + 1 ∧ t.vcq 1544 = s.vcq 1544 ++ [{
        pkt := { dest := g.host 1 (p / g.fanin), src := s.deviceId, cls := 2, prio := x.prio, op := Op.red, addr := redAddr x.scale x.mode i x.sent 0 1 gn, data := b },
        flits := (32 + b.length + 247) / 248, need := (32 + b.length + 247) / 248, at_ := s.tick, since := s.tick, len := b.length }])) ∧
  (∀ (p : FPkt) (s s1 : State), takeInbox s (fun q => q.op == Op.red) = some (p, s1) →
    (s1.group p.rGroup = none → 128 ≤ p.via → exec .red s = .next s1) ∧
    (s1.group p.rGroup = none → p.via < 128 → ∃ t, exec .red s = .next t ∧ SameJobs s t ∧ SameMemory s t ∧ t.fab = s1.fab ∧
      sget t.tel.reddrop 0 p.via = min (2 ^ 32 - 1) (sget s.tel.reddrop 0 p.via + 1)) ∧
    (∀ g q c comb, s1.group p.rGroup = some g → g.place p.src = some q → g.buckets = [] → g.absent = [] → g.outq = [] → sget g.used 0 p.rLevel < 16 → p.isError = false →
      let l := p.rLevel
      let i := (g.childOf l q).1
      let b : NodeBucket := { level := l, index := i, inst := p.rInst, bucket := p.rBucket, got := [(c, p)], firstAt := s.tick }
      0 < l → l < g.depth → q % g.fanin ^ (l - 1) = 0 → g.host l i = s.deviceId → g.ended.contains p.rInst = false →
      g.dead.contains (l, i, p.rInst, p.rBucket) = false → (g.childOf l q).2 = c →
      ((g.children l i = [c] → combine [p] = .ok comb → p.missing = false → ∃ t, exec .red s = .next t ∧ SameJobs s t ∧ SameMemory s t ∧
        (t.group p.rGroup).map (·.buckets) = some [] ∧ ∃ e, t.vcq 1544 = s1.vcq 1544 ++ [e] ∧ e.pkt.dest = g.host (l + 1) (i / g.fanin) ∧
          e.pkt.op = Op.red ∧ e.pkt.rLevel = (l + 1) % 32 ∧ e.pkt.data = contribData (if p.rMode = 0 then 0 else 1) comb false 0 p.nBuckets) ∧
       (bucketWhole g b = false → ∃ t, exec .red s = .next t ∧ SameJobs s t ∧ SameMemory s t ∧ (t.group p.rGroup).map (·.buckets) = some [b] ∧
         t.fab.inq = s1.fab.inq)))) ∧
  (∀ (gn : Nat) (g : Group) (b : NodeBucket) (comb : Contrib) (p : FPkt) (c : Nat) (s : State), s.group gn = some g → g.buckets = [b] →
    b.firstAt + g.timeout * 850 ≤ s.tick → b.level ≠ g.depth → b.got = [(c, p)] → g.children b.level b.index ≠ [c] → c ∈ g.children b.level b.index →
    g.absent = [] → g.outq = [] → sget g.used 0 b.level < 16 → combine [p] = .ok comb →
    ∃ t h, exec (.bucketTimeout gn 0) s = .next t ∧ SameJobs s t ∧ SameMemory s t ∧ t.group gn = some h ∧ h.buckets = [] ∧
      (∀ d, d ∈ g.children b.level b.index → d ≠ c → (b.level, b.index, b.inst, d) ∈ h.absent) ∧
      (b.level, b.index, b.inst, c) ∉ h.absent ∧ ∃ e m, t.vcq 1544 = s.vcq 1544 ++ [e] ∧ e.pkt.dest = g.host (b.level + 1) (b.index / g.fanin) ∧
        e.pkt.data = contribData (if p.rMode = 0 then 0 else 1) comb true m p.nBuckets) ∧
  (∀ (p : FPkt) (g : Group) (x : Inst) (c : Cmd) (pc : Piece) (s s1 : State), takeColl s 0 = some (p, s1) → s1.group p.rGroup = some g →
    g.insts.find? (·.inst == p.rInst) = some x → (s1.slot x.slot).cmd true x.cmd = some c →
    let a := x.dst + BitVec.ofNat 64 (512 * p.rBucket)
    let bs := (p.data.take 512).take (4 * (x.elems - 128 * p.rBucket))
    resolve s1 (slotReq s1 x.slot) .w a a bs.length = .ok [pc] → isCxl pc.key = false → Memory.wf s.mem = true →
    x.got.contains p.rBucket = false → x.got.length + 1 < (x.elems + 127) / 128 → ∃ t h, exec .collResult s = .next t ∧ SameRegisters s t ∧
      readBytes t.mem pc.key bs.length = bs ∧ (∀ k, (k < pc.key ∨ pc.key + bs.length ≤ k) → SameByte s t k) ∧
      t.group p.rGroup = some h ∧ (h.insts.find? (·.inst == p.rInst)).map (·.got) = some (p.rBucket :: x.got)) ∧
  (∀ (p : FPkt) (g : Group) (x : Inst) (c : Cmd) (pc : Piece) (s s1 : State), takeColl s 1 = some (p, s1) → s1.group p.rGroup = some g →
    g.insts.find? (·.inst == p.rInst) = some x → (s1.slot x.slot).cmd true x.cmd = some c → c.again = false → c.handoff = none → c.slotNo = none →
    cwDone c.cw ≠ 1 → resolve s1 (slotReq s1 x.slot) .w x.statusw x.statusw 8 = .ok [pc] → isCxl pc.key = false → Memory.wf s.mem = true →
    ∃ t h, exec .collIncomplete s = .next t ∧ SameRegisters s t ∧ readBytes t.mem pc.key 8 = natBytes 8 1 ∧
      (∀ k, (k < pc.key ∨ pc.key + 8 ≤ k) → SameByte s t k) ∧ t.group p.rGroup = some h ∧ h.insts.find? (·.inst == p.rInst) = none ∧
      (t.slot x.slot).cmd true x.cmd = none) ∧
  (∀ (p : FPkt) (g : Group) (x : Inst) (c : Cmd) (s s1 : State), takeColl s 2 = some (p, s1) → s1.group p.rGroup = some g →
    g.insts.find? (·.inst == p.rInst) = some x → (s1.slot x.slot).cmd true x.cmd = some c → ∃ t h, exec .collError s = .next t ∧ SameRegisters s t ∧
      t.group p.rGroup = some h ∧ h.insts.find? (·.inst == p.rInst) = none ∧ ((t.slot x.slot).cmd true x.cmd).map (·.failed) = some true) ∧
  (∀ (gn i : Nat) (g : Group) (x : Inst) (c : Cmd) (s : State), s.group gn = some g → g.insts.find? (·.inst == i) = some x →
    (s.slot x.slot).cmd true x.cmd = some c → x.lastAt + (200 + g.depth * g.timeout) * 850 ≤ s.tick →
    let come : Prop := ∃ p, p ∈ s.fab.inbox ∧ p.op = Op.coll ∧ p.rGroup = gn ∧ p.rInst = i
    (x.buckets.length ≤ x.sent → x.got = [] → ¬come → ∃ t h, exec (.noResultTimeout gn i) s = .next t ∧
      SameRegisters s t ∧ t.group gn = some h ∧ h.insts.find? (·.inst == i) = none ∧ ((t.slot x.slot).cmd true x.cmd).map (·.failed) = some true) ∧
    (x.sent < x.buckets.length ∨ x.got ≠ [] ∨ come → exec (.noResultTimeout gn i) s = .next s))

/-- R46, R47, R49 to R51, R56, R237, R239, R498: blocks. -/
def Obligations.BlockEntry : Prop :=
  (∀ (r e t : BitVec 1) (k : BitVec 3) (l : BitVec 10) (n : BitVec 12) (s : State),
    let st := s.myStream
    let bad : Prop := l = 0 ∨ (t = 1 ∧ r = 0) ∨ (t = 0 ∧ k ≠ 0)
    let count := if n = 0 then st.lc.toNat else n.toNat
    let passes := if t = 1 then count + k.toNat else count
    (bad → exec (.blockHeader r e t k l n) s = .next (takeFault s (trapOf Code.illegalOp 6 st.pc))) ∧
    (¬bad → st.reenter = none → st.iterPend = false → ∃ u, exec (.blockHeader r e t k l n) s = .next u ∧
      (st.exposed = (e == 1) → SameButStream s u s.me ∧ (u.stream s.me).x = st.x) ∧ SameMemory s u ∧ (u.stream s.me).rrb = st.rrb ∧
      (passes = 0 → SameButStream s u s.me ∧ u.stream s.me = { st with
        reenter := none, iterPend := false, blk := none,
        pc := st.pc + 4 + BitVec.ofNat 64 (2 * l.toNat), arrival := .fall }) ∧
      (0 < passes → (u.stream s.me).exposed = (e == 1) ∧ (st.exposed ≠ (e == 1) → (u.stream s.me).pend = []) ∧ (u.stream s.me).pc = st.pc + 4 ∧ ∃ b, (u.stream s.me).blk = some b ∧ b.hdr = st.pc ∧ b.len = l.toNat ∧ b.n = count ∧ b.k = 0 ∧
        b.pos = 0 ∧ b.body = [] ∧ b.rot = (r == 1) ∧ b.stg = (t == 1) ∧ b.passes = passes ∧
        (t = 1 → ∀ j, j ≤ k.toNat → (u.stream s.me).readP (8 + j) = spread (decide (j = 0 ∧ 0 < count))) ∧
        (st.exposed = (e == 1) → ∀ j, j < 16 → (t = 0 ∨ j < 8 ∨ 8 + k.toNat < j) → (u.stream s.me).readP j = st.readP j))) ∧
    (¬bad → st.reenter = none → st.iterPend = true → t = 1 → 0 < st.iterCnt.toNat + k.toNat → ∃ u b, exec (.blockHeader r e t k l n) s = .next u ∧
      (u.stream s.me).blk = some b ∧ b.n = st.iterCnt.toNat ∧ (u.stream s.me).rrb = st.rrb - BitVec.ofNat 8 k.toNat ∧ (u.stream s.me).iterPend = false) ∧
    (∀ j m, ¬bad → st.reenter = some (j, m) → st.iterPend = false → j < (if t = 1 then m + k.toNat else m) → ∃ u b, exec (.blockHeader r e t k l n) s = .next u ∧
      (u.stream s.me).blk = some b ∧ b.n = m ∧ b.k = j ∧ b.hdr = st.pc ∧ (u.stream s.me).pc = st.pc + 4 ∧ (u.stream s.me).reenter = none)) ∧
  (∀ (st : Stream) (b : Block), st.blk = some b →
    let u := st.endPass b
    let rrb := if b.rot then st.rrb + 1 else st.rrb
    u.x = st.x ∧ u.lc = st.lc ∧ u.rrb = rrb ∧
    (b.k + 1 < b.passes → u.blk = some { b with k := b.k + 1, pos := 0 } ∧ u.pc = b.hdr + 4 ∧
      (b.stg = true → b.stages ≤ 7 → ∀ j, j ≤ b.stages → u.readP (8 + j) = spread (decide (j ≤ b.k + 1 ∧ b.k + 1 - j < b.iterations)))) ∧
    (b.passes ≤ b.k + 1 → (b.drain = none ∨ b.drain = some b.n) → u.blk = none ∧ u.pc = b.hdr + 4 + BitVec.ofNat 64 (2 * b.len) ∧ u.p = st.p) ∧
    (∀ d, b.passes ≤ b.k + 1 → b.drain = some d → d < b.n → u.blk = none ∧ u.pc = b.hdr ∧ u.iterPend = true ∧ u.iterCnt = BitVec.ofNat 32 (b.n - d)))

/-- R37, R317, R333, R342, R393, R423, R431, R464, R492, R508, R531, R542: the reset values that the spec states. -/
def Obligations.ResetLeaves : Prop :=
  let s := State.reset
  s.qregs.qtbase = 0 ∧ s.qregs.ringwin = 0 ∧ s.qregs.reject = false ∧ s.qregs.busy = none ∧ s.tq.cowait = 1000 ∧ s.tq.prewait = 2 ∧ s.tq.affwait = 20 ∧
  s.tq.spillbase = 0 ∧ s.ctxbase = 0 ∧ s.gov.rise = 500 ∧ s.gov.fall = 500 ∧ s.fab.escActive = false ∧ s.ckpt.rollvec = 0 ∧ s.ckpt.rollen = false ∧
  s.ckpt.defer = 2000 ∧ s.ckpt.len = 20 ∧ s.ckpt.committed = none ∧ s.ckpt.current = 0 ∧ s.therm.throttle = 100 ∧ s.upd.busy = false ∧ s.upd.phase = 0 ∧
  s.queues = [] ∧ s.graphs = [] ∧ s.launches = [] ∧ s.tarns = [] ∧ s.resv = [] ∧
  (∀ n, s.slot n = {}) ∧
  (∀ n, (s.port n).cfg = BitVec.ofNat 64 (1024 * 2 ^ 48 + 24 * 2 ^ 32 + 4 * 2 ^ 16 + 8 * 2 ^ 4 + (if n < 60 then 0 else if n < 124 then 1 else 3)) ∧
    (s.port n).stat = 0) ∧
  (∀ n, (sget s.windows {} n).map = 0 ∧ (sget s.windows {} n).bind = 0) ∧
  (∀ c, (s.fw c).wdage = 0 ∧ (s.fw c).period = 1000 ∧ (s.fw c).share = 1 ∧ (s.fw c).event = 0 ∧ (s.fw c).tbase = 0 ∧ (s.core c).est = 100) ∧
  (∀ c, sget s.shares {} c = {}) ∧ (∀ r, sget s.ranges {} r = {}) ∧
  (∀ target off acc m, m % 16 ≠ 15 → hedgeOk s target m acc off = false)

/-- R41, R48, R50, R53, R57, R60, R61, R67, R69, R320, R322, R511: a step runs what is decoded. -/
def Obligations.StepRunsDecoded : Prop :=
  (∀ (c : Nat) (k : StreamId) (s u : State), s.powered = true → nextTurn s = (.unit c k, u) → u.unitUsed c k = false →
    let v := ageUnit u c k
    let g (e : Nat) : Agent := ⟨2 * c + e, k⟩
    atHeader u (g 0) = false → atHeader u (g 1) = false →
    let first : Prop := k = .v ∧ readyBundle v ⟨fwSlot c, .a⟩ = true ∧ fwMay v c = true
    (first → step s = unlessHeld s (spend c .v (issueAgent (noteFw v c) ⟨fwSlot c, .a⟩))) ∧
    (¬first → runnable v (g 0) = true → runnable v (g 1) = false → step s = unlessHeld s (spend c k (issueAgent v (g 0)))) ∧
    (¬first → runnable v (g 0) = false → runnable v (g 1) = true → step s = unlessHeld s (spend c k (issueAgent v (g 1)))) ∧
    (∀ t0 t1, ¬first → runnable v (g 0) = true → runnable v (g 1) = true → issueAgent v (g 0) = .next t0 → issueAgent v (g 1) = .next t1 →
      (t0.issue.outcome = .waiting → step s = unlessHeld s (spend c k (issueAgent t0 (g 1)))) ∧
      (t0.issue.outcome ≠ .waiting → t1.issue.outcome = .waiting → step s = unlessHeld s (spend c k (issueAgent t1 (g 0)))) ∧
      (t0.issue.outcome ≠ .waiting → t1.issue.outcome ≠ .waiting →
        step s = unlessHeld s (.next (if firstWins v c k then noteLoser (t0.useUnit c k) c k 1 else noteLoser (t1.useUnit c k) c k 0))))) ∧
  (∀ (c : Nat) (k : StreamId) (s u : State), s.powered = true → nextTurn s = (.unit c k, u) →
    let g (e : Nat) : Agent := ⟨2 * c + e, k⟩
    (atHeader u (g 0) = true → atHeader u (g 1) = false → ∀ t, issueHeader u (g 0) = .next t → atHeader t (g 1) = false →
      step s = unlessHeld s (.next t)) ∧
    (atHeader u (g 0) = false → atHeader u (g 1) = true → step s = unlessHeld s (issueHeader u (g 1))) ∧
    (atHeader u (g 0) = true → ∀ t, issueHeader u (g 0) = .next t → atHeader t (g 1) = true → step s = unlessHeld s (issueHeader t (g 1)))) ∧
  (∀ (n : Nat) (s u : State), s.powered = true → nextTurn s = (.context n, u) → atHeader u ⟨n, .a⟩ = true → 3072 ≤ n →
    step s = unlessHeld s (issueHeader u ⟨n, .a⟩)) ∧
  (∀ (n : Nat) (s u : State), s.powered = true → nextTurn s = (.context n, u) → runnable u ⟨n, .a⟩ = true → atHeader u ⟨n, .a⟩ = false → 3072 ≤ n →
    (waits (issueAgent u ⟨n, .a⟩) = true → step s = unlessHeld s (issueAgent u ⟨n, .a⟩)) ∧
    (4608 ≤ n → waits (issueAgent u ⟨n, .a⟩) = false → (u.slot n).issuedAt ≠ some u.tick →
      step s = unlessHeld s (spendOwn n (issueAgent u ⟨n, .a⟩))) ∧
    (3072 ≤ n → n < 4608 → waits (issueAgent u ⟨n, .a⟩) = false → u.unitUsed (n - 3072) .v = false → fwMay u (n - 3072) = true →
      step s = unlessHeld s (spend (n - 3072) .v (issueAgent (noteFw u (n - 3072)) ⟨n, .a⟩)))) ∧
  (∀ (i : Instr) (s u : State), s.powered = true → nextTurn s = (.event i, u) → encode i = [] → step s = unlessHeld s (exec i (due i u))) ∧
  (∀ s t : State, unlessHeld s (.next t) = .next (if s.stalls < t.stalls then postpone s else t)) ∧
  (∀ (g : Agent) (b : Block) (p q : Parcel) (i : Instr) (body : List Parcel) (s : State), (s.stream g).blk = some b → isHeaderParcel p = false →
    wordFault g i = none → bundleHeld (begun s g none) [i] = none →
    (∀ body1, b.pos + 1 < b.len → parcelAt s g b b.body b.pos = .ok (p, body1) → parcelCount p = 2 → parcelAt s g b body1 (b.pos + 1) = .ok (q, body) →
      decodeParcels p q = .ok i → i.hd.s = true →
      issueAgent s g = settle (b.pos + 2) (exec i ((begun (fetched s g (b.hdr + 4 + BitVec.ofNat 64 (2 * b.body.length)) (2 * (body.length - b.body.length))) g none).modMyStream
        ({ · with blk := some { b with body := body } })))) ∧
    (b.pos < b.len → parcelAt s g b b.body b.pos = .ok (p, body) → parcelCount p = 1 → decodeParcels p 0 = .ok i →
      issueAgent s g = settle (b.pos + 1) (exec i ((begun (fetched s g (b.hdr + 4 + BitVec.ofNat 64 (2 * b.body.length)) (2 * (body.length - b.body.length))) g none).modMyStream
        ({ · with blk := some { b with body := body } }))))) ∧
  (∀ (g : Agent) (p q : Parcel) (s : State), (s.stream g).blk = none → (s.stream g).pc.getLsbD 0 = false → fetchParcel s g (s.stream g).pc = .ok p → isHeaderParcel p = true →
    fetchParcel s g ((s.stream g).pc + 2) = .ok q → issueAgent s g = exec (decodeHeader (p ++ q)) (fetched (begun s g none) g (s.stream g).pc 4)) ∧
  (∀ (used : Nat) (b : Block) (s : State), s.issue.outcome = .issued → s.myStream.blk = some b → used < b.len → s.myStream.pend = [] →
    ∃ t, settle used (.next s) = .next t ∧ (t.stream s.me).blk = some { b with pos := used } ∧ (t.stream s.me).wait = none ∧
      (t.stream s.me).pc = b.hdr + 4 + BitVec.ofNat 64 (2 * used) ∧ (t.stream s.me).cmdidx = s.myStream.cmdidx + 1 ∧
      (t.stream s.me).x = s.myStream.x ∧ (t.stream s.me).p = s.myStream.p ∧ SameMemory s t) ∧
  (∀ (g : Agent) (b : Block) (w v : BWord) (s t u : State), (s.stream g).blk = some b →
    let r := gather s g b (longest g + 1) b.pos b.body []
    let s' := fetched s g (b.hdr + 4 + BitVec.ofNat 64 (2 * b.body.length)) (2 * (r.parcels.length - b.body.length))
    let s1 := (begun s' g (viewOf s' g [w, v])).modMyStream ({ · with blk := some { b with body := r.parcels } })
    r.fault = none → bundleFault g r = none → r.words = [w, v] → s.begun.find? (·.agent == g) = none → bundleHeld (begun s g none) [w.instr, v.instr] = none →
    exec w.instr s1 = .next t → (t.issue.outcome = .issued ∨ t.issue.outcome = .branched ∨ t.issue.outcome = .ended) → exec v.instr t = .next u →
    ((u.issue.outcome = .issued ∨ u.issue.outcome = .branched) → issueAgent s g = .next (finishBundle u r.used)) ∧
    (u.issue.outcome = .ended → issueAgent s g = .next (drainPending (finishBundle u r.used))) ∧
    (∀ f, u.issue.outcome = .faulted f →
      issueAgent s g = settle r.used (.next (takeFault { s1 with issue := { s1.issue with view := none } } f))))

/-- R41 to R43, R45, R46, R112, R114, R123, R127, R136, R219, R257: decoding, by example. -/
def Obligations.DecodeWords : Prop :=
  decodeTableWord 32 0b1100_1_0_1_011_0000010100_000000000111 = some (.blockHeader 1 0 1 3 20 7) ∧
  decodeTableWord 16 0b0_00111_00100_11111 = some (.compactAddi 4 31) ∧
  decodeTableWord 16 0b0_10010_00000_00000 = some .compactEnd ∧
  decodeTableWord 32 0b10_1_0000_000000_00001_00010_00011_0000 = some (.add ⟨true, 0⟩ 1 2 3) ∧
  decodeTableWord 32 0b10_0_0101_000010_00001_00010_111111111 = some (.addi ⟨false, 5⟩ 1 2 511) ∧
  decodeTableWord 32 0b10_1_0000_001100_1111111111111111110 = some (.br ⟨true, 0⟩ 0x7FFFE) ∧
  decodeTableWord 32 0b10_1_0010_010010_00111_00110_0001_00011 = some (.ldw ⟨true, 2⟩ 7 6 1 3) ∧
  decodeTableWord 32 0b10_1_0000_011110_00000_100001_00101_001 = some (.saddi ⟨true, 0⟩ 33 5) ∧
  decodeTableWord 32 0b10_1_0000_001010_010_00001_00010_0011_00 = some (.cmp ⟨true, 0⟩ 2 1 2 3 0) ∧
  decodeTableWord 32 0b10_1_0011_101110_00100_00101_00110_0_000 = some (.vadd ⟨true, 3⟩ 4 5 6 0) ∧
  decodeTableWord 32 0b10_0_0000_100101_00001_00010_00011_0000 = some (.cpyLin ⟨false, 0⟩ 1 2 3) ∧
  decodeTableWord 32 0b10_1_0000_111100_00110100_00111_000000 = some (.mcfg ⟨true, 0⟩ 0x34 7) ∧
  decodeTableWord 16 0 = none ∧ decodeTableWord 32 0b10_1_0000_000000_00001_00010_00011_1111 = none

/-- R41 to R46, R66: the decoder and the encoder agree. -/
def Obligations.RoundTrip : Prop :=
  ∀ (i : Instr) (rest : List Byte), i.wf = true → encode i ≠ [] → decodeBytes (parcelBytes (encode i) ++ rest) = .ok (i, rest)

/-- R9, R69, R126, R355, R472: the invariant that equal memories are equal data, over the issue of bundles. -/
def Obligations.MemoryKeptByBundles : Prop :=
  ∀ (s t : State), Memory.wf s.mem = true → (∀ i, (nextTurn s).1 ≠ .event i) → step s = .next t → Memory.wf t.mem = true

/-- R9, R355, R488, R493, R531: the invariant that equal memories are equal data, over the events. -/
def Obligations.MemoryKeptByEvents : Prop :=
  ∀ (i : Instr) (s t : State), Memory.wf s.mem = true → (nextTurn s).1 = .event i → step s = .next t → Memory.wf t.mem = true

/-- The invariant of MemoryKeptByBundles and MemoryKeptByEvents holds at reset. -/
def Obligations.MemoryCanonicalAtReset : Prop := Memory.wf State.reset.mem = true ∧ ∀ k, memRead State.reset.mem k = 0

/-- R69, R126, R458, R468, R470, R472, R512, R541, R542: taking a fault, and the stop of a module without power. -/
def Obligations.TakingFaults : Prop :=
  (∀ (f : Trap) (s : State), f.code ≠ 0 →
    let g := s.issue.agent
    let j := s.slot g.slot
    let u := takeFault s f
    (g.slot < 3072 → j.state ≠ .trapped → (j.state = .killing → j.trapRec = none) → u.issue.outcome = .faulted f ∧ SameRegisters s u ∧ (u.slot g.slot).state = .trapped ∧
      (u.slot g.slot).trapDue = true ∧ SameMemory s u ∧
      ∃ r, (u.slot g.slot).trapRec = some r ∧ r.code = f.code ∧ r.status = f.sub ∧ r.faddr = f.faddr ∧ r.pc = f.pc.getD (s.stream g).pc ∧
        r.source = (match g.st with | .a => 0 | .m => 1 | .v => 2) ∧ r.launchid = j.job.launchid ∧ r.cmdidx = (s.stream g).cmdidx ∧
        r.async = false ∧ r.statusOnly = false ∧ r.tick = BitVec.ofNat 64 s.tick) ∧
    (∀ l, g.slot < 3072 → (j.state = .trapped ∨ j.state = .killing ∧ j.trapRec.isSome) → s.launch j.launch = some l → SameRegisters s u ∧ SameMemory s u ∧
      (∀ m, m ≠ g.slot → u.slot m = s.slot m) ∧ (u.slot g.slot).state = j.state ∧ (u.slot g.slot).trapRec = j.trapRec ∧ (u.slot g.slot).trapDue = j.trapDue ∧
      (u.launch j.launch).map (·.faults) = some (l.faults + 1)) ∧
    (3072 ≤ g.slot → g.slot < 4608 → SameRegisters s u ∧ (u.slot g.slot).state = .trapped ∧ (u.fw (g.slot - 3072)).faulted = some s.tick) ∧
    (4608 ≤ g.slot → SameRegisters s u ∧ SameMemory s u ∧ (u.slot g.slot).state = .trapped ∧ u.upd.result = 11)) ∧
  (∀ s : State, s.powered = false →
    (∀ c k, (nextTurn s).1 = .unit c k → step s = .fault .poweredOff) ∧ (∀ n, (nextTurn s).1 = .context n → step s = .fault .poweredOff) ∧
    (∀ i, (nextTurn s).1 = .event i → (∀ ok, i ≠ .boot ok) → step s = .next (nextTurn s).2) ∧
    (∀ ok, (nextTurn s).1 = .event (.boot ok) → step s = exec (.boot ok) (nextTurn s).2))
end

