-- ==== Sys2Proof/Laws/Sparse.lean ====
section
/-!
SUPPORT. Values by number: what a put and a removal do to every reading, and that they keep the rising order.
-/

namespace Sys2Proof.Machine

variable {α : Type}

@[simp] theorem sfind_sput_same (m : Sparse α) (n : Nat) (v : α) : sfind (sput m n v) n = some v := by
  induction m with
  | nil => simp [sput, sfind]
  | cons e t ih =>
    obtain ⟨k, w⟩ := e
    by_cases h : n = k
    · simp [sput, h, sfind]
    · by_cases l : n < k
      · simp [sput, h, l, sfind]
      · simp [sput, h, l, sfind, ih]

theorem sfind_sput_other (m : Sparse α) (n j : Nat) (v : α) (h : j ≠ n) : sfind (sput m n v) j = sfind m j := by
  induction m with
  | nil => simp [sput, sfind, h]
  | cons e t ih =>
    obtain ⟨k, w⟩ := e
    by_cases e : n = k
    · subst e; simp [sput, sfind, h]
    · by_cases l : n < k
      · simp only [sput, e, l, if_true, if_false, sfind, h]
        by_cases a : j < n
        · simp [a, Nat.lt_trans a l, Nat.ne_of_lt (Nat.lt_trans a l)]
        · simp [a]
      · simp only [sput, e, l, if_false, sfind, ih]

@[simp] theorem sget_sput_same (m : Sparse α) (d : α) (n : Nat) (v : α) : sget (sput m n v) d n = v := by simp [sget]

theorem sget_sput_other (m : Sparse α) (d : α) (n j : Nat) (v : α) (h : j ≠ n) : sget (sput m n v) d j = sget m d j := by
  simp [sget, sfind_sput_other m n j v h]

theorem risingFrom_weaken (m : Sparse α) (lo lo' : Nat) (h : lo' ≤ lo) (r : risingFrom (some lo) m = true) : risingFrom (some lo') m = true := by
  cases m with
  | nil => rfl
  | cons e t => simp [risingFrom] at r ⊢; exact ⟨by omega, r.2⟩

theorem rising_of_from (m : Sparse α) (lo : Option Nat) (r : risingFrom lo m = true) : Rising m := by
  cases m with
  | nil => rfl
  | cons e t => simp [risingFrom] at r; simp [Rising, risingFrom, r.2]

theorem sput_risingFrom (m : Sparse α) (n : Nat) (v : α) (lo : Option Nat) (h : ∀ l, lo = some l → l < n) (r : risingFrom lo m = true) :
    risingFrom lo (sput m n v) = true := by
  induction m generalizing lo with
  | nil => cases lo <;> simp_all [sput, risingFrom]
  | cons e t ih =>
    obtain ⟨k, w⟩ := e
    simp only [risingFrom, Bool.and_eq_true] at r
    by_cases e : n = k
    · subst e; cases lo <;> simp_all [sput, risingFrom]
    · by_cases l : n < k
      · cases lo <;> simp_all [sput, risingFrom]
      · have := ih (some k) (by simp; omega) r.2
        simp [sput, e, l, risingFrom, r.1, this]

theorem sput_rising (m : Sparse α) (n : Nat) (v : α) (r : Rising m) : Rising (sput m n v) := sput_risingFrom m n v none (by simp) r

theorem sfind_below (m : Sparse α) (lo n : Nat) (r : risingFrom (some lo) m = true) (h : n ≤ lo) : sfind m n = none := by
  cases m with
  | nil => rfl
  | cons e t => obtain ⟨k, w⟩ := e; simp [risingFrom] at r; simp [sfind, show n ≠ k by omega, show n < k by omega]

theorem sdel_risingFrom (m : Sparse α) (n : Nat) (lo : Option Nat) (r : risingFrom lo m = true) : risingFrom lo (sdel m n) = true := by
  induction m generalizing lo with
  | nil => exact r
  | cons e t ih =>
    obtain ⟨k, w⟩ := e
    simp only [risingFrom, Bool.and_eq_true] at r
    by_cases e : n = k
    · simp only [sdel, e, if_true]
      cases lo with
      | none => exact rising_of_from t _ r.2
      | some l => simp at r; exact risingFrom_weaken t k l (by omega) r.2
    · by_cases l : n < k
      · simp [sdel, e, l, risingFrom, r]
      · simp [sdel, e, l, risingFrom, r.1, ih (some k) r.2]

theorem sdel_rising (m : Sparse α) (n : Nat) (r : Rising m) : Rising (sdel m n) := sdel_risingFrom m n none r

theorem sfind_sdel_same (m : Sparse α) (n : Nat) (r : Rising m) : sfind (sdel m n) n = none := by
  induction m with
  | nil => rfl
  | cons e t ih =>
    obtain ⟨k, w⟩ := e
    have r2 : risingFrom (some k) t = true := by simpa [Rising, risingFrom] using r
    by_cases e : n = k
    · subst e; simpa [sdel] using sfind_below t n n r2 (Nat.le_refl n)
    · by_cases l : n < k
      · simp [sdel, e, l, sfind]
      · simp [sdel, e, l, sfind, ih (rising_of_from t _ r2)]

theorem sfind_sdel_other (m : Sparse α) (n j : Nat) (h : j ≠ n) (r : Rising m) : sfind (sdel m n) j = sfind m j := by
  induction m with
  | nil => rfl
  | cons e t ih =>
    obtain ⟨k, w⟩ := e
    have r2 : risingFrom (some k) t = true := by simpa [Rising, risingFrom] using r
    by_cases e : n = k
    · subst e
      by_cases a : j < n
      · simp [sdel, sfind, h, a, sfind_below t n j r2 (by omega)]
      · simp [sdel, sfind, h, a]
    · by_cases l : n < k
      · simp [sdel, e, l]
      · simp [sdel, e, l, sfind, ih (rising_of_from t _ r2)]

theorem filter_risingFrom (m : Sparse α) (f : Nat × α → Bool) (lo : Option Nat) (r : risingFrom lo m = true) : risingFrom lo (m.filter f) = true := by
  induction m generalizing lo with
  | nil => exact r
  | cons e t ih =>
    obtain ⟨k, w⟩ := e
    simp only [risingFrom, Bool.and_eq_true] at r
    by_cases h : f (k, w) = true
    · simp [List.filter, h, risingFrom, r.1, ih (some k) r.2]
    · simp only [List.filter, h]
      apply ih
      cases lo with
      | none => exact rising_of_from t _ r.2
      | some l => simp at r; exact risingFrom_weaken t k l (by omega) r.2

theorem map_risingFrom (m : Sparse α) (f : Nat × α → α) (lo : Option Nat) (r : risingFrom lo m = true) :
    risingFrom lo (m.map fun e => (e.1, f e)) = true := by
  induction m generalizing lo with
  | nil => exact r
  | cons e t ih => simp only [risingFrom, Bool.and_eq_true, List.map] at r ⊢; exact ⟨r.1, ih _ r.2⟩

theorem sfind_map (m : Sparse α) (f : Nat × α → α) (n : Nat) : sfind (m.map fun e => (e.1, f e)) n = (sfind m n).map fun v => f (n, v) := by
  induction m with
  | nil => rfl
  | cons e t ih =>
    obtain ⟨k, w⟩ := e
    by_cases h : n = k
    · subst h; simp [sfind]
    · by_cases l : n < k <;> simp [sfind, h, l, ih]

end Sys2Proof.Machine
end

