-- ==== Sys2Proof/Laws/Memory.lean ====
section
/-!
SUPPORT. Memory: a read after a write, what a write leaves alone, and that every operation on memory keeps its canonical form.
-/

namespace Sys2Proof.Machine

/-- The canonical form is the rising order with no byte of 0 listed. -/
theorem wfFrom_iff (m : Memory) (lo : Option Nat) :
    Memory.wfFrom lo m = true ↔ risingFrom lo m = true ∧ ∀ e, e ∈ m → e.2 ≠ 0 := by
  induction m generalizing lo with
  | nil => simp [Memory.wfFrom, risingFrom]
  | cons e t ih =>
    obtain ⟨k, b⟩ := e
    simp only [Memory.wfFrom, risingFrom, Bool.and_eq_true, ih, List.forall_mem_cons, bne_iff_ne]
    grind

theorem wf_iff (m : Memory) : Memory.wf m = true ↔ Rising m ∧ ∀ e, e ∈ m → e.2 ≠ 0 := wfFrom_iff m none

theorem mem_sput {α : Type} (m : Sparse α) (n : Nat) (v : α) (e : Nat × α) (h : e ∈ sput m n v) : e = (n, v) ∨ e ∈ m := by
  induction m with
  | nil => simpa [sput] using h
  | cons x t ih =>
    obtain ⟨k, w⟩ := x
    by_cases a : n = k
    · simp [sput, a] at h ⊢; grind
    · by_cases l : n < k
      · simp [sput, a, l] at h ⊢; grind
      · simp [sput, a, l] at h ⊢; rcases h with h | h
        · grind
        · rcases ih h with h | h <;> grind

theorem mem_sdel {α : Type} (m : Sparse α) (n : Nat) (e : Nat × α) (h : e ∈ sdel m n) : e ∈ m := by
  induction m with
  | nil => simp [sdel] at h
  | cons x t ih =>
    obtain ⟨k, w⟩ := x
    by_cases a : n = k
    · simp [sdel, a] at h ⊢; grind
    · by_cases l : n < k
      · simpa [sdel, a, l] using h
      · simp [sdel, a, l] at h ⊢; rcases h with h | h
        · grind
        · exact .inr (ih h)

theorem memWrite_wf (m : Memory) (k : Nat) (b : Byte) (h : Memory.wf m = true) : Memory.wf (memWrite m k b) = true := by
  rw [wf_iff] at h ⊢
  by_cases z : b = 0
  · simp only [memWrite, z, if_true]
    exact ⟨sdel_rising m k h.1, fun e he => h.2 e (mem_sdel m k e he)⟩
  · simp only [memWrite, z, if_false]
    refine ⟨sput_rising m k b h.1, fun e he => ?_⟩
    rcases mem_sput m k b e he with e | e
    · subst e; exact z
    · exact h.2 _ e

theorem writeBytes_wf (m : Memory) (k : Nat) (bs : List Byte) (h : Memory.wf m = true) : Memory.wf (writeBytes m k bs) = true := by
  induction bs generalizing m k with
  | nil => exact h
  | cons b bs ih => exact ih _ _ (memWrite_wf m k b h)

theorem filter_wf (m : Memory) (f : Nat × Byte → Bool) (h : Memory.wf m = true) : Memory.wf (m.filter f) = true := by
  rw [wf_iff] at h ⊢
  exact ⟨filter_risingFrom m f none h.1, fun e he => h.2 e (List.mem_filter.1 he).1⟩

theorem foldl_memWrite_wf {β : Type} (f : β → Nat × Byte) (l : List β) (m : Memory) (h : Memory.wf m = true) :
    Memory.wf (l.foldl (fun m e => memWrite m (f e).1 (f e).2) m) = true := by
  induction l generalizing m with
  | nil => exact h
  | cons e l ih => exact ih _ (memWrite_wf m _ _ h)

/-- A byte that has been written reads as it was written. -/
@[simp] theorem memRead_memWrite_same (m : Memory) (k : Nat) (b : Byte) (h : Memory.wf m = true) : memRead (memWrite m k b) k = b := by
  by_cases z : b = 0
  · simp [memRead, memWrite, z, sget, sfind_sdel_same m k ((wf_iff m).1 h).1]
  · rw [memRead, memWrite, if_neg z, sget_sput_same]

/-- A write of one byte leaves every other byte. -/
theorem memRead_memWrite_other (m : Memory) (k j : Nat) (b : Byte) (n : j ≠ k) (h : Memory.wf m = true) :
    memRead (memWrite m k b) j = memRead m j := by
  by_cases z : b = 0
  · simp [memRead, memWrite, z, sget, sfind_sdel_other m k j n ((wf_iff m).1 h).1]
  · rw [memRead, memWrite, if_neg z, sget_sput_other m 0 k j b n, memRead]

/-- A write of bytes leaves the bytes below and above. -/
theorem memRead_writeBytes_other (m : Memory) (k j : Nat) (bs : List Byte) (n : j < k ∨ k + bs.length ≤ j) (h : Memory.wf m = true) :
    memRead (writeBytes m k bs) j = memRead m j := by
  induction bs generalizing m k with
  | nil => rfl
  | cons b bs ih =>
    simp only [List.length_cons] at n
    rw [writeBytes, ih _ _ (by omega) (memWrite_wf m k b h), memRead_memWrite_other m k j b (by omega) h]

theorem readBytes_congr (m n : Memory) (k len : Nat) (h : ∀ j, k ≤ j → j < k + len → memRead m j = memRead n j) :
    readBytes m k len = readBytes n k len := by
  induction len generalizing k with
  | zero => rfl
  | succ l ih => simp only [readBytes, h k (Nat.le_refl k) (by omega), ih (k + 1) fun j a b => h j (by omega) (by omega)]

/-- Bytes that have been written read as they were written. -/
theorem readBytes_writeBytes_same (m : Memory) (k : Nat) (bs : List Byte) (h : Memory.wf m = true) :
    readBytes (writeBytes m k bs) k bs.length = bs := by
  induction bs generalizing m k with
  | nil => rfl
  | cons b bs ih =>
    simp only [List.length_cons, readBytes, writeBytes, ih _ _ (memWrite_wf m k b h)]
    rw [memRead_writeBytes_other _ _ _ _ (by omega) (memWrite_wf m k b h), memRead_memWrite_same m k b h]

@[simp] theorem readBytes_length (m : Memory) (k n : Nat) : (readBytes m k n).length = n := by
  induction n generalizing k with
  | zero => rfl
  | succ n ih => simp [readBytes, ih]

@[simp] theorem natBytes_length (n v : Nat) : (natBytes n v).length = n := by
  induction n generalizing v with
  | zero => rfl
  | succ n ih => simp [natBytes, ih]

theorem bytesNat_natBytes (n v : Nat) : bytesNat (natBytes n v) = v % 256 ^ n := by
  induction n generalizing v with
  | zero => simp [natBytes, bytesNat, Nat.mod_one]
  | succ n ih =>
    simp only [natBytes, bytesNat, ih, BitVec.toNat_ofNat]
    rw [show 256 ^ (n + 1) = 256 * 256 ^ n from Nat.pow_succ', Nat.mod_mul]

/-- Reset memory lists nothing, which is the canonical form. -/
theorem reset_wf : Memory.wf State.reset.mem = true := rfl

end Sys2Proof.Machine
end

