-- ==== Sys2Proof/Laws/State.lean ====
section
/-!
SUPPORT. What each named update of State leaves as it was, field by field, and what a reading after an update gives.
-/

namespace Sys2Proof.Machine

variable (s : State)

/-! ## State.setSlot -/

@[simp] theorem State.setSlot_tarns (n : Nat) (v : Slot) : (s.setSlot n v).tarns = s.tarns := rfl
@[simp] theorem State.setSlot_launches (n : Nat) (v : Slot) : (s.setSlot n v).launches = s.launches := rfl
@[simp] theorem State.setSlot_nextLaunch (n : Nat) (v : Slot) : (s.setSlot n v).nextLaunch = s.nextLaunch := rfl
@[simp] theorem State.setSlot_tq (n : Nat) (v : Slot) : (s.setSlot n v).tq = s.tq := rfl
@[simp] theorem State.setSlot_ckpt (n : Nat) (v : Slot) : (s.setSlot n v).ckpt = s.ckpt := rfl
@[simp] theorem State.setSlot_cxl (n : Nat) (v : Slot) : (s.setSlot n v).cxl = s.cxl := rfl
@[simp] theorem State.setSlot_chans (n : Nat) (v : Slot) : (s.setSlot n v).chans = s.chans := rfl
@[simp] theorem State.setSlot_ctls (n : Nat) (v : Slot) : (s.setSlot n v).ctls = s.ctls := rfl
@[simp] theorem State.setSlot_upd (n : Nat) (v : Slot) : (s.setSlot n v).upd = s.upd := rfl
@[simp] theorem State.setSlot_boot (n : Nat) (v : Slot) : (s.setSlot n v).boot = s.boot := rfl
@[simp] theorem State.setSlot_stalls (n : Nat) (v : Slot) : (s.setSlot n v).stalls = s.stalls := rfl
@[simp] theorem State.setSlot_queues (n : Nat) (v : Slot) : (s.setSlot n v).queues = s.queues := rfl
@[simp] theorem State.setSlot_qregs (n : Nat) (v : Slot) : (s.setSlot n v).qregs = s.qregs := rfl
@[simp] theorem State.setSlot_mapCount (n : Nat) (v : Slot) : (s.setSlot n v).mapCount = s.mapCount := rfl
@[simp] theorem State.setSlot_windows (n : Nat) (v : Slot) : (s.setSlot n v).windows = s.windows := rfl
@[simp] theorem State.setSlot_fab (n : Nat) (v : Slot) : (s.setSlot n v).fab = s.fab := rfl
@[simp] theorem State.setSlot_deviceId (n : Nat) (v : Slot) : (s.setSlot n v).deviceId = s.deviceId := rfl
@[simp] theorem State.setSlot_cmdCount (n : Nat) (v : Slot) : (s.setSlot n v).cmdCount = s.cmdCount := rfl
@[simp] theorem State.setSlot_msix (n : Nat) (v : Slot) : (s.setSlot n v).msix = s.msix := rfl
@[simp] theorem State.setSlot_bar4map (n : Nat) (v : Slot) : (s.setSlot n v).bar4map = s.bar4map := rfl
@[simp] theorem State.setSlot_bar4log2 (n : Nat) (v : Slot) : (s.setSlot n v).bar4log2 = s.bar4log2 := rfl
@[simp] theorem State.setSlot_therm (n : Nat) (v : Slot) : (s.setSlot n v).therm = s.therm := rfl
@[simp] theorem State.setSlot_tel (n : Nat) (v : Slot) : (s.setSlot n v).tel = s.tel := rfl
@[simp] theorem State.setSlot_outbox (n : Nat) (v : Slot) : (s.setSlot n v).outbox = s.outbox := rfl
@[simp] theorem State.setSlot_circuits (n : Nat) (v : Slot) : (s.setSlot n v).circuits = s.circuits := rfl
@[simp] theorem State.setSlot_snaps (n : Nat) (v : Slot) : (s.setSlot n v).snaps = s.snaps := rfl
@[simp] theorem State.setSlot_ran (n : Nat) (v : Slot) : (s.setSlot n v).ran = s.ran := rfl
@[simp] theorem State.setSlot_started (n : Nat) (v : Slot) : (s.setSlot n v).started = s.started := rfl
@[simp] theorem State.setSlot_rolled (n : Nat) (v : Slot) : (s.setSlot n v).rolled = s.rolled := rfl
@[simp] theorem State.setSlot_tick (n : Nat) (v : Slot) : (s.setSlot n v).tick = s.tick := rfl
@[simp] theorem State.setSlot_powered (n : Nat) (v : Slot) : (s.setSlot n v).powered = s.powered := rfl
@[simp] theorem State.setSlot_mem (n : Nat) (v : Slot) : (s.setSlot n v).mem = s.mem := rfl
@[simp] theorem State.setSlot_l2 (n : Nat) (v : Slot) : (s.setSlot n v).l2 = s.l2 := rfl
@[simp] theorem State.setSlot_backs (n : Nat) (v : Slot) : (s.setSlot n v).backs = s.backs := rfl
@[simp] theorem State.setSlot_lost (n : Nat) (v : Slot) : (s.setSlot n v).lost = s.lost := rfl
@[simp] theorem State.setSlot_poison (n : Nat) (v : Slot) : (s.setSlot n v).poison = s.poison := rfl
@[simp] theorem State.setSlot_badLines (n : Nat) (v : Slot) : (s.setSlot n v).badLines = s.badLines := rfl
@[simp] theorem State.setSlot_damage (n : Nat) (v : Slot) : (s.setSlot n v).damage = s.damage := rfl
@[simp] theorem State.setSlot_comp (n : Nat) (v : Slot) : (s.setSlot n v).comp = s.comp := rfl
@[simp] theorem State.setSlot_cores (n : Nat) (v : Slot) : (s.setSlot n v).cores = s.cores := rfl
@[simp] theorem State.setSlot_issue (n : Nat) (v : Slot) : (s.setSlot n v).issue = s.issue := rfl
@[simp] theorem State.setSlot_begun (n : Nat) (v : Slot) : (s.setSlot n v).begun = s.begun := rfl
@[simp] theorem State.setSlot_agenda (n : Nat) (v : Slot) : (s.setSlot n v).agenda = s.agenda := rfl
@[simp] theorem State.setSlot_focus (n : Nat) (v : Slot) : (s.setSlot n v).focus = s.focus := rfl
@[simp] theorem State.setSlot_freeCount (n : Nat) (v : Slot) : (s.setSlot n v).freeCount = s.freeCount := rfl
@[simp] theorem State.setSlot_ascTicket (n : Nat) (v : Slot) : (s.setSlot n v).ascTicket = s.ascTicket := rfl
@[simp] theorem State.setSlot_resv (n : Nat) (v : Slot) : (s.setSlot n v).resv = s.resv := rfl
@[simp] theorem State.setSlot_saves (n : Nat) (v : Slot) : (s.setSlot n v).saves = s.saves := rfl
@[simp] theorem State.setSlot_ctxbase (n : Nat) (v : Slot) : (s.setSlot n v).ctxbase = s.ctxbase := rfl
@[simp] theorem State.setSlot_tlb (n : Nat) (v : Slot) : (s.setSlot n v).tlb = s.tlb := rfl
@[simp] theorem State.setSlot_dying (n : Nat) (v : Slot) : (s.setSlot n v).dying = s.dying := rfl
@[simp] theorem State.setSlot_shares (n : Nat) (v : Slot) : (s.setSlot n v).shares = s.shares := rfl
@[simp] theorem State.setSlot_ranges (n : Nat) (v : Slot) : (s.setSlot n v).ranges = s.ranges := rfl
@[simp] theorem State.setSlot_rangeAcc (n : Nat) (v : Slot) : (s.setSlot n v).rangeAcc = s.rangeAcc := rfl
@[simp] theorem State.setSlot_l2tags (n : Nat) (v : Slot) : (s.setSlot n v).l2tags = s.l2tags := rfl
@[simp] theorem State.setSlot_hedge (n : Nat) (v : Slot) : (s.setSlot n v).hedge = s.hedge := rfl
@[simp] theorem State.setSlot_aged (n : Nat) (v : Slot) : (s.setSlot n v).aged = s.aged := rfl
@[simp] theorem State.setSlot_gov (n : Nat) (v : Slot) : (s.setSlot n v).gov = s.gov := rfl
@[simp] theorem State.setSlot_loaded (n : Nat) (v : Slot) : (s.setSlot n v).loaded = s.loaded := rfl
@[simp] theorem State.setSlot_graphs (n : Nat) (v : Slot) : (s.setSlot n v).graphs = s.graphs := rfl
@[simp] theorem State.setSlot_nextGraph (n : Nat) (v : Slot) : (s.setSlot n v).nextGraph = s.nextGraph := rfl
@[simp] theorem State.setSlot_completions (n : Nat) (v : Slot) : (s.setSlot n v).completions = s.completions := rfl

/-! ## State.setCore -/

@[simp] theorem State.setCore_tarns (n : Nat) (v : Core) : (s.setCore n v).tarns = s.tarns := rfl
@[simp] theorem State.setCore_launches (n : Nat) (v : Core) : (s.setCore n v).launches = s.launches := rfl
@[simp] theorem State.setCore_nextLaunch (n : Nat) (v : Core) : (s.setCore n v).nextLaunch = s.nextLaunch := rfl
@[simp] theorem State.setCore_tq (n : Nat) (v : Core) : (s.setCore n v).tq = s.tq := rfl
@[simp] theorem State.setCore_ckpt (n : Nat) (v : Core) : (s.setCore n v).ckpt = s.ckpt := rfl
@[simp] theorem State.setCore_cxl (n : Nat) (v : Core) : (s.setCore n v).cxl = s.cxl := rfl
@[simp] theorem State.setCore_chans (n : Nat) (v : Core) : (s.setCore n v).chans = s.chans := rfl
@[simp] theorem State.setCore_ctls (n : Nat) (v : Core) : (s.setCore n v).ctls = s.ctls := rfl
@[simp] theorem State.setCore_upd (n : Nat) (v : Core) : (s.setCore n v).upd = s.upd := rfl
@[simp] theorem State.setCore_boot (n : Nat) (v : Core) : (s.setCore n v).boot = s.boot := rfl
@[simp] theorem State.setCore_stalls (n : Nat) (v : Core) : (s.setCore n v).stalls = s.stalls := rfl
@[simp] theorem State.setCore_queues (n : Nat) (v : Core) : (s.setCore n v).queues = s.queues := rfl
@[simp] theorem State.setCore_qregs (n : Nat) (v : Core) : (s.setCore n v).qregs = s.qregs := rfl
@[simp] theorem State.setCore_mapCount (n : Nat) (v : Core) : (s.setCore n v).mapCount = s.mapCount := rfl
@[simp] theorem State.setCore_windows (n : Nat) (v : Core) : (s.setCore n v).windows = s.windows := rfl
@[simp] theorem State.setCore_fab (n : Nat) (v : Core) : (s.setCore n v).fab = s.fab := rfl
@[simp] theorem State.setCore_deviceId (n : Nat) (v : Core) : (s.setCore n v).deviceId = s.deviceId := rfl
@[simp] theorem State.setCore_cmdCount (n : Nat) (v : Core) : (s.setCore n v).cmdCount = s.cmdCount := rfl
@[simp] theorem State.setCore_msix (n : Nat) (v : Core) : (s.setCore n v).msix = s.msix := rfl
@[simp] theorem State.setCore_bar4map (n : Nat) (v : Core) : (s.setCore n v).bar4map = s.bar4map := rfl
@[simp] theorem State.setCore_bar4log2 (n : Nat) (v : Core) : (s.setCore n v).bar4log2 = s.bar4log2 := rfl
@[simp] theorem State.setCore_therm (n : Nat) (v : Core) : (s.setCore n v).therm = s.therm := rfl
@[simp] theorem State.setCore_tel (n : Nat) (v : Core) : (s.setCore n v).tel = s.tel := rfl
@[simp] theorem State.setCore_outbox (n : Nat) (v : Core) : (s.setCore n v).outbox = s.outbox := rfl
@[simp] theorem State.setCore_circuits (n : Nat) (v : Core) : (s.setCore n v).circuits = s.circuits := rfl
@[simp] theorem State.setCore_snaps (n : Nat) (v : Core) : (s.setCore n v).snaps = s.snaps := rfl
@[simp] theorem State.setCore_ran (n : Nat) (v : Core) : (s.setCore n v).ran = s.ran := rfl
@[simp] theorem State.setCore_started (n : Nat) (v : Core) : (s.setCore n v).started = s.started := rfl
@[simp] theorem State.setCore_rolled (n : Nat) (v : Core) : (s.setCore n v).rolled = s.rolled := rfl
@[simp] theorem State.setCore_tick (n : Nat) (v : Core) : (s.setCore n v).tick = s.tick := rfl
@[simp] theorem State.setCore_powered (n : Nat) (v : Core) : (s.setCore n v).powered = s.powered := rfl
@[simp] theorem State.setCore_mem (n : Nat) (v : Core) : (s.setCore n v).mem = s.mem := rfl
@[simp] theorem State.setCore_l2 (n : Nat) (v : Core) : (s.setCore n v).l2 = s.l2 := rfl
@[simp] theorem State.setCore_backs (n : Nat) (v : Core) : (s.setCore n v).backs = s.backs := rfl
@[simp] theorem State.setCore_lost (n : Nat) (v : Core) : (s.setCore n v).lost = s.lost := rfl
@[simp] theorem State.setCore_poison (n : Nat) (v : Core) : (s.setCore n v).poison = s.poison := rfl
@[simp] theorem State.setCore_badLines (n : Nat) (v : Core) : (s.setCore n v).badLines = s.badLines := rfl
@[simp] theorem State.setCore_damage (n : Nat) (v : Core) : (s.setCore n v).damage = s.damage := rfl
@[simp] theorem State.setCore_comp (n : Nat) (v : Core) : (s.setCore n v).comp = s.comp := rfl
@[simp] theorem State.setCore_slots (n : Nat) (v : Core) : (s.setCore n v).slots = s.slots := rfl
@[simp] theorem State.setCore_issue (n : Nat) (v : Core) : (s.setCore n v).issue = s.issue := rfl
@[simp] theorem State.setCore_begun (n : Nat) (v : Core) : (s.setCore n v).begun = s.begun := rfl
@[simp] theorem State.setCore_agenda (n : Nat) (v : Core) : (s.setCore n v).agenda = s.agenda := rfl
@[simp] theorem State.setCore_focus (n : Nat) (v : Core) : (s.setCore n v).focus = s.focus := rfl
@[simp] theorem State.setCore_freeCount (n : Nat) (v : Core) : (s.setCore n v).freeCount = s.freeCount := rfl
@[simp] theorem State.setCore_ascTicket (n : Nat) (v : Core) : (s.setCore n v).ascTicket = s.ascTicket := rfl
@[simp] theorem State.setCore_resv (n : Nat) (v : Core) : (s.setCore n v).resv = s.resv := rfl
@[simp] theorem State.setCore_saves (n : Nat) (v : Core) : (s.setCore n v).saves = s.saves := rfl
@[simp] theorem State.setCore_ctxbase (n : Nat) (v : Core) : (s.setCore n v).ctxbase = s.ctxbase := rfl
@[simp] theorem State.setCore_tlb (n : Nat) (v : Core) : (s.setCore n v).tlb = s.tlb := rfl
@[simp] theorem State.setCore_dying (n : Nat) (v : Core) : (s.setCore n v).dying = s.dying := rfl
@[simp] theorem State.setCore_shares (n : Nat) (v : Core) : (s.setCore n v).shares = s.shares := rfl
@[simp] theorem State.setCore_ranges (n : Nat) (v : Core) : (s.setCore n v).ranges = s.ranges := rfl
@[simp] theorem State.setCore_rangeAcc (n : Nat) (v : Core) : (s.setCore n v).rangeAcc = s.rangeAcc := rfl
@[simp] theorem State.setCore_l2tags (n : Nat) (v : Core) : (s.setCore n v).l2tags = s.l2tags := rfl
@[simp] theorem State.setCore_hedge (n : Nat) (v : Core) : (s.setCore n v).hedge = s.hedge := rfl
@[simp] theorem State.setCore_aged (n : Nat) (v : Core) : (s.setCore n v).aged = s.aged := rfl
@[simp] theorem State.setCore_gov (n : Nat) (v : Core) : (s.setCore n v).gov = s.gov := rfl
@[simp] theorem State.setCore_loaded (n : Nat) (v : Core) : (s.setCore n v).loaded = s.loaded := rfl
@[simp] theorem State.setCore_graphs (n : Nat) (v : Core) : (s.setCore n v).graphs = s.graphs := rfl
@[simp] theorem State.setCore_nextGraph (n : Nat) (v : Core) : (s.setCore n v).nextGraph = s.nextGraph := rfl
@[simp] theorem State.setCore_completions (n : Nat) (v : Core) : (s.setCore n v).completions = s.completions := rfl

/-! ## State.setStream -/

@[simp] theorem State.setStream_tarns (g : Agent) (v : Stream) : (s.setStream g v).tarns = s.tarns := rfl
@[simp] theorem State.setStream_launches (g : Agent) (v : Stream) : (s.setStream g v).launches = s.launches := rfl
@[simp] theorem State.setStream_nextLaunch (g : Agent) (v : Stream) : (s.setStream g v).nextLaunch = s.nextLaunch := rfl
@[simp] theorem State.setStream_tq (g : Agent) (v : Stream) : (s.setStream g v).tq = s.tq := rfl
@[simp] theorem State.setStream_ckpt (g : Agent) (v : Stream) : (s.setStream g v).ckpt = s.ckpt := rfl
@[simp] theorem State.setStream_cxl (g : Agent) (v : Stream) : (s.setStream g v).cxl = s.cxl := rfl
@[simp] theorem State.setStream_chans (g : Agent) (v : Stream) : (s.setStream g v).chans = s.chans := rfl
@[simp] theorem State.setStream_ctls (g : Agent) (v : Stream) : (s.setStream g v).ctls = s.ctls := rfl
@[simp] theorem State.setStream_upd (g : Agent) (v : Stream) : (s.setStream g v).upd = s.upd := rfl
@[simp] theorem State.setStream_boot (g : Agent) (v : Stream) : (s.setStream g v).boot = s.boot := rfl
@[simp] theorem State.setStream_stalls (g : Agent) (v : Stream) : (s.setStream g v).stalls = s.stalls := rfl
@[simp] theorem State.setStream_queues (g : Agent) (v : Stream) : (s.setStream g v).queues = s.queues := rfl
@[simp] theorem State.setStream_qregs (g : Agent) (v : Stream) : (s.setStream g v).qregs = s.qregs := rfl
@[simp] theorem State.setStream_mapCount (g : Agent) (v : Stream) : (s.setStream g v).mapCount = s.mapCount := rfl
@[simp] theorem State.setStream_windows (g : Agent) (v : Stream) : (s.setStream g v).windows = s.windows := rfl
@[simp] theorem State.setStream_fab (g : Agent) (v : Stream) : (s.setStream g v).fab = s.fab := rfl
@[simp] theorem State.setStream_deviceId (g : Agent) (v : Stream) : (s.setStream g v).deviceId = s.deviceId := rfl
@[simp] theorem State.setStream_cmdCount (g : Agent) (v : Stream) : (s.setStream g v).cmdCount = s.cmdCount := rfl
@[simp] theorem State.setStream_msix (g : Agent) (v : Stream) : (s.setStream g v).msix = s.msix := rfl
@[simp] theorem State.setStream_bar4map (g : Agent) (v : Stream) : (s.setStream g v).bar4map = s.bar4map := rfl
@[simp] theorem State.setStream_bar4log2 (g : Agent) (v : Stream) : (s.setStream g v).bar4log2 = s.bar4log2 := rfl
@[simp] theorem State.setStream_therm (g : Agent) (v : Stream) : (s.setStream g v).therm = s.therm := rfl
@[simp] theorem State.setStream_tel (g : Agent) (v : Stream) : (s.setStream g v).tel = s.tel := rfl
@[simp] theorem State.setStream_outbox (g : Agent) (v : Stream) : (s.setStream g v).outbox = s.outbox := rfl
@[simp] theorem State.setStream_circuits (g : Agent) (v : Stream) : (s.setStream g v).circuits = s.circuits := rfl
@[simp] theorem State.setStream_snaps (g : Agent) (v : Stream) : (s.setStream g v).snaps = s.snaps := rfl
@[simp] theorem State.setStream_ran (g : Agent) (v : Stream) : (s.setStream g v).ran = s.ran := rfl
@[simp] theorem State.setStream_started (g : Agent) (v : Stream) : (s.setStream g v).started = s.started := rfl
@[simp] theorem State.setStream_rolled (g : Agent) (v : Stream) : (s.setStream g v).rolled = s.rolled := rfl
@[simp] theorem State.setStream_tick (g : Agent) (v : Stream) : (s.setStream g v).tick = s.tick := rfl
@[simp] theorem State.setStream_powered (g : Agent) (v : Stream) : (s.setStream g v).powered = s.powered := rfl
@[simp] theorem State.setStream_mem (g : Agent) (v : Stream) : (s.setStream g v).mem = s.mem := rfl
@[simp] theorem State.setStream_l2 (g : Agent) (v : Stream) : (s.setStream g v).l2 = s.l2 := rfl
@[simp] theorem State.setStream_backs (g : Agent) (v : Stream) : (s.setStream g v).backs = s.backs := rfl
@[simp] theorem State.setStream_lost (g : Agent) (v : Stream) : (s.setStream g v).lost = s.lost := rfl
@[simp] theorem State.setStream_poison (g : Agent) (v : Stream) : (s.setStream g v).poison = s.poison := rfl
@[simp] theorem State.setStream_badLines (g : Agent) (v : Stream) : (s.setStream g v).badLines = s.badLines := rfl
@[simp] theorem State.setStream_damage (g : Agent) (v : Stream) : (s.setStream g v).damage = s.damage := rfl
@[simp] theorem State.setStream_comp (g : Agent) (v : Stream) : (s.setStream g v).comp = s.comp := rfl
@[simp] theorem State.setStream_cores (g : Agent) (v : Stream) : (s.setStream g v).cores = s.cores := rfl
@[simp] theorem State.setStream_issue (g : Agent) (v : Stream) : (s.setStream g v).issue = s.issue := rfl
@[simp] theorem State.setStream_begun (g : Agent) (v : Stream) : (s.setStream g v).begun = s.begun := rfl
@[simp] theorem State.setStream_agenda (g : Agent) (v : Stream) : (s.setStream g v).agenda = s.agenda := rfl
@[simp] theorem State.setStream_focus (g : Agent) (v : Stream) : (s.setStream g v).focus = s.focus := rfl
@[simp] theorem State.setStream_freeCount (g : Agent) (v : Stream) : (s.setStream g v).freeCount = s.freeCount := rfl
@[simp] theorem State.setStream_ascTicket (g : Agent) (v : Stream) : (s.setStream g v).ascTicket = s.ascTicket := rfl
@[simp] theorem State.setStream_resv (g : Agent) (v : Stream) : (s.setStream g v).resv = s.resv := rfl
@[simp] theorem State.setStream_saves (g : Agent) (v : Stream) : (s.setStream g v).saves = s.saves := rfl
@[simp] theorem State.setStream_ctxbase (g : Agent) (v : Stream) : (s.setStream g v).ctxbase = s.ctxbase := rfl
@[simp] theorem State.setStream_tlb (g : Agent) (v : Stream) : (s.setStream g v).tlb = s.tlb := rfl
@[simp] theorem State.setStream_dying (g : Agent) (v : Stream) : (s.setStream g v).dying = s.dying := rfl
@[simp] theorem State.setStream_shares (g : Agent) (v : Stream) : (s.setStream g v).shares = s.shares := rfl
@[simp] theorem State.setStream_ranges (g : Agent) (v : Stream) : (s.setStream g v).ranges = s.ranges := rfl
@[simp] theorem State.setStream_rangeAcc (g : Agent) (v : Stream) : (s.setStream g v).rangeAcc = s.rangeAcc := rfl
@[simp] theorem State.setStream_l2tags (g : Agent) (v : Stream) : (s.setStream g v).l2tags = s.l2tags := rfl
@[simp] theorem State.setStream_hedge (g : Agent) (v : Stream) : (s.setStream g v).hedge = s.hedge := rfl
@[simp] theorem State.setStream_aged (g : Agent) (v : Stream) : (s.setStream g v).aged = s.aged := rfl
@[simp] theorem State.setStream_gov (g : Agent) (v : Stream) : (s.setStream g v).gov = s.gov := rfl
@[simp] theorem State.setStream_loaded (g : Agent) (v : Stream) : (s.setStream g v).loaded = s.loaded := rfl
@[simp] theorem State.setStream_graphs (g : Agent) (v : Stream) : (s.setStream g v).graphs = s.graphs := rfl
@[simp] theorem State.setStream_nextGraph (g : Agent) (v : Stream) : (s.setStream g v).nextGraph = s.nextGraph := rfl
@[simp] theorem State.setStream_completions (g : Agent) (v : Stream) : (s.setStream g v).completions = s.completions := rfl

/-! ## State.setQ -/

@[simp] theorem State.setQ_tarns (n : Nat) (v : Queue) : (s.setQ n v).tarns = s.tarns := rfl
@[simp] theorem State.setQ_launches (n : Nat) (v : Queue) : (s.setQ n v).launches = s.launches := rfl
@[simp] theorem State.setQ_nextLaunch (n : Nat) (v : Queue) : (s.setQ n v).nextLaunch = s.nextLaunch := rfl
@[simp] theorem State.setQ_tq (n : Nat) (v : Queue) : (s.setQ n v).tq = s.tq := rfl
@[simp] theorem State.setQ_ckpt (n : Nat) (v : Queue) : (s.setQ n v).ckpt = s.ckpt := rfl
@[simp] theorem State.setQ_cxl (n : Nat) (v : Queue) : (s.setQ n v).cxl = s.cxl := rfl
@[simp] theorem State.setQ_chans (n : Nat) (v : Queue) : (s.setQ n v).chans = s.chans := rfl
@[simp] theorem State.setQ_ctls (n : Nat) (v : Queue) : (s.setQ n v).ctls = s.ctls := rfl
@[simp] theorem State.setQ_upd (n : Nat) (v : Queue) : (s.setQ n v).upd = s.upd := rfl
@[simp] theorem State.setQ_boot (n : Nat) (v : Queue) : (s.setQ n v).boot = s.boot := rfl
@[simp] theorem State.setQ_stalls (n : Nat) (v : Queue) : (s.setQ n v).stalls = s.stalls := rfl
@[simp] theorem State.setQ_qregs (n : Nat) (v : Queue) : (s.setQ n v).qregs = s.qregs := rfl
@[simp] theorem State.setQ_mapCount (n : Nat) (v : Queue) : (s.setQ n v).mapCount = s.mapCount := rfl
@[simp] theorem State.setQ_windows (n : Nat) (v : Queue) : (s.setQ n v).windows = s.windows := rfl
@[simp] theorem State.setQ_fab (n : Nat) (v : Queue) : (s.setQ n v).fab = s.fab := rfl
@[simp] theorem State.setQ_deviceId (n : Nat) (v : Queue) : (s.setQ n v).deviceId = s.deviceId := rfl
@[simp] theorem State.setQ_cmdCount (n : Nat) (v : Queue) : (s.setQ n v).cmdCount = s.cmdCount := rfl
@[simp] theorem State.setQ_msix (n : Nat) (v : Queue) : (s.setQ n v).msix = s.msix := rfl
@[simp] theorem State.setQ_bar4map (n : Nat) (v : Queue) : (s.setQ n v).bar4map = s.bar4map := rfl
@[simp] theorem State.setQ_bar4log2 (n : Nat) (v : Queue) : (s.setQ n v).bar4log2 = s.bar4log2 := rfl
@[simp] theorem State.setQ_therm (n : Nat) (v : Queue) : (s.setQ n v).therm = s.therm := rfl
@[simp] theorem State.setQ_tel (n : Nat) (v : Queue) : (s.setQ n v).tel = s.tel := rfl
@[simp] theorem State.setQ_outbox (n : Nat) (v : Queue) : (s.setQ n v).outbox = s.outbox := rfl
@[simp] theorem State.setQ_circuits (n : Nat) (v : Queue) : (s.setQ n v).circuits = s.circuits := rfl
@[simp] theorem State.setQ_snaps (n : Nat) (v : Queue) : (s.setQ n v).snaps = s.snaps := rfl
@[simp] theorem State.setQ_ran (n : Nat) (v : Queue) : (s.setQ n v).ran = s.ran := rfl
@[simp] theorem State.setQ_started (n : Nat) (v : Queue) : (s.setQ n v).started = s.started := rfl
@[simp] theorem State.setQ_rolled (n : Nat) (v : Queue) : (s.setQ n v).rolled = s.rolled := rfl
@[simp] theorem State.setQ_tick (n : Nat) (v : Queue) : (s.setQ n v).tick = s.tick := rfl
@[simp] theorem State.setQ_powered (n : Nat) (v : Queue) : (s.setQ n v).powered = s.powered := rfl
@[simp] theorem State.setQ_mem (n : Nat) (v : Queue) : (s.setQ n v).mem = s.mem := rfl
@[simp] theorem State.setQ_l2 (n : Nat) (v : Queue) : (s.setQ n v).l2 = s.l2 := rfl
@[simp] theorem State.setQ_backs (n : Nat) (v : Queue) : (s.setQ n v).backs = s.backs := rfl
@[simp] theorem State.setQ_lost (n : Nat) (v : Queue) : (s.setQ n v).lost = s.lost := rfl
@[simp] theorem State.setQ_poison (n : Nat) (v : Queue) : (s.setQ n v).poison = s.poison := rfl
@[simp] theorem State.setQ_badLines (n : Nat) (v : Queue) : (s.setQ n v).badLines = s.badLines := rfl
@[simp] theorem State.setQ_damage (n : Nat) (v : Queue) : (s.setQ n v).damage = s.damage := rfl
@[simp] theorem State.setQ_comp (n : Nat) (v : Queue) : (s.setQ n v).comp = s.comp := rfl
@[simp] theorem State.setQ_slots (n : Nat) (v : Queue) : (s.setQ n v).slots = s.slots := rfl
@[simp] theorem State.setQ_cores (n : Nat) (v : Queue) : (s.setQ n v).cores = s.cores := rfl
@[simp] theorem State.setQ_issue (n : Nat) (v : Queue) : (s.setQ n v).issue = s.issue := rfl
@[simp] theorem State.setQ_begun (n : Nat) (v : Queue) : (s.setQ n v).begun = s.begun := rfl
@[simp] theorem State.setQ_agenda (n : Nat) (v : Queue) : (s.setQ n v).agenda = s.agenda := rfl
@[simp] theorem State.setQ_focus (n : Nat) (v : Queue) : (s.setQ n v).focus = s.focus := rfl
@[simp] theorem State.setQ_freeCount (n : Nat) (v : Queue) : (s.setQ n v).freeCount = s.freeCount := rfl
@[simp] theorem State.setQ_ascTicket (n : Nat) (v : Queue) : (s.setQ n v).ascTicket = s.ascTicket := rfl
@[simp] theorem State.setQ_resv (n : Nat) (v : Queue) : (s.setQ n v).resv = s.resv := rfl
@[simp] theorem State.setQ_saves (n : Nat) (v : Queue) : (s.setQ n v).saves = s.saves := rfl
@[simp] theorem State.setQ_ctxbase (n : Nat) (v : Queue) : (s.setQ n v).ctxbase = s.ctxbase := rfl
@[simp] theorem State.setQ_tlb (n : Nat) (v : Queue) : (s.setQ n v).tlb = s.tlb := rfl
@[simp] theorem State.setQ_dying (n : Nat) (v : Queue) : (s.setQ n v).dying = s.dying := rfl
@[simp] theorem State.setQ_shares (n : Nat) (v : Queue) : (s.setQ n v).shares = s.shares := rfl
@[simp] theorem State.setQ_ranges (n : Nat) (v : Queue) : (s.setQ n v).ranges = s.ranges := rfl
@[simp] theorem State.setQ_rangeAcc (n : Nat) (v : Queue) : (s.setQ n v).rangeAcc = s.rangeAcc := rfl
@[simp] theorem State.setQ_l2tags (n : Nat) (v : Queue) : (s.setQ n v).l2tags = s.l2tags := rfl
@[simp] theorem State.setQ_hedge (n : Nat) (v : Queue) : (s.setQ n v).hedge = s.hedge := rfl
@[simp] theorem State.setQ_aged (n : Nat) (v : Queue) : (s.setQ n v).aged = s.aged := rfl
@[simp] theorem State.setQ_gov (n : Nat) (v : Queue) : (s.setQ n v).gov = s.gov := rfl
@[simp] theorem State.setQ_loaded (n : Nat) (v : Queue) : (s.setQ n v).loaded = s.loaded := rfl
@[simp] theorem State.setQ_graphs (n : Nat) (v : Queue) : (s.setQ n v).graphs = s.graphs := rfl
@[simp] theorem State.setQ_nextGraph (n : Nat) (v : Queue) : (s.setQ n v).nextGraph = s.nextGraph := rfl
@[simp] theorem State.setQ_completions (n : Nat) (v : Queue) : (s.setQ n v).completions = s.completions := rfl

/-! ## State.setCtl -/

@[simp] theorem State.setCtl_tarns (n : Nat) (v : Ctl) : (s.setCtl n v).tarns = s.tarns := rfl
@[simp] theorem State.setCtl_launches (n : Nat) (v : Ctl) : (s.setCtl n v).launches = s.launches := rfl
@[simp] theorem State.setCtl_nextLaunch (n : Nat) (v : Ctl) : (s.setCtl n v).nextLaunch = s.nextLaunch := rfl
@[simp] theorem State.setCtl_tq (n : Nat) (v : Ctl) : (s.setCtl n v).tq = s.tq := rfl
@[simp] theorem State.setCtl_ckpt (n : Nat) (v : Ctl) : (s.setCtl n v).ckpt = s.ckpt := rfl
@[simp] theorem State.setCtl_cxl (n : Nat) (v : Ctl) : (s.setCtl n v).cxl = s.cxl := rfl
@[simp] theorem State.setCtl_chans (n : Nat) (v : Ctl) : (s.setCtl n v).chans = s.chans := rfl
@[simp] theorem State.setCtl_upd (n : Nat) (v : Ctl) : (s.setCtl n v).upd = s.upd := rfl
@[simp] theorem State.setCtl_boot (n : Nat) (v : Ctl) : (s.setCtl n v).boot = s.boot := rfl
@[simp] theorem State.setCtl_stalls (n : Nat) (v : Ctl) : (s.setCtl n v).stalls = s.stalls := rfl
@[simp] theorem State.setCtl_queues (n : Nat) (v : Ctl) : (s.setCtl n v).queues = s.queues := rfl
@[simp] theorem State.setCtl_qregs (n : Nat) (v : Ctl) : (s.setCtl n v).qregs = s.qregs := rfl
@[simp] theorem State.setCtl_mapCount (n : Nat) (v : Ctl) : (s.setCtl n v).mapCount = s.mapCount := rfl
@[simp] theorem State.setCtl_windows (n : Nat) (v : Ctl) : (s.setCtl n v).windows = s.windows := rfl
@[simp] theorem State.setCtl_fab (n : Nat) (v : Ctl) : (s.setCtl n v).fab = s.fab := rfl
@[simp] theorem State.setCtl_deviceId (n : Nat) (v : Ctl) : (s.setCtl n v).deviceId = s.deviceId := rfl
@[simp] theorem State.setCtl_cmdCount (n : Nat) (v : Ctl) : (s.setCtl n v).cmdCount = s.cmdCount := rfl
@[simp] theorem State.setCtl_msix (n : Nat) (v : Ctl) : (s.setCtl n v).msix = s.msix := rfl
@[simp] theorem State.setCtl_bar4map (n : Nat) (v : Ctl) : (s.setCtl n v).bar4map = s.bar4map := rfl
@[simp] theorem State.setCtl_bar4log2 (n : Nat) (v : Ctl) : (s.setCtl n v).bar4log2 = s.bar4log2 := rfl
@[simp] theorem State.setCtl_therm (n : Nat) (v : Ctl) : (s.setCtl n v).therm = s.therm := rfl
@[simp] theorem State.setCtl_tel (n : Nat) (v : Ctl) : (s.setCtl n v).tel = s.tel := rfl
@[simp] theorem State.setCtl_outbox (n : Nat) (v : Ctl) : (s.setCtl n v).outbox = s.outbox := rfl
@[simp] theorem State.setCtl_circuits (n : Nat) (v : Ctl) : (s.setCtl n v).circuits = s.circuits := rfl
@[simp] theorem State.setCtl_snaps (n : Nat) (v : Ctl) : (s.setCtl n v).snaps = s.snaps := rfl
@[simp] theorem State.setCtl_ran (n : Nat) (v : Ctl) : (s.setCtl n v).ran = s.ran := rfl
@[simp] theorem State.setCtl_started (n : Nat) (v : Ctl) : (s.setCtl n v).started = s.started := rfl
@[simp] theorem State.setCtl_rolled (n : Nat) (v : Ctl) : (s.setCtl n v).rolled = s.rolled := rfl
@[simp] theorem State.setCtl_tick (n : Nat) (v : Ctl) : (s.setCtl n v).tick = s.tick := rfl
@[simp] theorem State.setCtl_powered (n : Nat) (v : Ctl) : (s.setCtl n v).powered = s.powered := rfl
@[simp] theorem State.setCtl_mem (n : Nat) (v : Ctl) : (s.setCtl n v).mem = s.mem := rfl
@[simp] theorem State.setCtl_l2 (n : Nat) (v : Ctl) : (s.setCtl n v).l2 = s.l2 := rfl
@[simp] theorem State.setCtl_backs (n : Nat) (v : Ctl) : (s.setCtl n v).backs = s.backs := rfl
@[simp] theorem State.setCtl_lost (n : Nat) (v : Ctl) : (s.setCtl n v).lost = s.lost := rfl
@[simp] theorem State.setCtl_poison (n : Nat) (v : Ctl) : (s.setCtl n v).poison = s.poison := rfl
@[simp] theorem State.setCtl_badLines (n : Nat) (v : Ctl) : (s.setCtl n v).badLines = s.badLines := rfl
@[simp] theorem State.setCtl_damage (n : Nat) (v : Ctl) : (s.setCtl n v).damage = s.damage := rfl
@[simp] theorem State.setCtl_comp (n : Nat) (v : Ctl) : (s.setCtl n v).comp = s.comp := rfl
@[simp] theorem State.setCtl_slots (n : Nat) (v : Ctl) : (s.setCtl n v).slots = s.slots := rfl
@[simp] theorem State.setCtl_cores (n : Nat) (v : Ctl) : (s.setCtl n v).cores = s.cores := rfl
@[simp] theorem State.setCtl_issue (n : Nat) (v : Ctl) : (s.setCtl n v).issue = s.issue := rfl
@[simp] theorem State.setCtl_begun (n : Nat) (v : Ctl) : (s.setCtl n v).begun = s.begun := rfl
@[simp] theorem State.setCtl_agenda (n : Nat) (v : Ctl) : (s.setCtl n v).agenda = s.agenda := rfl
@[simp] theorem State.setCtl_focus (n : Nat) (v : Ctl) : (s.setCtl n v).focus = s.focus := rfl
@[simp] theorem State.setCtl_freeCount (n : Nat) (v : Ctl) : (s.setCtl n v).freeCount = s.freeCount := rfl
@[simp] theorem State.setCtl_ascTicket (n : Nat) (v : Ctl) : (s.setCtl n v).ascTicket = s.ascTicket := rfl
@[simp] theorem State.setCtl_resv (n : Nat) (v : Ctl) : (s.setCtl n v).resv = s.resv := rfl
@[simp] theorem State.setCtl_saves (n : Nat) (v : Ctl) : (s.setCtl n v).saves = s.saves := rfl
@[simp] theorem State.setCtl_ctxbase (n : Nat) (v : Ctl) : (s.setCtl n v).ctxbase = s.ctxbase := rfl
@[simp] theorem State.setCtl_tlb (n : Nat) (v : Ctl) : (s.setCtl n v).tlb = s.tlb := rfl
@[simp] theorem State.setCtl_dying (n : Nat) (v : Ctl) : (s.setCtl n v).dying = s.dying := rfl
@[simp] theorem State.setCtl_shares (n : Nat) (v : Ctl) : (s.setCtl n v).shares = s.shares := rfl
@[simp] theorem State.setCtl_ranges (n : Nat) (v : Ctl) : (s.setCtl n v).ranges = s.ranges := rfl
@[simp] theorem State.setCtl_rangeAcc (n : Nat) (v : Ctl) : (s.setCtl n v).rangeAcc = s.rangeAcc := rfl
@[simp] theorem State.setCtl_l2tags (n : Nat) (v : Ctl) : (s.setCtl n v).l2tags = s.l2tags := rfl
@[simp] theorem State.setCtl_hedge (n : Nat) (v : Ctl) : (s.setCtl n v).hedge = s.hedge := rfl
@[simp] theorem State.setCtl_aged (n : Nat) (v : Ctl) : (s.setCtl n v).aged = s.aged := rfl
@[simp] theorem State.setCtl_gov (n : Nat) (v : Ctl) : (s.setCtl n v).gov = s.gov := rfl
@[simp] theorem State.setCtl_loaded (n : Nat) (v : Ctl) : (s.setCtl n v).loaded = s.loaded := rfl
@[simp] theorem State.setCtl_graphs (n : Nat) (v : Ctl) : (s.setCtl n v).graphs = s.graphs := rfl
@[simp] theorem State.setCtl_nextGraph (n : Nat) (v : Ctl) : (s.setCtl n v).nextGraph = s.nextGraph := rfl
@[simp] theorem State.setCtl_completions (n : Nat) (v : Ctl) : (s.setCtl n v).completions = s.completions := rfl

/-! ## State.setChan -/

@[simp] theorem State.setChan_tarns (n : Nat) (v : Chan) : (s.setChan n v).tarns = s.tarns := rfl
@[simp] theorem State.setChan_launches (n : Nat) (v : Chan) : (s.setChan n v).launches = s.launches := rfl
@[simp] theorem State.setChan_nextLaunch (n : Nat) (v : Chan) : (s.setChan n v).nextLaunch = s.nextLaunch := rfl
@[simp] theorem State.setChan_tq (n : Nat) (v : Chan) : (s.setChan n v).tq = s.tq := rfl
@[simp] theorem State.setChan_ckpt (n : Nat) (v : Chan) : (s.setChan n v).ckpt = s.ckpt := rfl
@[simp] theorem State.setChan_cxl (n : Nat) (v : Chan) : (s.setChan n v).cxl = s.cxl := rfl
@[simp] theorem State.setChan_ctls (n : Nat) (v : Chan) : (s.setChan n v).ctls = s.ctls := rfl
@[simp] theorem State.setChan_upd (n : Nat) (v : Chan) : (s.setChan n v).upd = s.upd := rfl
@[simp] theorem State.setChan_boot (n : Nat) (v : Chan) : (s.setChan n v).boot = s.boot := rfl
@[simp] theorem State.setChan_stalls (n : Nat) (v : Chan) : (s.setChan n v).stalls = s.stalls := rfl
@[simp] theorem State.setChan_queues (n : Nat) (v : Chan) : (s.setChan n v).queues = s.queues := rfl
@[simp] theorem State.setChan_qregs (n : Nat) (v : Chan) : (s.setChan n v).qregs = s.qregs := rfl
@[simp] theorem State.setChan_mapCount (n : Nat) (v : Chan) : (s.setChan n v).mapCount = s.mapCount := rfl
@[simp] theorem State.setChan_windows (n : Nat) (v : Chan) : (s.setChan n v).windows = s.windows := rfl
@[simp] theorem State.setChan_fab (n : Nat) (v : Chan) : (s.setChan n v).fab = s.fab := rfl
@[simp] theorem State.setChan_deviceId (n : Nat) (v : Chan) : (s.setChan n v).deviceId = s.deviceId := rfl
@[simp] theorem State.setChan_cmdCount (n : Nat) (v : Chan) : (s.setChan n v).cmdCount = s.cmdCount := rfl
@[simp] theorem State.setChan_msix (n : Nat) (v : Chan) : (s.setChan n v).msix = s.msix := rfl
@[simp] theorem State.setChan_bar4map (n : Nat) (v : Chan) : (s.setChan n v).bar4map = s.bar4map := rfl
@[simp] theorem State.setChan_bar4log2 (n : Nat) (v : Chan) : (s.setChan n v).bar4log2 = s.bar4log2 := rfl
@[simp] theorem State.setChan_therm (n : Nat) (v : Chan) : (s.setChan n v).therm = s.therm := rfl
@[simp] theorem State.setChan_tel (n : Nat) (v : Chan) : (s.setChan n v).tel = s.tel := rfl
@[simp] theorem State.setChan_outbox (n : Nat) (v : Chan) : (s.setChan n v).outbox = s.outbox := rfl
@[simp] theorem State.setChan_circuits (n : Nat) (v : Chan) : (s.setChan n v).circuits = s.circuits := rfl
@[simp] theorem State.setChan_snaps (n : Nat) (v : Chan) : (s.setChan n v).snaps = s.snaps := rfl
@[simp] theorem State.setChan_ran (n : Nat) (v : Chan) : (s.setChan n v).ran = s.ran := rfl
@[simp] theorem State.setChan_started (n : Nat) (v : Chan) : (s.setChan n v).started = s.started := rfl
@[simp] theorem State.setChan_rolled (n : Nat) (v : Chan) : (s.setChan n v).rolled = s.rolled := rfl
@[simp] theorem State.setChan_tick (n : Nat) (v : Chan) : (s.setChan n v).tick = s.tick := rfl
@[simp] theorem State.setChan_powered (n : Nat) (v : Chan) : (s.setChan n v).powered = s.powered := rfl
@[simp] theorem State.setChan_mem (n : Nat) (v : Chan) : (s.setChan n v).mem = s.mem := rfl
@[simp] theorem State.setChan_l2 (n : Nat) (v : Chan) : (s.setChan n v).l2 = s.l2 := rfl
@[simp] theorem State.setChan_backs (n : Nat) (v : Chan) : (s.setChan n v).backs = s.backs := rfl
@[simp] theorem State.setChan_lost (n : Nat) (v : Chan) : (s.setChan n v).lost = s.lost := rfl
@[simp] theorem State.setChan_poison (n : Nat) (v : Chan) : (s.setChan n v).poison = s.poison := rfl
@[simp] theorem State.setChan_badLines (n : Nat) (v : Chan) : (s.setChan n v).badLines = s.badLines := rfl
@[simp] theorem State.setChan_damage (n : Nat) (v : Chan) : (s.setChan n v).damage = s.damage := rfl
@[simp] theorem State.setChan_comp (n : Nat) (v : Chan) : (s.setChan n v).comp = s.comp := rfl
@[simp] theorem State.setChan_slots (n : Nat) (v : Chan) : (s.setChan n v).slots = s.slots := rfl
@[simp] theorem State.setChan_cores (n : Nat) (v : Chan) : (s.setChan n v).cores = s.cores := rfl
@[simp] theorem State.setChan_issue (n : Nat) (v : Chan) : (s.setChan n v).issue = s.issue := rfl
@[simp] theorem State.setChan_begun (n : Nat) (v : Chan) : (s.setChan n v).begun = s.begun := rfl
@[simp] theorem State.setChan_agenda (n : Nat) (v : Chan) : (s.setChan n v).agenda = s.agenda := rfl
@[simp] theorem State.setChan_focus (n : Nat) (v : Chan) : (s.setChan n v).focus = s.focus := rfl
@[simp] theorem State.setChan_freeCount (n : Nat) (v : Chan) : (s.setChan n v).freeCount = s.freeCount := rfl
@[simp] theorem State.setChan_ascTicket (n : Nat) (v : Chan) : (s.setChan n v).ascTicket = s.ascTicket := rfl
@[simp] theorem State.setChan_resv (n : Nat) (v : Chan) : (s.setChan n v).resv = s.resv := rfl
@[simp] theorem State.setChan_saves (n : Nat) (v : Chan) : (s.setChan n v).saves = s.saves := rfl
@[simp] theorem State.setChan_ctxbase (n : Nat) (v : Chan) : (s.setChan n v).ctxbase = s.ctxbase := rfl
@[simp] theorem State.setChan_tlb (n : Nat) (v : Chan) : (s.setChan n v).tlb = s.tlb := rfl
@[simp] theorem State.setChan_dying (n : Nat) (v : Chan) : (s.setChan n v).dying = s.dying := rfl
@[simp] theorem State.setChan_shares (n : Nat) (v : Chan) : (s.setChan n v).shares = s.shares := rfl
@[simp] theorem State.setChan_ranges (n : Nat) (v : Chan) : (s.setChan n v).ranges = s.ranges := rfl
@[simp] theorem State.setChan_rangeAcc (n : Nat) (v : Chan) : (s.setChan n v).rangeAcc = s.rangeAcc := rfl
@[simp] theorem State.setChan_l2tags (n : Nat) (v : Chan) : (s.setChan n v).l2tags = s.l2tags := rfl
@[simp] theorem State.setChan_hedge (n : Nat) (v : Chan) : (s.setChan n v).hedge = s.hedge := rfl
@[simp] theorem State.setChan_aged (n : Nat) (v : Chan) : (s.setChan n v).aged = s.aged := rfl
@[simp] theorem State.setChan_gov (n : Nat) (v : Chan) : (s.setChan n v).gov = s.gov := rfl
@[simp] theorem State.setChan_loaded (n : Nat) (v : Chan) : (s.setChan n v).loaded = s.loaded := rfl
@[simp] theorem State.setChan_graphs (n : Nat) (v : Chan) : (s.setChan n v).graphs = s.graphs := rfl
@[simp] theorem State.setChan_nextGraph (n : Nat) (v : Chan) : (s.setChan n v).nextGraph = s.nextGraph := rfl
@[simp] theorem State.setChan_completions (n : Nat) (v : Chan) : (s.setChan n v).completions = s.completions := rfl

/-! ## State.setPort -/

@[simp] theorem State.setPort_tarns (n : Nat) (v : FPort) : (s.setPort n v).tarns = s.tarns := rfl
@[simp] theorem State.setPort_launches (n : Nat) (v : FPort) : (s.setPort n v).launches = s.launches := rfl
@[simp] theorem State.setPort_nextLaunch (n : Nat) (v : FPort) : (s.setPort n v).nextLaunch = s.nextLaunch := rfl
@[simp] theorem State.setPort_tq (n : Nat) (v : FPort) : (s.setPort n v).tq = s.tq := rfl
@[simp] theorem State.setPort_ckpt (n : Nat) (v : FPort) : (s.setPort n v).ckpt = s.ckpt := rfl
@[simp] theorem State.setPort_cxl (n : Nat) (v : FPort) : (s.setPort n v).cxl = s.cxl := rfl
@[simp] theorem State.setPort_chans (n : Nat) (v : FPort) : (s.setPort n v).chans = s.chans := rfl
@[simp] theorem State.setPort_ctls (n : Nat) (v : FPort) : (s.setPort n v).ctls = s.ctls := rfl
@[simp] theorem State.setPort_upd (n : Nat) (v : FPort) : (s.setPort n v).upd = s.upd := rfl
@[simp] theorem State.setPort_boot (n : Nat) (v : FPort) : (s.setPort n v).boot = s.boot := rfl
@[simp] theorem State.setPort_stalls (n : Nat) (v : FPort) : (s.setPort n v).stalls = s.stalls := rfl
@[simp] theorem State.setPort_queues (n : Nat) (v : FPort) : (s.setPort n v).queues = s.queues := rfl
@[simp] theorem State.setPort_qregs (n : Nat) (v : FPort) : (s.setPort n v).qregs = s.qregs := rfl
@[simp] theorem State.setPort_mapCount (n : Nat) (v : FPort) : (s.setPort n v).mapCount = s.mapCount := rfl
@[simp] theorem State.setPort_windows (n : Nat) (v : FPort) : (s.setPort n v).windows = s.windows := rfl
@[simp] theorem State.setPort_deviceId (n : Nat) (v : FPort) : (s.setPort n v).deviceId = s.deviceId := rfl
@[simp] theorem State.setPort_cmdCount (n : Nat) (v : FPort) : (s.setPort n v).cmdCount = s.cmdCount := rfl
@[simp] theorem State.setPort_msix (n : Nat) (v : FPort) : (s.setPort n v).msix = s.msix := rfl
@[simp] theorem State.setPort_bar4map (n : Nat) (v : FPort) : (s.setPort n v).bar4map = s.bar4map := rfl
@[simp] theorem State.setPort_bar4log2 (n : Nat) (v : FPort) : (s.setPort n v).bar4log2 = s.bar4log2 := rfl
@[simp] theorem State.setPort_therm (n : Nat) (v : FPort) : (s.setPort n v).therm = s.therm := rfl
@[simp] theorem State.setPort_tel (n : Nat) (v : FPort) : (s.setPort n v).tel = s.tel := rfl
@[simp] theorem State.setPort_outbox (n : Nat) (v : FPort) : (s.setPort n v).outbox = s.outbox := rfl
@[simp] theorem State.setPort_circuits (n : Nat) (v : FPort) : (s.setPort n v).circuits = s.circuits := rfl
@[simp] theorem State.setPort_snaps (n : Nat) (v : FPort) : (s.setPort n v).snaps = s.snaps := rfl
@[simp] theorem State.setPort_ran (n : Nat) (v : FPort) : (s.setPort n v).ran = s.ran := rfl
@[simp] theorem State.setPort_started (n : Nat) (v : FPort) : (s.setPort n v).started = s.started := rfl
@[simp] theorem State.setPort_rolled (n : Nat) (v : FPort) : (s.setPort n v).rolled = s.rolled := rfl
@[simp] theorem State.setPort_tick (n : Nat) (v : FPort) : (s.setPort n v).tick = s.tick := rfl
@[simp] theorem State.setPort_powered (n : Nat) (v : FPort) : (s.setPort n v).powered = s.powered := rfl
@[simp] theorem State.setPort_mem (n : Nat) (v : FPort) : (s.setPort n v).mem = s.mem := rfl
@[simp] theorem State.setPort_l2 (n : Nat) (v : FPort) : (s.setPort n v).l2 = s.l2 := rfl
@[simp] theorem State.setPort_backs (n : Nat) (v : FPort) : (s.setPort n v).backs = s.backs := rfl
@[simp] theorem State.setPort_lost (n : Nat) (v : FPort) : (s.setPort n v).lost = s.lost := rfl
@[simp] theorem State.setPort_poison (n : Nat) (v : FPort) : (s.setPort n v).poison = s.poison := rfl
@[simp] theorem State.setPort_badLines (n : Nat) (v : FPort) : (s.setPort n v).badLines = s.badLines := rfl
@[simp] theorem State.setPort_damage (n : Nat) (v : FPort) : (s.setPort n v).damage = s.damage := rfl
@[simp] theorem State.setPort_comp (n : Nat) (v : FPort) : (s.setPort n v).comp = s.comp := rfl
@[simp] theorem State.setPort_slots (n : Nat) (v : FPort) : (s.setPort n v).slots = s.slots := rfl
@[simp] theorem State.setPort_cores (n : Nat) (v : FPort) : (s.setPort n v).cores = s.cores := rfl
@[simp] theorem State.setPort_issue (n : Nat) (v : FPort) : (s.setPort n v).issue = s.issue := rfl
@[simp] theorem State.setPort_begun (n : Nat) (v : FPort) : (s.setPort n v).begun = s.begun := rfl
@[simp] theorem State.setPort_agenda (n : Nat) (v : FPort) : (s.setPort n v).agenda = s.agenda := rfl
@[simp] theorem State.setPort_focus (n : Nat) (v : FPort) : (s.setPort n v).focus = s.focus := rfl
@[simp] theorem State.setPort_freeCount (n : Nat) (v : FPort) : (s.setPort n v).freeCount = s.freeCount := rfl
@[simp] theorem State.setPort_ascTicket (n : Nat) (v : FPort) : (s.setPort n v).ascTicket = s.ascTicket := rfl
@[simp] theorem State.setPort_resv (n : Nat) (v : FPort) : (s.setPort n v).resv = s.resv := rfl
@[simp] theorem State.setPort_saves (n : Nat) (v : FPort) : (s.setPort n v).saves = s.saves := rfl
@[simp] theorem State.setPort_ctxbase (n : Nat) (v : FPort) : (s.setPort n v).ctxbase = s.ctxbase := rfl
@[simp] theorem State.setPort_tlb (n : Nat) (v : FPort) : (s.setPort n v).tlb = s.tlb := rfl
@[simp] theorem State.setPort_dying (n : Nat) (v : FPort) : (s.setPort n v).dying = s.dying := rfl
@[simp] theorem State.setPort_shares (n : Nat) (v : FPort) : (s.setPort n v).shares = s.shares := rfl
@[simp] theorem State.setPort_ranges (n : Nat) (v : FPort) : (s.setPort n v).ranges = s.ranges := rfl
@[simp] theorem State.setPort_rangeAcc (n : Nat) (v : FPort) : (s.setPort n v).rangeAcc = s.rangeAcc := rfl
@[simp] theorem State.setPort_l2tags (n : Nat) (v : FPort) : (s.setPort n v).l2tags = s.l2tags := rfl
@[simp] theorem State.setPort_hedge (n : Nat) (v : FPort) : (s.setPort n v).hedge = s.hedge := rfl
@[simp] theorem State.setPort_aged (n : Nat) (v : FPort) : (s.setPort n v).aged = s.aged := rfl
@[simp] theorem State.setPort_gov (n : Nat) (v : FPort) : (s.setPort n v).gov = s.gov := rfl
@[simp] theorem State.setPort_loaded (n : Nat) (v : FPort) : (s.setPort n v).loaded = s.loaded := rfl
@[simp] theorem State.setPort_graphs (n : Nat) (v : FPort) : (s.setPort n v).graphs = s.graphs := rfl
@[simp] theorem State.setPort_nextGraph (n : Nat) (v : FPort) : (s.setPort n v).nextGraph = s.nextGraph := rfl
@[simp] theorem State.setPort_completions (n : Nat) (v : FPort) : (s.setPort n v).completions = s.completions := rfl

/-! ## State.setVcq -/

@[simp] theorem State.setVcq_tarns (n : Nat) (v : List InPkt) : (s.setVcq n v).tarns = s.tarns := rfl
@[simp] theorem State.setVcq_launches (n : Nat) (v : List InPkt) : (s.setVcq n v).launches = s.launches := rfl
@[simp] theorem State.setVcq_nextLaunch (n : Nat) (v : List InPkt) : (s.setVcq n v).nextLaunch = s.nextLaunch := rfl
@[simp] theorem State.setVcq_tq (n : Nat) (v : List InPkt) : (s.setVcq n v).tq = s.tq := rfl
@[simp] theorem State.setVcq_ckpt (n : Nat) (v : List InPkt) : (s.setVcq n v).ckpt = s.ckpt := rfl
@[simp] theorem State.setVcq_cxl (n : Nat) (v : List InPkt) : (s.setVcq n v).cxl = s.cxl := rfl
@[simp] theorem State.setVcq_chans (n : Nat) (v : List InPkt) : (s.setVcq n v).chans = s.chans := rfl
@[simp] theorem State.setVcq_ctls (n : Nat) (v : List InPkt) : (s.setVcq n v).ctls = s.ctls := rfl
@[simp] theorem State.setVcq_upd (n : Nat) (v : List InPkt) : (s.setVcq n v).upd = s.upd := rfl
@[simp] theorem State.setVcq_boot (n : Nat) (v : List InPkt) : (s.setVcq n v).boot = s.boot := rfl
@[simp] theorem State.setVcq_stalls (n : Nat) (v : List InPkt) : (s.setVcq n v).stalls = s.stalls := rfl
@[simp] theorem State.setVcq_queues (n : Nat) (v : List InPkt) : (s.setVcq n v).queues = s.queues := rfl
@[simp] theorem State.setVcq_qregs (n : Nat) (v : List InPkt) : (s.setVcq n v).qregs = s.qregs := rfl
@[simp] theorem State.setVcq_mapCount (n : Nat) (v : List InPkt) : (s.setVcq n v).mapCount = s.mapCount := rfl
@[simp] theorem State.setVcq_windows (n : Nat) (v : List InPkt) : (s.setVcq n v).windows = s.windows := rfl
@[simp] theorem State.setVcq_deviceId (n : Nat) (v : List InPkt) : (s.setVcq n v).deviceId = s.deviceId := rfl
@[simp] theorem State.setVcq_cmdCount (n : Nat) (v : List InPkt) : (s.setVcq n v).cmdCount = s.cmdCount := rfl
@[simp] theorem State.setVcq_msix (n : Nat) (v : List InPkt) : (s.setVcq n v).msix = s.msix := rfl
@[simp] theorem State.setVcq_bar4map (n : Nat) (v : List InPkt) : (s.setVcq n v).bar4map = s.bar4map := rfl
@[simp] theorem State.setVcq_bar4log2 (n : Nat) (v : List InPkt) : (s.setVcq n v).bar4log2 = s.bar4log2 := rfl
@[simp] theorem State.setVcq_therm (n : Nat) (v : List InPkt) : (s.setVcq n v).therm = s.therm := rfl
@[simp] theorem State.setVcq_tel (n : Nat) (v : List InPkt) : (s.setVcq n v).tel = s.tel := rfl
@[simp] theorem State.setVcq_outbox (n : Nat) (v : List InPkt) : (s.setVcq n v).outbox = s.outbox := rfl
@[simp] theorem State.setVcq_circuits (n : Nat) (v : List InPkt) : (s.setVcq n v).circuits = s.circuits := rfl
@[simp] theorem State.setVcq_snaps (n : Nat) (v : List InPkt) : (s.setVcq n v).snaps = s.snaps := rfl
@[simp] theorem State.setVcq_ran (n : Nat) (v : List InPkt) : (s.setVcq n v).ran = s.ran := rfl
@[simp] theorem State.setVcq_started (n : Nat) (v : List InPkt) : (s.setVcq n v).started = s.started := rfl
@[simp] theorem State.setVcq_rolled (n : Nat) (v : List InPkt) : (s.setVcq n v).rolled = s.rolled := rfl
@[simp] theorem State.setVcq_tick (n : Nat) (v : List InPkt) : (s.setVcq n v).tick = s.tick := rfl
@[simp] theorem State.setVcq_powered (n : Nat) (v : List InPkt) : (s.setVcq n v).powered = s.powered := rfl
@[simp] theorem State.setVcq_mem (n : Nat) (v : List InPkt) : (s.setVcq n v).mem = s.mem := rfl
@[simp] theorem State.setVcq_l2 (n : Nat) (v : List InPkt) : (s.setVcq n v).l2 = s.l2 := rfl
@[simp] theorem State.setVcq_backs (n : Nat) (v : List InPkt) : (s.setVcq n v).backs = s.backs := rfl
@[simp] theorem State.setVcq_lost (n : Nat) (v : List InPkt) : (s.setVcq n v).lost = s.lost := rfl
@[simp] theorem State.setVcq_poison (n : Nat) (v : List InPkt) : (s.setVcq n v).poison = s.poison := rfl
@[simp] theorem State.setVcq_badLines (n : Nat) (v : List InPkt) : (s.setVcq n v).badLines = s.badLines := rfl
@[simp] theorem State.setVcq_damage (n : Nat) (v : List InPkt) : (s.setVcq n v).damage = s.damage := rfl
@[simp] theorem State.setVcq_comp (n : Nat) (v : List InPkt) : (s.setVcq n v).comp = s.comp := rfl
@[simp] theorem State.setVcq_slots (n : Nat) (v : List InPkt) : (s.setVcq n v).slots = s.slots := rfl
@[simp] theorem State.setVcq_cores (n : Nat) (v : List InPkt) : (s.setVcq n v).cores = s.cores := rfl
@[simp] theorem State.setVcq_issue (n : Nat) (v : List InPkt) : (s.setVcq n v).issue = s.issue := rfl
@[simp] theorem State.setVcq_begun (n : Nat) (v : List InPkt) : (s.setVcq n v).begun = s.begun := rfl
@[simp] theorem State.setVcq_agenda (n : Nat) (v : List InPkt) : (s.setVcq n v).agenda = s.agenda := rfl
@[simp] theorem State.setVcq_focus (n : Nat) (v : List InPkt) : (s.setVcq n v).focus = s.focus := rfl
@[simp] theorem State.setVcq_freeCount (n : Nat) (v : List InPkt) : (s.setVcq n v).freeCount = s.freeCount := rfl
@[simp] theorem State.setVcq_ascTicket (n : Nat) (v : List InPkt) : (s.setVcq n v).ascTicket = s.ascTicket := rfl
@[simp] theorem State.setVcq_resv (n : Nat) (v : List InPkt) : (s.setVcq n v).resv = s.resv := rfl
@[simp] theorem State.setVcq_saves (n : Nat) (v : List InPkt) : (s.setVcq n v).saves = s.saves := rfl
@[simp] theorem State.setVcq_ctxbase (n : Nat) (v : List InPkt) : (s.setVcq n v).ctxbase = s.ctxbase := rfl
@[simp] theorem State.setVcq_tlb (n : Nat) (v : List InPkt) : (s.setVcq n v).tlb = s.tlb := rfl
@[simp] theorem State.setVcq_dying (n : Nat) (v : List InPkt) : (s.setVcq n v).dying = s.dying := rfl
@[simp] theorem State.setVcq_shares (n : Nat) (v : List InPkt) : (s.setVcq n v).shares = s.shares := rfl
@[simp] theorem State.setVcq_ranges (n : Nat) (v : List InPkt) : (s.setVcq n v).ranges = s.ranges := rfl
@[simp] theorem State.setVcq_rangeAcc (n : Nat) (v : List InPkt) : (s.setVcq n v).rangeAcc = s.rangeAcc := rfl
@[simp] theorem State.setVcq_l2tags (n : Nat) (v : List InPkt) : (s.setVcq n v).l2tags = s.l2tags := rfl
@[simp] theorem State.setVcq_hedge (n : Nat) (v : List InPkt) : (s.setVcq n v).hedge = s.hedge := rfl
@[simp] theorem State.setVcq_aged (n : Nat) (v : List InPkt) : (s.setVcq n v).aged = s.aged := rfl
@[simp] theorem State.setVcq_gov (n : Nat) (v : List InPkt) : (s.setVcq n v).gov = s.gov := rfl
@[simp] theorem State.setVcq_loaded (n : Nat) (v : List InPkt) : (s.setVcq n v).loaded = s.loaded := rfl
@[simp] theorem State.setVcq_graphs (n : Nat) (v : List InPkt) : (s.setVcq n v).graphs = s.graphs := rfl
@[simp] theorem State.setVcq_nextGraph (n : Nat) (v : List InPkt) : (s.setVcq n v).nextGraph = s.nextGraph := rfl
@[simp] theorem State.setVcq_completions (n : Nat) (v : List InPkt) : (s.setVcq n v).completions = s.completions := rfl

/-! ## State.setGroup -/

@[simp] theorem State.setGroup_tarns (n : Nat) (v : Group) : (s.setGroup n v).tarns = s.tarns := rfl
@[simp] theorem State.setGroup_launches (n : Nat) (v : Group) : (s.setGroup n v).launches = s.launches := rfl
@[simp] theorem State.setGroup_nextLaunch (n : Nat) (v : Group) : (s.setGroup n v).nextLaunch = s.nextLaunch := rfl
@[simp] theorem State.setGroup_tq (n : Nat) (v : Group) : (s.setGroup n v).tq = s.tq := rfl
@[simp] theorem State.setGroup_ckpt (n : Nat) (v : Group) : (s.setGroup n v).ckpt = s.ckpt := rfl
@[simp] theorem State.setGroup_cxl (n : Nat) (v : Group) : (s.setGroup n v).cxl = s.cxl := rfl
@[simp] theorem State.setGroup_chans (n : Nat) (v : Group) : (s.setGroup n v).chans = s.chans := rfl
@[simp] theorem State.setGroup_ctls (n : Nat) (v : Group) : (s.setGroup n v).ctls = s.ctls := rfl
@[simp] theorem State.setGroup_upd (n : Nat) (v : Group) : (s.setGroup n v).upd = s.upd := rfl
@[simp] theorem State.setGroup_boot (n : Nat) (v : Group) : (s.setGroup n v).boot = s.boot := rfl
@[simp] theorem State.setGroup_stalls (n : Nat) (v : Group) : (s.setGroup n v).stalls = s.stalls := rfl
@[simp] theorem State.setGroup_queues (n : Nat) (v : Group) : (s.setGroup n v).queues = s.queues := rfl
@[simp] theorem State.setGroup_qregs (n : Nat) (v : Group) : (s.setGroup n v).qregs = s.qregs := rfl
@[simp] theorem State.setGroup_mapCount (n : Nat) (v : Group) : (s.setGroup n v).mapCount = s.mapCount := rfl
@[simp] theorem State.setGroup_windows (n : Nat) (v : Group) : (s.setGroup n v).windows = s.windows := rfl
@[simp] theorem State.setGroup_deviceId (n : Nat) (v : Group) : (s.setGroup n v).deviceId = s.deviceId := rfl
@[simp] theorem State.setGroup_cmdCount (n : Nat) (v : Group) : (s.setGroup n v).cmdCount = s.cmdCount := rfl
@[simp] theorem State.setGroup_msix (n : Nat) (v : Group) : (s.setGroup n v).msix = s.msix := rfl
@[simp] theorem State.setGroup_bar4map (n : Nat) (v : Group) : (s.setGroup n v).bar4map = s.bar4map := rfl
@[simp] theorem State.setGroup_bar4log2 (n : Nat) (v : Group) : (s.setGroup n v).bar4log2 = s.bar4log2 := rfl
@[simp] theorem State.setGroup_therm (n : Nat) (v : Group) : (s.setGroup n v).therm = s.therm := rfl
@[simp] theorem State.setGroup_tel (n : Nat) (v : Group) : (s.setGroup n v).tel = s.tel := rfl
@[simp] theorem State.setGroup_outbox (n : Nat) (v : Group) : (s.setGroup n v).outbox = s.outbox := rfl
@[simp] theorem State.setGroup_circuits (n : Nat) (v : Group) : (s.setGroup n v).circuits = s.circuits := rfl
@[simp] theorem State.setGroup_snaps (n : Nat) (v : Group) : (s.setGroup n v).snaps = s.snaps := rfl
@[simp] theorem State.setGroup_ran (n : Nat) (v : Group) : (s.setGroup n v).ran = s.ran := rfl
@[simp] theorem State.setGroup_started (n : Nat) (v : Group) : (s.setGroup n v).started = s.started := rfl
@[simp] theorem State.setGroup_rolled (n : Nat) (v : Group) : (s.setGroup n v).rolled = s.rolled := rfl
@[simp] theorem State.setGroup_tick (n : Nat) (v : Group) : (s.setGroup n v).tick = s.tick := rfl
@[simp] theorem State.setGroup_powered (n : Nat) (v : Group) : (s.setGroup n v).powered = s.powered := rfl
@[simp] theorem State.setGroup_mem (n : Nat) (v : Group) : (s.setGroup n v).mem = s.mem := rfl
@[simp] theorem State.setGroup_l2 (n : Nat) (v : Group) : (s.setGroup n v).l2 = s.l2 := rfl
@[simp] theorem State.setGroup_backs (n : Nat) (v : Group) : (s.setGroup n v).backs = s.backs := rfl
@[simp] theorem State.setGroup_lost (n : Nat) (v : Group) : (s.setGroup n v).lost = s.lost := rfl
@[simp] theorem State.setGroup_poison (n : Nat) (v : Group) : (s.setGroup n v).poison = s.poison := rfl
@[simp] theorem State.setGroup_badLines (n : Nat) (v : Group) : (s.setGroup n v).badLines = s.badLines := rfl
@[simp] theorem State.setGroup_damage (n : Nat) (v : Group) : (s.setGroup n v).damage = s.damage := rfl
@[simp] theorem State.setGroup_comp (n : Nat) (v : Group) : (s.setGroup n v).comp = s.comp := rfl
@[simp] theorem State.setGroup_slots (n : Nat) (v : Group) : (s.setGroup n v).slots = s.slots := rfl
@[simp] theorem State.setGroup_cores (n : Nat) (v : Group) : (s.setGroup n v).cores = s.cores := rfl
@[simp] theorem State.setGroup_issue (n : Nat) (v : Group) : (s.setGroup n v).issue = s.issue := rfl
@[simp] theorem State.setGroup_begun (n : Nat) (v : Group) : (s.setGroup n v).begun = s.begun := rfl
@[simp] theorem State.setGroup_agenda (n : Nat) (v : Group) : (s.setGroup n v).agenda = s.agenda := rfl
@[simp] theorem State.setGroup_focus (n : Nat) (v : Group) : (s.setGroup n v).focus = s.focus := rfl
@[simp] theorem State.setGroup_freeCount (n : Nat) (v : Group) : (s.setGroup n v).freeCount = s.freeCount := rfl
@[simp] theorem State.setGroup_ascTicket (n : Nat) (v : Group) : (s.setGroup n v).ascTicket = s.ascTicket := rfl
@[simp] theorem State.setGroup_resv (n : Nat) (v : Group) : (s.setGroup n v).resv = s.resv := rfl
@[simp] theorem State.setGroup_saves (n : Nat) (v : Group) : (s.setGroup n v).saves = s.saves := rfl
@[simp] theorem State.setGroup_ctxbase (n : Nat) (v : Group) : (s.setGroup n v).ctxbase = s.ctxbase := rfl
@[simp] theorem State.setGroup_tlb (n : Nat) (v : Group) : (s.setGroup n v).tlb = s.tlb := rfl
@[simp] theorem State.setGroup_dying (n : Nat) (v : Group) : (s.setGroup n v).dying = s.dying := rfl
@[simp] theorem State.setGroup_shares (n : Nat) (v : Group) : (s.setGroup n v).shares = s.shares := rfl
@[simp] theorem State.setGroup_ranges (n : Nat) (v : Group) : (s.setGroup n v).ranges = s.ranges := rfl
@[simp] theorem State.setGroup_rangeAcc (n : Nat) (v : Group) : (s.setGroup n v).rangeAcc = s.rangeAcc := rfl
@[simp] theorem State.setGroup_l2tags (n : Nat) (v : Group) : (s.setGroup n v).l2tags = s.l2tags := rfl
@[simp] theorem State.setGroup_hedge (n : Nat) (v : Group) : (s.setGroup n v).hedge = s.hedge := rfl
@[simp] theorem State.setGroup_aged (n : Nat) (v : Group) : (s.setGroup n v).aged = s.aged := rfl
@[simp] theorem State.setGroup_gov (n : Nat) (v : Group) : (s.setGroup n v).gov = s.gov := rfl
@[simp] theorem State.setGroup_loaded (n : Nat) (v : Group) : (s.setGroup n v).loaded = s.loaded := rfl
@[simp] theorem State.setGroup_graphs (n : Nat) (v : Group) : (s.setGroup n v).graphs = s.graphs := rfl
@[simp] theorem State.setGroup_nextGraph (n : Nat) (v : Group) : (s.setGroup n v).nextGraph = s.nextGraph := rfl
@[simp] theorem State.setGroup_completions (n : Nat) (v : Group) : (s.setGroup n v).completions = s.completions := rfl

/-! ## State.modCkpt -/

@[simp] theorem State.modCkpt_tarns (f : Ckpt → Ckpt) : (s.modCkpt f).tarns = s.tarns := rfl
@[simp] theorem State.modCkpt_launches (f : Ckpt → Ckpt) : (s.modCkpt f).launches = s.launches := rfl
@[simp] theorem State.modCkpt_nextLaunch (f : Ckpt → Ckpt) : (s.modCkpt f).nextLaunch = s.nextLaunch := rfl
@[simp] theorem State.modCkpt_tq (f : Ckpt → Ckpt) : (s.modCkpt f).tq = s.tq := rfl
@[simp] theorem State.modCkpt_cxl (f : Ckpt → Ckpt) : (s.modCkpt f).cxl = s.cxl := rfl
@[simp] theorem State.modCkpt_chans (f : Ckpt → Ckpt) : (s.modCkpt f).chans = s.chans := rfl
@[simp] theorem State.modCkpt_ctls (f : Ckpt → Ckpt) : (s.modCkpt f).ctls = s.ctls := rfl
@[simp] theorem State.modCkpt_upd (f : Ckpt → Ckpt) : (s.modCkpt f).upd = s.upd := rfl
@[simp] theorem State.modCkpt_boot (f : Ckpt → Ckpt) : (s.modCkpt f).boot = s.boot := rfl
@[simp] theorem State.modCkpt_stalls (f : Ckpt → Ckpt) : (s.modCkpt f).stalls = s.stalls := rfl
@[simp] theorem State.modCkpt_queues (f : Ckpt → Ckpt) : (s.modCkpt f).queues = s.queues := rfl
@[simp] theorem State.modCkpt_qregs (f : Ckpt → Ckpt) : (s.modCkpt f).qregs = s.qregs := rfl
@[simp] theorem State.modCkpt_mapCount (f : Ckpt → Ckpt) : (s.modCkpt f).mapCount = s.mapCount := rfl
@[simp] theorem State.modCkpt_windows (f : Ckpt → Ckpt) : (s.modCkpt f).windows = s.windows := rfl
@[simp] theorem State.modCkpt_fab (f : Ckpt → Ckpt) : (s.modCkpt f).fab = s.fab := rfl
@[simp] theorem State.modCkpt_deviceId (f : Ckpt → Ckpt) : (s.modCkpt f).deviceId = s.deviceId := rfl
@[simp] theorem State.modCkpt_cmdCount (f : Ckpt → Ckpt) : (s.modCkpt f).cmdCount = s.cmdCount := rfl
@[simp] theorem State.modCkpt_msix (f : Ckpt → Ckpt) : (s.modCkpt f).msix = s.msix := rfl
@[simp] theorem State.modCkpt_bar4map (f : Ckpt → Ckpt) : (s.modCkpt f).bar4map = s.bar4map := rfl
@[simp] theorem State.modCkpt_bar4log2 (f : Ckpt → Ckpt) : (s.modCkpt f).bar4log2 = s.bar4log2 := rfl
@[simp] theorem State.modCkpt_therm (f : Ckpt → Ckpt) : (s.modCkpt f).therm = s.therm := rfl
@[simp] theorem State.modCkpt_tel (f : Ckpt → Ckpt) : (s.modCkpt f).tel = s.tel := rfl
@[simp] theorem State.modCkpt_outbox (f : Ckpt → Ckpt) : (s.modCkpt f).outbox = s.outbox := rfl
@[simp] theorem State.modCkpt_circuits (f : Ckpt → Ckpt) : (s.modCkpt f).circuits = s.circuits := rfl
@[simp] theorem State.modCkpt_snaps (f : Ckpt → Ckpt) : (s.modCkpt f).snaps = s.snaps := rfl
@[simp] theorem State.modCkpt_ran (f : Ckpt → Ckpt) : (s.modCkpt f).ran = s.ran := rfl
@[simp] theorem State.modCkpt_started (f : Ckpt → Ckpt) : (s.modCkpt f).started = s.started := rfl
@[simp] theorem State.modCkpt_rolled (f : Ckpt → Ckpt) : (s.modCkpt f).rolled = s.rolled := rfl
@[simp] theorem State.modCkpt_tick (f : Ckpt → Ckpt) : (s.modCkpt f).tick = s.tick := rfl
@[simp] theorem State.modCkpt_powered (f : Ckpt → Ckpt) : (s.modCkpt f).powered = s.powered := rfl
@[simp] theorem State.modCkpt_mem (f : Ckpt → Ckpt) : (s.modCkpt f).mem = s.mem := rfl
@[simp] theorem State.modCkpt_l2 (f : Ckpt → Ckpt) : (s.modCkpt f).l2 = s.l2 := rfl
@[simp] theorem State.modCkpt_backs (f : Ckpt → Ckpt) : (s.modCkpt f).backs = s.backs := rfl
@[simp] theorem State.modCkpt_lost (f : Ckpt → Ckpt) : (s.modCkpt f).lost = s.lost := rfl
@[simp] theorem State.modCkpt_poison (f : Ckpt → Ckpt) : (s.modCkpt f).poison = s.poison := rfl
@[simp] theorem State.modCkpt_badLines (f : Ckpt → Ckpt) : (s.modCkpt f).badLines = s.badLines := rfl
@[simp] theorem State.modCkpt_damage (f : Ckpt → Ckpt) : (s.modCkpt f).damage = s.damage := rfl
@[simp] theorem State.modCkpt_comp (f : Ckpt → Ckpt) : (s.modCkpt f).comp = s.comp := rfl
@[simp] theorem State.modCkpt_slots (f : Ckpt → Ckpt) : (s.modCkpt f).slots = s.slots := rfl
@[simp] theorem State.modCkpt_cores (f : Ckpt → Ckpt) : (s.modCkpt f).cores = s.cores := rfl
@[simp] theorem State.modCkpt_issue (f : Ckpt → Ckpt) : (s.modCkpt f).issue = s.issue := rfl
@[simp] theorem State.modCkpt_begun (f : Ckpt → Ckpt) : (s.modCkpt f).begun = s.begun := rfl
@[simp] theorem State.modCkpt_agenda (f : Ckpt → Ckpt) : (s.modCkpt f).agenda = s.agenda := rfl
@[simp] theorem State.modCkpt_focus (f : Ckpt → Ckpt) : (s.modCkpt f).focus = s.focus := rfl
@[simp] theorem State.modCkpt_freeCount (f : Ckpt → Ckpt) : (s.modCkpt f).freeCount = s.freeCount := rfl
@[simp] theorem State.modCkpt_ascTicket (f : Ckpt → Ckpt) : (s.modCkpt f).ascTicket = s.ascTicket := rfl
@[simp] theorem State.modCkpt_resv (f : Ckpt → Ckpt) : (s.modCkpt f).resv = s.resv := rfl
@[simp] theorem State.modCkpt_saves (f : Ckpt → Ckpt) : (s.modCkpt f).saves = s.saves := rfl
@[simp] theorem State.modCkpt_ctxbase (f : Ckpt → Ckpt) : (s.modCkpt f).ctxbase = s.ctxbase := rfl
@[simp] theorem State.modCkpt_tlb (f : Ckpt → Ckpt) : (s.modCkpt f).tlb = s.tlb := rfl
@[simp] theorem State.modCkpt_dying (f : Ckpt → Ckpt) : (s.modCkpt f).dying = s.dying := rfl
@[simp] theorem State.modCkpt_shares (f : Ckpt → Ckpt) : (s.modCkpt f).shares = s.shares := rfl
@[simp] theorem State.modCkpt_ranges (f : Ckpt → Ckpt) : (s.modCkpt f).ranges = s.ranges := rfl
@[simp] theorem State.modCkpt_rangeAcc (f : Ckpt → Ckpt) : (s.modCkpt f).rangeAcc = s.rangeAcc := rfl
@[simp] theorem State.modCkpt_l2tags (f : Ckpt → Ckpt) : (s.modCkpt f).l2tags = s.l2tags := rfl
@[simp] theorem State.modCkpt_hedge (f : Ckpt → Ckpt) : (s.modCkpt f).hedge = s.hedge := rfl
@[simp] theorem State.modCkpt_aged (f : Ckpt → Ckpt) : (s.modCkpt f).aged = s.aged := rfl
@[simp] theorem State.modCkpt_gov (f : Ckpt → Ckpt) : (s.modCkpt f).gov = s.gov := rfl
@[simp] theorem State.modCkpt_loaded (f : Ckpt → Ckpt) : (s.modCkpt f).loaded = s.loaded := rfl
@[simp] theorem State.modCkpt_graphs (f : Ckpt → Ckpt) : (s.modCkpt f).graphs = s.graphs := rfl
@[simp] theorem State.modCkpt_nextGraph (f : Ckpt → Ckpt) : (s.modCkpt f).nextGraph = s.nextGraph := rfl
@[simp] theorem State.modCkpt_completions (f : Ckpt → Ckpt) : (s.modCkpt f).completions = s.completions := rfl

/-! ## State.modUpd -/

@[simp] theorem State.modUpd_tarns (f : Upd → Upd) : (s.modUpd f).tarns = s.tarns := rfl
@[simp] theorem State.modUpd_launches (f : Upd → Upd) : (s.modUpd f).launches = s.launches := rfl
@[simp] theorem State.modUpd_nextLaunch (f : Upd → Upd) : (s.modUpd f).nextLaunch = s.nextLaunch := rfl
@[simp] theorem State.modUpd_tq (f : Upd → Upd) : (s.modUpd f).tq = s.tq := rfl
@[simp] theorem State.modUpd_ckpt (f : Upd → Upd) : (s.modUpd f).ckpt = s.ckpt := rfl
@[simp] theorem State.modUpd_cxl (f : Upd → Upd) : (s.modUpd f).cxl = s.cxl := rfl
@[simp] theorem State.modUpd_chans (f : Upd → Upd) : (s.modUpd f).chans = s.chans := rfl
@[simp] theorem State.modUpd_ctls (f : Upd → Upd) : (s.modUpd f).ctls = s.ctls := rfl
@[simp] theorem State.modUpd_boot (f : Upd → Upd) : (s.modUpd f).boot = s.boot := rfl
@[simp] theorem State.modUpd_stalls (f : Upd → Upd) : (s.modUpd f).stalls = s.stalls := rfl
@[simp] theorem State.modUpd_queues (f : Upd → Upd) : (s.modUpd f).queues = s.queues := rfl
@[simp] theorem State.modUpd_qregs (f : Upd → Upd) : (s.modUpd f).qregs = s.qregs := rfl
@[simp] theorem State.modUpd_mapCount (f : Upd → Upd) : (s.modUpd f).mapCount = s.mapCount := rfl
@[simp] theorem State.modUpd_windows (f : Upd → Upd) : (s.modUpd f).windows = s.windows := rfl
@[simp] theorem State.modUpd_fab (f : Upd → Upd) : (s.modUpd f).fab = s.fab := rfl
@[simp] theorem State.modUpd_deviceId (f : Upd → Upd) : (s.modUpd f).deviceId = s.deviceId := rfl
@[simp] theorem State.modUpd_cmdCount (f : Upd → Upd) : (s.modUpd f).cmdCount = s.cmdCount := rfl
@[simp] theorem State.modUpd_msix (f : Upd → Upd) : (s.modUpd f).msix = s.msix := rfl
@[simp] theorem State.modUpd_bar4map (f : Upd → Upd) : (s.modUpd f).bar4map = s.bar4map := rfl
@[simp] theorem State.modUpd_bar4log2 (f : Upd → Upd) : (s.modUpd f).bar4log2 = s.bar4log2 := rfl
@[simp] theorem State.modUpd_therm (f : Upd → Upd) : (s.modUpd f).therm = s.therm := rfl
@[simp] theorem State.modUpd_tel (f : Upd → Upd) : (s.modUpd f).tel = s.tel := rfl
@[simp] theorem State.modUpd_outbox (f : Upd → Upd) : (s.modUpd f).outbox = s.outbox := rfl
@[simp] theorem State.modUpd_circuits (f : Upd → Upd) : (s.modUpd f).circuits = s.circuits := rfl
@[simp] theorem State.modUpd_snaps (f : Upd → Upd) : (s.modUpd f).snaps = s.snaps := rfl
@[simp] theorem State.modUpd_ran (f : Upd → Upd) : (s.modUpd f).ran = s.ran := rfl
@[simp] theorem State.modUpd_started (f : Upd → Upd) : (s.modUpd f).started = s.started := rfl
@[simp] theorem State.modUpd_rolled (f : Upd → Upd) : (s.modUpd f).rolled = s.rolled := rfl
@[simp] theorem State.modUpd_tick (f : Upd → Upd) : (s.modUpd f).tick = s.tick := rfl
@[simp] theorem State.modUpd_powered (f : Upd → Upd) : (s.modUpd f).powered = s.powered := rfl
@[simp] theorem State.modUpd_mem (f : Upd → Upd) : (s.modUpd f).mem = s.mem := rfl
@[simp] theorem State.modUpd_l2 (f : Upd → Upd) : (s.modUpd f).l2 = s.l2 := rfl
@[simp] theorem State.modUpd_backs (f : Upd → Upd) : (s.modUpd f).backs = s.backs := rfl
@[simp] theorem State.modUpd_lost (f : Upd → Upd) : (s.modUpd f).lost = s.lost := rfl
@[simp] theorem State.modUpd_poison (f : Upd → Upd) : (s.modUpd f).poison = s.poison := rfl
@[simp] theorem State.modUpd_badLines (f : Upd → Upd) : (s.modUpd f).badLines = s.badLines := rfl
@[simp] theorem State.modUpd_damage (f : Upd → Upd) : (s.modUpd f).damage = s.damage := rfl
@[simp] theorem State.modUpd_comp (f : Upd → Upd) : (s.modUpd f).comp = s.comp := rfl
@[simp] theorem State.modUpd_slots (f : Upd → Upd) : (s.modUpd f).slots = s.slots := rfl
@[simp] theorem State.modUpd_cores (f : Upd → Upd) : (s.modUpd f).cores = s.cores := rfl
@[simp] theorem State.modUpd_issue (f : Upd → Upd) : (s.modUpd f).issue = s.issue := rfl
@[simp] theorem State.modUpd_begun (f : Upd → Upd) : (s.modUpd f).begun = s.begun := rfl
@[simp] theorem State.modUpd_agenda (f : Upd → Upd) : (s.modUpd f).agenda = s.agenda := rfl
@[simp] theorem State.modUpd_focus (f : Upd → Upd) : (s.modUpd f).focus = s.focus := rfl
@[simp] theorem State.modUpd_freeCount (f : Upd → Upd) : (s.modUpd f).freeCount = s.freeCount := rfl
@[simp] theorem State.modUpd_ascTicket (f : Upd → Upd) : (s.modUpd f).ascTicket = s.ascTicket := rfl
@[simp] theorem State.modUpd_resv (f : Upd → Upd) : (s.modUpd f).resv = s.resv := rfl
@[simp] theorem State.modUpd_saves (f : Upd → Upd) : (s.modUpd f).saves = s.saves := rfl
@[simp] theorem State.modUpd_ctxbase (f : Upd → Upd) : (s.modUpd f).ctxbase = s.ctxbase := rfl
@[simp] theorem State.modUpd_tlb (f : Upd → Upd) : (s.modUpd f).tlb = s.tlb := rfl
@[simp] theorem State.modUpd_dying (f : Upd → Upd) : (s.modUpd f).dying = s.dying := rfl
@[simp] theorem State.modUpd_shares (f : Upd → Upd) : (s.modUpd f).shares = s.shares := rfl
@[simp] theorem State.modUpd_ranges (f : Upd → Upd) : (s.modUpd f).ranges = s.ranges := rfl
@[simp] theorem State.modUpd_rangeAcc (f : Upd → Upd) : (s.modUpd f).rangeAcc = s.rangeAcc := rfl
@[simp] theorem State.modUpd_l2tags (f : Upd → Upd) : (s.modUpd f).l2tags = s.l2tags := rfl
@[simp] theorem State.modUpd_hedge (f : Upd → Upd) : (s.modUpd f).hedge = s.hedge := rfl
@[simp] theorem State.modUpd_aged (f : Upd → Upd) : (s.modUpd f).aged = s.aged := rfl
@[simp] theorem State.modUpd_gov (f : Upd → Upd) : (s.modUpd f).gov = s.gov := rfl
@[simp] theorem State.modUpd_loaded (f : Upd → Upd) : (s.modUpd f).loaded = s.loaded := rfl
@[simp] theorem State.modUpd_graphs (f : Upd → Upd) : (s.modUpd f).graphs = s.graphs := rfl
@[simp] theorem State.modUpd_nextGraph (f : Upd → Upd) : (s.modUpd f).nextGraph = s.nextGraph := rfl
@[simp] theorem State.modUpd_completions (f : Upd → Upd) : (s.modUpd f).completions = s.completions := rfl

/-! ## Readings after updates -/

@[simp] theorem State.slot_setSlot_same (n : Nat) (v : Slot) : (s.setSlot n v).slot n = v := by simp [State.slot, State.setSlot]
theorem State.slot_setSlot_other (n m : Nat) (v : Slot) (h : m ≠ n) : (s.setSlot n v).slot m = s.slot m := by
  simp [State.slot, State.setSlot, sget_sput_other _ _ _ _ _ h]
@[simp] theorem State.core_setSlot (n c : Nat) (v : Slot) : (s.setSlot n v).core c = s.core c := rfl
@[simp] theorem State.slot_setCore (n c : Nat) (v : Core) : (s.setCore c v).slot n = s.slot n := rfl
@[simp] theorem State.core_setCore_same (c : Nat) (v : Core) : (s.setCore c v).core c = v := by simp [State.core, State.setCore]
theorem State.core_setCore_other (c d : Nat) (v : Core) (h : d ≠ c) : (s.setCore c v).core d = s.core d := by
  simp [State.core, State.setCore, sget_sput_other _ _ _ _ _ h]
@[simp] theorem Slot.stream_setStream_same (t : Slot) (k : StreamId) (v : Stream) : (t.setStream k v).stream k = v := by cases k <;> rfl
theorem Slot.stream_setStream_other (t : Slot) (j k : StreamId) (v : Stream) (h : j ≠ k) : (t.setStream k v).stream j = t.stream j := by
  cases j <;> cases k <;> first | rfl | exact absurd rfl h
@[simp] theorem State.stream_setStream_same (g : Agent) (v : Stream) : (s.setStream g v).stream g = v := by
  simp [State.stream, State.setStream, State.modSlot]
theorem State.stream_setStream_other (g h : Agent) (v : Stream) (n : h ≠ g) : (s.setStream g v).stream h = s.stream h := by
  obtain ⟨i, j⟩ := g
  obtain ⟨k, l⟩ := h
  simp only [State.stream, State.setStream, State.modSlot]
  by_cases e : k = i
  · subst e; simp only [State.slot_setSlot_same]
    exact Slot.stream_setStream_other _ _ _ _ fun a => n (by rw [a])
  · rw [State.slot_setSlot_other _ _ _ _ e]
@[simp] theorem State.stream_setCore (g : Agent) (c : Nat) (v : Core) : (s.setCore c v).stream g = s.stream g := rfl
@[simp] theorem State.me_setStream (g : Agent) (v : Stream) : (s.setStream g v).me = s.me := rfl
@[simp] theorem State.me_setSlot (n : Nat) (v : Slot) : (s.setSlot n v).me = s.me := rfl
@[simp] theorem State.me_setCore (n : Nat) (v : Core) : (s.setCore n v).me = s.me := rfl
@[simp] theorem State.queue_setQ_same (n : Nat) (v : Queue) : (s.setQ n v).queue n = v := by simp [State.queue, State.setQ]
theorem State.queue_setQ_other (n m : Nat) (v : Queue) (h : m ≠ n) : (s.setQ n v).queue m = s.queue m := by
  simp [State.queue, State.setQ, sget_sput_other _ _ _ _ _ h]
@[simp] theorem State.ctl_setCtl_same (n : Nat) (v : Ctl) : (s.setCtl n v).ctl n = v := by simp [State.ctl, State.setCtl]
theorem State.ctl_setCtl_other (n m : Nat) (v : Ctl) (h : m ≠ n) : (s.setCtl n v).ctl m = s.ctl m := by
  simp [State.ctl, State.setCtl, sget_sput_other _ _ _ _ _ h]
@[simp] theorem State.port_setPort_same (n : Nat) (v : FPort) : (s.setPort n v).port n = v := by simp [State.port, State.setPort]
theorem State.port_setPort_other (n m : Nat) (v : FPort) (h : m ≠ n) : (s.setPort n v).port m = s.port m := by
  simp [State.port, State.setPort, sget_sput_other _ _ _ _ _ h]
@[simp] theorem State.vcq_setVcq_same (k : Nat) (v : List InPkt) : (s.setVcq k v).vcq k = v := by simp [State.vcq, State.setVcq]
theorem State.vcq_setVcq_other (k j : Nat) (v : List InPkt) (h : j ≠ k) : (s.setVcq k v).vcq j = s.vcq j := by
  simp [State.vcq, State.setVcq, sget_sput_other _ _ _ _ _ h]
@[simp] theorem State.port_setVcq (k n : Nat) (v : List InPkt) : (s.setVcq k v).port n = s.port n := rfl
@[simp] theorem State.vcq_setPort (k n : Nat) (v : FPort) : (s.setPort n v).vcq k = s.vcq k := rfl
@[simp] theorem State.group_setGroup_same (g : Nat) (v : Group) : (s.setGroup g v).group g = some v := by simp [State.group, State.setGroup]
theorem State.group_setGroup_other (g h : Nat) (v : Group) (n : h ≠ g) : (s.setGroup g v).group h = s.group h := by
  simp [State.group, State.setGroup, sfind_sput_other _ _ _ _ n]

end Sys2Proof.Machine
end

