-- ==== Sys2Proof/Laws/Writes.lean ====
section
/-!
SUPPORT. The write operations: what they do to memory, that they keep its canonical form, and that no write touches a stream's
registers, a semaphore or a core.
-/

namespace Sys2Proof.Machine

/-! ## Registers are the same -/

theorem SameRegisters.refl (s : State) : SameRegisters s s := fun _ => ⟨rfl, rfl, rfl, rfl⟩

theorem SameRegisters.trans {s t u : State} (h : SameRegisters s t) (k : SameRegisters t u) : SameRegisters s u := fun g =>
  ⟨(k g).1.trans (h g).1, (k g).2.1.trans (h g).2.1, (k g).2.2.1.trans (h g).2.2.1, (k g).2.2.2.trans (h g).2.2.2⟩

theorem SameRegisters.of_slots {s t : State} (h : t.slots = s.slots) : SameRegisters s t := fun g => by
  simp [State.stream, State.slot, h]

/-! ## The parts of a write -/

@[simp] theorem logLine_mem (s : State) (l : Nat) : (logLine s l).mem = s.mem := by
  unfold logLine; dsimp only; split
  · rfl
  · split <;> rfl
@[simp] theorem logLine_slots (s : State) (l : Nat) : (logLine s l).slots = s.slots := by
  unfold logLine; dsimp only; split
  · rfl
  · split <;> rfl
@[simp] theorem logLine_cores (s : State) (l : Nat) : (logLine s l).cores = s.cores := by
  unfold logLine; dsimp only; split
  · rfl
  · split <;> rfl
@[simp] theorem logLines_mem (s : State) (ls : List Nat) : (logLines s ls).mem = s.mem := by
  induction ls generalizing s with
  | nil => rfl
  | cons l ls ih => simp [logLines, ih]
@[simp] theorem logLines_slots (s : State) (ls : List Nat) : (logLines s ls).slots = s.slots := by
  induction ls generalizing s with
  | nil => rfl
  | cons l ls ih => simp [logLines, ih]
@[simp] theorem logLines_cores (s : State) (ls : List Nat) : (logLines s ls).cores = s.cores := by
  induction ls generalizing s with
  | nil => rfl
  | cons l ls ih => simp [logLines, ih]

@[simp] theorem dirtySectors_mem (s : State) (us : List Nat) : (dirtySectors s us).mem = s.mem := rfl
@[simp] theorem dirtySectors_slots (s : State) (us : List Nat) : (dirtySectors s us).slots = s.slots := rfl
@[simp] theorem dirtySectors_cores (s : State) (us : List Nat) : (dirtySectors s us).cores = s.cores := rfl
@[simp] theorem healPoison_mem (s : State) (p : Piece) : (healPoison s p).mem = s.mem := rfl
@[simp] theorem healPoison_slots (s : State) (p : Piece) : (healPoison s p).slots = s.slots := rfl
@[simp] theorem healPoison_cores (s : State) (p : Piece) : (healPoison s p).cores = s.cores := rfl
@[simp] theorem recode_mem (s : State) (p : Piece) : (recode s p).mem = s.mem := by unfold recode; split <;> rfl
@[simp] theorem recode_slots (s : State) (p : Piece) : (recode s p).slots = s.slots := by unfold recode; split <;> rfl
@[simp] theorem recode_cores (s : State) (p : Piece) : (recode s p).cores = s.cores := by unfold recode; split <;> rfl
@[simp] theorem spreadPoison_mem (s : State) (p : Piece) : (spreadPoison s p).mem = s.mem := by
  unfold spreadPoison; dsimp only; split
  · rfl
  · split <;> rfl
@[simp] theorem spreadPoison_slots (s : State) (p : Piece) : (spreadPoison s p).slots = s.slots := by
  unfold spreadPoison; dsimp only; split
  · rfl
  · split <;> rfl
@[simp] theorem dirtyTarns_mem (s : State) (p : Piece) : (dirtyTarns s p).mem = s.mem := by unfold dirtyTarns; dsimp only; split <;> rfl
@[simp] theorem dirtyTarns_slots (s : State) (p : Piece) : (dirtyTarns s p).slots = s.slots := by unfold dirtyTarns; dsimp only; split <;> rfl
@[simp] theorem dirtyTarns_cores (s : State) (p : Piece) : (dirtyTarns s p).cores = s.cores := by unfold dirtyTarns; dsimp only; split <;> rfl
@[simp] theorem noteWriter_mem (s : State) (c : Option Nat) : (noteWriter s c).mem = s.mem := by cases c <;> rfl
@[simp] theorem noteWriter_slots (s : State) (c : Option Nat) : (noteWriter s c).slots = s.slots := by cases c <;> rfl
@[simp] theorem noteWriter_cores (s : State) (c : Option Nat) : (noteWriter s c).cores = s.cores := by cases c <;> rfl
/-! ### What reaches the L2 -/

/-- `t` is `s` but for the L2's lines, the ranges' accumulators, and what writing lines back does: the write-backs that wait or are lost,
and what is known of the sectors written. -/
def OnlyL2 (s t : State) : Prop :=
  ∃ l g a b o c d p m, t = { s with l2 := l, l2tags := g, rangeAcc := a, backs := b, lost := o, cxl := c, damage := d, poison := p, badLines := m }

theorem OnlyL2.refl (s : State) : OnlyL2 s s := ⟨_, _, _, _, _, _, _, _, _, rfl⟩
theorem OnlyL2.trans {s t u : State} (h : OnlyL2 s t) (k : OnlyL2 t u) : OnlyL2 s u := by
  obtain ⟨_, _, _, _, _, _, _, _, _, rfl⟩ := h; obtain ⟨_, _, _, _, _, _, _, _, _, rfl⟩ := k; exact ⟨_, _, _, _, _, _, _, _, _, rfl⟩
theorem OnlyL2.foldl {α : Type} (f : State → α → State) (h : ∀ s a, OnlyL2 s (f s a)) (as : List α) : ∀ s, OnlyL2 s (as.foldl f s) := by
  induction as with
  | nil => exact .refl
  | cons a as ih => exact fun s => (h s a).trans (ih _)

theorem OnlyL2.mem {s t : State} (h : OnlyL2 s t) : t.mem = s.mem := by obtain ⟨_, _, _, _, _, _, _, _, _, rfl⟩ := h; rfl
theorem OnlyL2.slots {s t : State} (h : OnlyL2 s t) : t.slots = s.slots := by obtain ⟨_, _, _, _, _, _, _, _, _, rfl⟩ := h; rfl
theorem OnlyL2.cores {s t : State} (h : OnlyL2 s t) : t.cores = s.cores := by obtain ⟨_, _, _, _, _, _, _, _, _, rfl⟩ := h; rfl

theorem cleanSectors_only (s : State) (p : Nat → Bool) : OnlyL2 s (cleanSectors s p) := ⟨_, s.l2tags, s.rangeAcc, _, _, _, _, _, s.badLines, rfl⟩

theorem evictLines_only (s : State) (ls : List Nat) : OnlyL2 s (evictLines s ls) :=
  OnlyL2.trans (cleanSectors_only s fun u => ls.contains (u / 4)) ⟨_, _, _, _, _, _, _, _, _, rfl⟩

theorem l2Lookup_only (s : State) (key line : Nat) (st : Bool) : OnlyL2 s (l2Lookup s key line st) :=
  OnlyL2.trans ⟨s.l2, _, _, s.backs, s.lost, s.cxl, s.damage, s.poison, s.badLines, rfl⟩ (evictLines_only _ _)

/-- An access changes nothing of the state but the L2. -/
theorem l2Use_only (s : State) (p : Piece) : OnlyL2 s (l2Use s p) := by
  unfold l2Use
  split
  · exact OnlyL2.foldl _ (fun s l => l2Lookup_only _ _ _ _) _ s
  · exact .refl s

theorem l2Uses_only (s : State) (ps : List Piece) : OnlyL2 s (l2Uses s ps) := OnlyL2.foldl _ l2Use_only ps s

/-- Nor do the reads of its walks. -/
theorem walked_only (s : State) (r : Req) (addr n : Nat) : OnlyL2 s (walked s r addr n) := by
  unfold walked
  split
  · exact .refl s
  · refine OnlyL2.foldl _ (fun s u => ?_) _ s
    dsimp only
    split
    · exact .refl s
    · exact OnlyL2.foldl _ (fun s a => l2Use_only s _) _ s

theorem readUses_only (s : State) (r : Req) (addr n : Nat) (ps : List Piece) : OnlyL2 s (readUses s r addr n ps) :=
  (walked_only s r addr n).trans (l2Uses_only _ _)

theorem readied_only (s : State) (r : Req) (addr : Word) (n : Nat) : OnlyL2 s (readied s r addr n) := by
  unfold readied
  split
  · exact .refl s
  · exact readUses_only _ _ _ _ _

@[simp] theorem l2Use_mem (s : State) (p : Piece) : (l2Use s p).mem = s.mem := (l2Use_only s p).mem
@[simp] theorem l2Use_slots (s : State) (p : Piece) : (l2Use s p).slots = s.slots := (l2Use_only s p).slots
@[simp] theorem l2Use_cores (s : State) (p : Piece) : (l2Use s p).cores = s.cores := (l2Use_only s p).cores
@[simp] theorem l2Uses_mem (s : State) (ps : List Piece) : (l2Uses s ps).mem = s.mem := (l2Uses_only s ps).mem
@[simp] theorem l2Uses_slots (s : State) (ps : List Piece) : (l2Uses s ps).slots = s.slots := (l2Uses_only s ps).slots
@[simp] theorem l2Uses_cores (s : State) (ps : List Piece) : (l2Uses s ps).cores = s.cores := (l2Uses_only s ps).cores

@[simp] theorem walked_mem (s : State) (r : Req) (a n : Nat) : (walked s r a n).mem = s.mem := (walked_only s r a n).mem
@[simp] theorem walked_slots (s : State) (r : Req) (a n : Nat) : (walked s r a n).slots = s.slots := (walked_only s r a n).slots
@[simp] theorem walked_cores (s : State) (r : Req) (a n : Nat) : (walked s r a n).cores = s.cores := (walked_only s r a n).cores
@[simp] theorem readied_mem (s : State) (r : Req) (a : Word) (n : Nat) : (readied s r a n).mem = s.mem := (readied_only s r a n).mem
@[simp] theorem readied_slots (s : State) (r : Req) (a : Word) (n : Nat) : (readied s r a n).slots = s.slots := (readied_only s r a n).slots
@[simp] theorem readied_cores (s : State) (r : Req) (a : Word) (n : Nat) : (readied s r a n).cores = s.cores := (readied_only s r a n).cores

@[simp] theorem breakLines_mem (s : State) (g : Option Agent) (ls : List Nat) : (breakLines s g ls).mem = s.mem := rfl
@[simp] theorem breakLines_cores (s : State) (g : Option Agent) (ls : List Nat) : (breakLines s g ls).cores = s.cores := rfl

/-- A write may mark a stream's monitor as written, and changes nothing else of a slot. -/
theorem breakLines_registers (s : State) (me : Option Agent) (ls : List Nat) : SameRegisters s (breakLines s me ls) := by
  intro g
  have hit (t : Stream) (w : Stream) (h : w = t ∨ ∃ m, w = { t with monitor := m }) : w.x = t.x ∧ w.p = t.p ∧ w.lc = t.lc ∧ w.pc = t.pc := by
    rcases h with h | ⟨m, h⟩ <;> subst h <;> exact ⟨rfl, rfl, rfl, rfl⟩
  simp only [State.stream, State.slot, sget, breakLines, sfind_map]
  cases h : sfind s.slots g.slot with
  | none => exact ⟨rfl, rfl, rfl, rfl⟩
  | some t =>
    apply hit
    cases k : g.st <;> simp only [Option.map, Option.getD, Slot.stream] <;> split <;>
      first
      | exact .inl rfl
      | (split <;> exact .inr ⟨_, rfl⟩)

theorem breakLines_sem (s : State) (me : Option Agent) (ls : List Nat) (n : Nat) : ((breakLines s me ls).slot n).sem = (s.slot n).sem := by
  simp only [State.slot, sget, breakLines, sfind_map]
  cases sfind s.slots n <;> rfl

/-! ## A write of one piece -/

/-- What a write of one piece does to memory: nothing where it is dropped, else its bytes stand at its key. -/
theorem writePiece_mem (s : State) (r : Req) (p : Piece) (bs : List Byte) :
    (writePiece s r p bs).mem = s.mem ∨ (writePiece s r p bs).mem = writeBytes s.mem p.key (bs.take p.len) := by
  unfold writePiece
  split
  · exact .inl rfl
  · split
    · exact .inl rfl
    · refine .inr ?_
      dsimp only
      rw [breakLines_mem, noteWriter_mem, dirtyTarns_mem, recode_mem, healPoison_mem]
      split <;> split <;> simp

/-- A write outside a CXL range lands. -/
theorem writePiece_mem_of (s : State) (r : Req) (p : Piece) (bs : List Byte) (h : isCxl p.key = false) :
    (writePiece s r p bs).mem = if p.len = 0 then s.mem else writeBytes s.mem p.key (bs.take p.len) := by
  unfold writePiece
  by_cases z : p.len = 0
  · simp [z]
  · simp only [z, if_false, h, Bool.false_eq_true, false_and]
    rw [breakLines_mem, noteWriter_mem, dirtyTarns_mem, recode_mem, healPoison_mem]
    split <;> split <;> simp

theorem writePiece_wf (s : State) (r : Req) (p : Piece) (bs : List Byte) (h : Memory.wf s.mem = true) : Memory.wf (writePiece s r p bs).mem = true := by
  rcases writePiece_mem s r p bs with e | e <;> rw [e]
  · exact h
  · exact writeBytes_wf _ _ _ h

theorem writePiece_registers (s : State) (r : Req) (p : Piece) (bs : List Byte) : SameRegisters s (writePiece s r p bs) := by
  unfold writePiece
  split
  · exact .refl s
  · split
    · exact .of_slots rfl
    · dsimp only
      refine .trans (.trans (.of_slots ?_) (breakLines_registers _ r.me (unitsOf 128 p.key p.len))) (.of_slots rfl)
      rw [noteWriter_slots, dirtyTarns_slots, recode_slots, healPoison_slots]
      split <;> split <;> simp

@[simp] theorem writePiece_cores (s : State) (r : Req) (p : Piece) (bs : List Byte) : (writePiece s r p bs).cores = s.cores := by
  unfold writePiece
  split
  · rfl
  · split
    · rfl
    · dsimp only
      rw [breakLines_cores, noteWriter_cores, dirtyTarns_cores, recode_cores, healPoison_cores]
      split <;> split <;> simp

/-- A byte outside a piece is not changed by its write. -/
theorem writePiece_other (s : State) (r : Req) (p : Piece) (bs : List Byte) (k : Nat) (h : Memory.wf s.mem = true) (o : k < p.key ∨ p.key + p.len ≤ k) :
    SameByte s (writePiece s r p bs) k := by
  rcases writePiece_mem s r p bs with e | e <;> simp only [SameByte, e]
  have l : (bs.take p.len).length ≤ p.len := by rw [List.length_take]; omega
  exact memRead_writeBytes_other _ _ _ _ (by omega) h

/-! ## A write of several pieces -/

theorem writePieces_wf (s : State) (r : Req) (ps : List Piece) (bs : List Byte) (h : Memory.wf s.mem = true) :
    Memory.wf (writePieces s r ps bs).mem = true := by
  induction ps generalizing s bs with
  | nil => exact h
  | cons p ps ih => exact ih _ _ (writePiece_wf s r p bs h)

theorem writePieces_registers (s : State) (r : Req) (ps : List Piece) (bs : List Byte) : SameRegisters s (writePieces s r ps bs) := by
  induction ps generalizing s bs with
  | nil => exact .refl s
  | cons p ps ih => exact (writePiece_registers s r p bs).trans (ih _ _)

@[simp] theorem writePieces_cores (s : State) (r : Req) (ps : List Piece) (bs : List Byte) : (writePieces s r ps bs).cores = s.cores := by
  induction ps generalizing s bs with
  | nil => rfl
  | cons p ps ih => rw [writePieces, ih, writePiece_cores]

/-- A byte outside every piece of an access is not changed by its write. -/
theorem writePieces_other (s : State) (r : Req) (ps : List Piece) (bs : List Byte) (k : Nat) (h : Memory.wf s.mem = true) (o : ¬InPieces ps k) :
    SameByte s (writePieces s r ps bs) k := by
  induction ps generalizing s bs with
  | nil => rfl
  | cons p ps ih =>
    have a : k < p.key ∨ p.key + p.len ≤ k := by
      by_cases h : k < p.key
      · exact .inl h
      · exact .inr (Nat.le_of_not_lt fun g => o ⟨p, List.mem_cons_self, by omega, g⟩)
    have b : ¬InPieces ps k := fun ⟨q, m, c⟩ => o ⟨q, List.mem_cons_of_mem _ m, c⟩
    exact (ih _ _ (writePiece_wf s r p bs h) b).trans (writePiece_other s r p bs k h a)

/-! ## Whole writes -/

/-- What a whole write can do: it is the write of its pieces, or its first fault. -/
theorem storeAll_cases (s t : State) (r : Req) (a : Word) (bs : List Byte) (h : storeAll s r a bs = .ok t) :
    ∃ ps, resolve s r .w a a bs.length = .ok ps ∧ t = writePieces (walked s r a.toNat bs.length) r ps bs := by
  unfold storeAll at h
  split at h
  · cases h
  · rename_i ps e; cases h; exact ⟨ps, e, rfl⟩

theorem storeAll_wf (s t : State) (r : Req) (a : Word) (bs : List Byte) (h : storeAll s r a bs = .ok t) (w : Memory.wf s.mem = true) :
    Memory.wf t.mem = true := by
  obtain ⟨ps, -, rfl⟩ := storeAll_cases s t r a bs h
  exact writePieces_wf _ r ps bs (by simpa using w)

theorem storeAll_registers (s t : State) (r : Req) (a : Word) (bs : List Byte) (h : storeAll s r a bs = .ok t) : SameRegisters s t := by
  obtain ⟨ps, -, rfl⟩ := storeAll_cases s t r a bs h
  exact (SameRegisters.of_slots (walked_slots ..)).trans (writePieces_registers _ r ps bs)

/-- What a write that is not answered can do: perform, make its turn wait, or be dropped. -/
theorem storeLater_cases (s : State) (r : Req) (a : Word) (bs : List Byte) :
    storeLater s r a bs = s ∨ storeLater s r a bs = s.stall ∨ storeAll s r a bs = .ok (storeLater s r a bs) := by
  unfold storeLater
  split
  · rename_i e; exact .inr (.inr e)
  · split
    · exact .inr (.inl rfl)
    · exact .inl rfl

theorem storeLater_wf (s : State) (r : Req) (a : Word) (bs : List Byte) (w : Memory.wf s.mem = true) : Memory.wf (storeLater s r a bs).mem = true := by
  rcases storeLater_cases s r a bs with e | e | e
  · rw [e]; exact w
  · rw [e]; exact w
  · exact storeAll_wf s _ r a bs e w

theorem storeLater_registers (s : State) (r : Req) (a : Word) (bs : List Byte) : SameRegisters s (storeLater s r a bs) := by
  rcases storeLater_cases s r a bs with e | e | e
  · rw [e]; exact .refl s
  · rw [e]; exact .of_slots rfl
  · exact storeAll_registers s _ r a bs e

@[simp] theorem storeLater_cores (s : State) (r : Req) (a : Word) (bs : List Byte) : (storeLater s r a bs).cores = s.cores := by
  rcases storeLater_cases s r a bs with e | e | e
  · rw [e]
  · rw [e]; rfl
  · obtain ⟨ps, -, e⟩ := storeAll_cases s _ r a bs e; rw [e]; simp

end Sys2Proof.Machine
end

