-- ==== Sys2Proof/Laws/Faults.lean ====
section
/-!
SUPPORT. Taking a fault, and how a word runs: the cases of each shared operation, that memory keeps its canonical form, and that a
fault changes no register.
-/

namespace Sys2Proof.Machine

/-! ## Launches -/

/-- What counting a fault can do: nothing where the launch is gone, else its entry changes. -/
theorem countFault_cases (s : State) (n c : Nat) (o : Bool) :
    countFault s n c o = s ∨ ∃ l m, s.launch n = some l ∧ m.faults = l.faults + 1 ∧ m.failed = (l.failed || !o) ∧
      countFault s n c o = { s with launches := sput s.launches n m } := by
  unfold countFault State.modLaunch State.launch
  cases sfind s.launches n with
  | none => exact .inl rfl
  | some l => exact .inr ⟨l, _, rfl, rfl, rfl, rfl⟩

@[simp] theorem countFault_mem (s : State) (n c : Nat) (o : Bool) : (countFault s n c o).mem = s.mem := by
  rcases countFault_cases s n c o with e | ⟨l, m, -, -, -, e⟩ <;> rw [e]
@[simp] theorem countFault_slots (s : State) (n c : Nat) (o : Bool) : (countFault s n c o).slots = s.slots := by
  rcases countFault_cases s n c o with e | ⟨l, m, -, -, -, e⟩ <;> rw [e]
@[simp] theorem countFault_cores (s : State) (n c : Nat) (o : Bool) : (countFault s n c o).cores = s.cores := by
  rcases countFault_cases s n c o with e | ⟨l, m, -, -, -, e⟩ <;> rw [e]

theorem State.modLaunch_cases (s : State) (n : Nat) (f : Launch → Launch) : s.modLaunch n f = s ∨ ∃ m, s.modLaunch n f = { s with launches := m } := by
  unfold State.modLaunch
  cases sfind s.launches n with
  | none => exact .inl rfl
  | some l => exact .inr ⟨_, rfl⟩

@[simp] theorem State.modLaunch_mem (s : State) (n : Nat) (f : Launch → Launch) : (s.modLaunch n f).mem = s.mem := by
  rcases s.modLaunch_cases n f with e | ⟨m, e⟩ <;> rw [e]
@[simp] theorem State.modLaunch_slots (s : State) (n : Nat) (f : Launch → Launch) : (s.modLaunch n f).slots = s.slots := by
  rcases s.modLaunch_cases n f with e | ⟨m, e⟩ <;> rw [e]

/-- What reporting a fault can do: nothing where the launch is gone, else the fault is counted, after its record is written where
the fault area has room. -/
theorem reportFault_cases (s : State) (n : Nat) (r : TrapRec) :
    reportFault s n r = s ∨ ∃ u, reportFault s n r = countFault u n r.code r.statusOnly ∧
      (u = s ∨ ∃ q a f, u = (storeLater s q a r.bytes).modLaunch n f) := by
  unfold reportFault
  cases s.launch n with
  | none => exact .inl rfl
  | some l =>
    refine .inr ⟨_, rfl, ?_⟩
    by_cases h : l.written < l.faultCap
    · exact .inr ⟨_, _, _, by rw [if_pos h]⟩
    · exact .inl (by rw [if_neg h])

theorem reportFault_wf (s : State) (n : Nat) (r : TrapRec) (w : Memory.wf s.mem = true) : Memory.wf (reportFault s n r).mem = true := by
  rcases reportFault_cases s n r with e | ⟨u, e, rfl | ⟨q, a, f, rfl⟩⟩ <;> rw [e]
  · exact w
  · rw [countFault_mem]; exact w
  · rw [countFault_mem, State.modLaunch_mem]; exact storeLater_wf _ _ _ _ w

theorem reportFault_registers (s : State) (n : Nat) (r : TrapRec) : SameRegisters s (reportFault s n r) := by
  rcases reportFault_cases s n r with e | ⟨u, e, rfl | ⟨q, a, f, rfl⟩⟩ <;> rw [e]
  · exact .refl s
  · exact .of_slots (countFault_slots _ _ _ _)
  · exact .trans (storeLater_registers _ _ _ _) (.of_slots (by rw [countFault_slots, State.modLaunch_slots]))

/-! ## Traps -/

@[simp] theorem fwResult_mem (s : State) (n c : Nat) : (fwResult s n c).mem = s.mem := rfl
@[simp] theorem fwResult_slots (s : State) (n c : Nat) : (fwResult s n c).slots = s.slots := rfl

@[simp] theorem State.modCore_mem (s : State) (c : Nat) (f : Core → Core) : (s.modCore c f).mem = s.mem := rfl
@[simp] theorem State.modCore_slots (s : State) (c : Nat) (f : Core → Core) : (s.modCore c f).slots = s.slots := rfl
@[simp] theorem State.modSlot_mem (s : State) (n : Nat) (f : Slot → Slot) : (s.modSlot n f).mem = s.mem := rfl
@[simp] theorem State.modStream_mem (s : State) (g : Agent) (f : Stream → Stream) : (s.modStream g f).mem = s.mem := rfl
@[simp] theorem State.modMyStream_mem (s : State) (f : Stream → Stream) : (s.modMyStream f).mem = s.mem := rfl
@[simp] theorem State.modMySlot_mem (s : State) (f : Slot → Slot) : (s.modMySlot f).mem = s.mem := rfl

theorem writeTrapRecord_wf (s : State) (c o : Nat) (r : TrapRec) (w : Memory.wf s.mem = true) : Memory.wf (writeTrapRecord s c o r).mem = true :=
  storeLater_wf _ _ _ _ w

theorem writeTrapRecord_registers (s : State) (c o : Nat) (r : TrapRec) : SameRegisters s (writeTrapRecord s c o r) :=
  storeLater_registers _ _ _ _

theorem haltFaulting_registers (t : Slot) (r : TrapRec) (k : StreamId) :
    ((t.haltFaulting r).stream k).x = (t.stream k).x ∧ ((t.haltFaulting r).stream k).p = (t.stream k).p ∧
      ((t.haltFaulting r).stream k).lc = (t.stream k).lc ∧ ((t.haltFaulting r).stream k).pc = (t.stream k).pc := by
  unfold Slot.haltFaulting
  split
  · exact ⟨rfl, rfl, rfl, rfl⟩
  · cases k
    · exact ⟨rfl, rfl, rfl, rfl⟩
    · exact ⟨rfl, rfl, rfl, rfl⟩
    · simp only [Slot.stream]; split <;> exact ⟨rfl, rfl, rfl, rfl⟩

theorem epilogue_registers (t : Stream) : t.epilogue.x = t.x ∧ t.epilogue.p = t.p ∧ t.epilogue.lc = t.lc ∧ t.epilogue.pc = t.pc := by
  unfold Stream.epilogue
  split
  · split <;> exact ⟨rfl, rfl, rfl, rfl⟩
  · exact ⟨rfl, rfl, rfl, rfl⟩

/-- A slot whose streams hold the same registers may take another's place. -/
theorem SameRegisters.setSlot (s : State) (n : Nat) (v : Slot)
    (h : ∀ k : StreamId, (v.stream k).x = ((s.slot n).stream k).x ∧ (v.stream k).p = ((s.slot n).stream k).p ∧
      (v.stream k).lc = ((s.slot n).stream k).lc ∧ (v.stream k).pc = ((s.slot n).stream k).pc) : SameRegisters s (s.setSlot n v) := by
  intro g
  by_cases e : g.slot = n
  · simp only [State.stream, e, State.slot_setSlot_same]; exact h g.st
  · have a : (s.setSlot n v).stream g = s.stream g := by simp only [State.stream, State.slot_setSlot_other s n g.slot v e]
    rw [a]; exact ⟨rfl, rfl, rfl, rfl⟩

/-- A job's trap writes no memory; its record follows. -/
theorem jobTrap_mem (s : State) (n : Nat) (r : TrapRec) : (jobTrap s n r).mem = s.mem := by
  unfold jobTrap
  dsimp only
  split
  · exact countFault_mem _ _ _ _
  · rfl

theorem jobTrap_registers (s : State) (n : Nat) (r : TrapRec) : SameRegisters s (jobTrap s n r) := by
  unfold jobTrap
  dsimp only
  have halt := haltFaulting_registers (s.slot n) r
  split
  · exact .trans (.setSlot s n _ halt) (.of_slots (countFault_slots _ _ _ _))
  · refine .trans (.setSlot s n _ fun k => ?_) (.of_slots (fwResult_slots _ _ _))
    cases k
    · exact halt .a
    · exact halt .m
    · have v := halt .v
      simp only [Slot.stream] at v ⊢
      split
      · have e := epilogue_registers ((s.slot n).haltFaulting r).v
        exact ⟨e.1.trans v.1, e.2.1.trans v.2.1, e.2.2.1.trans v.2.2.1, e.2.2.2.trans v.2.2.2⟩
      · exact v

theorem trapReport_wf (s : State) (n : Nat) (r : TrapRec) (w : Memory.wf s.mem = true) : Memory.wf (trapReport s n r).mem = true := by
  unfold trapReport
  dsimp only
  rw [State.modCore_mem]
  exact writeTrapRecord_wf _ _ _ _ w

theorem fwTrap_wf (s : State) (n : Nat) (r : TrapRec) (w : Memory.wf s.mem = true) : Memory.wf (fwTrap s n r).mem = true := by
  unfold fwTrap
  extract_lets c s1
  rw [State.modCore_mem, State.modSlot_mem]
  exact writeTrapRecord_wf s _ _ _ w

theorem ctlTrap_mem (s : State) (n : Nat) (r : TrapRec) : (ctlTrap s n r).mem = s.mem := rfl

/-- What taking a fault can do: wait where a channel holds the access, else the trap of the agent's kind. -/
theorem takeFault_cases (s : State) (t : Trap) :
    (t.code = 0 ∧ takeFault s t = stallBundle s) ∨
    (t.code ≠ 0 ∧ ∃ u, takeFault s t = { u with issue := { u.issue with outcome := .faulted t } } ∧
      (u = jobTrap s s.me.slot (streamRecord s s.me t) ∨ u = fwTrap s s.me.slot (streamRecord s s.me t) ∨
       u = ctlTrap s s.me.slot (streamRecord s s.me t))) := by
  unfold takeFault
  by_cases h : t.code = 0
  · exact .inl ⟨h, by dsimp only; rw [if_pos h]⟩
  · refine .inr ⟨h, _, by dsimp only; rw [if_neg h], ?_⟩
    split
    · exact .inl rfl
    · split
      · exact .inr (.inl rfl)
      · exact .inr (.inr rfl)

theorem takeFault_wf (s : State) (t : Trap) (w : Memory.wf s.mem = true) : Memory.wf (takeFault s t).mem = true := by
  have key : ∀ u : State, Memory.wf u.mem = true → Memory.wf ({ u with issue := { u.issue with outcome := .faulted t } } : State).mem = true :=
    fun _ h => h
  rcases takeFault_cases s t with ⟨-, e⟩ | ⟨-, u, e, h⟩ <;> rw [e]
  · exact w
  · apply key
    rcases h with h | h | h <;> rw [h]
    · rw [jobTrap_mem]; exact w
    · exact fwTrap_wf _ _ _ w
    · rw [ctlTrap_mem]; exact w

theorem cancelPhase_wf (s : State) (ph : Phase) (c : Cmd) (w : Memory.wf s.mem = true) : Memory.wf (cancelPhase s ph c).mem = true := by
  unfold cancelPhase
  extract_lets g sl st ring outR o n rings1 st1 redo sl1 sl2 s1
  exact reportFault_wf s1 _ _ w

/-- What a consumption of bad data can do: an uncontained fault, or the phase's cancellation. -/
theorem consumePoison_cases (s : State) :
    (∃ n : Nat, consumePoison s = takeFault s (trapOf Code.uncontained n)) ∨
    ∃ ph c, phaseSource s = .ok (ph, c) ∧ (consumePoison s).mem = (cancelPhase s ph c).mem := by
  unfold consumePoison
  cases phaseSource s with
  | error n => exact .inl ⟨n, rfl⟩
  | ok e => exact .inr ⟨e.1, e.2, rfl, rfl⟩

theorem consumePoison_wf (s : State) (w : Memory.wf s.mem = true) : Memory.wf (consumePoison s).mem = true := by
  rcases consumePoison_cases s with ⟨n, e⟩ | ⟨ph, c, -, e⟩ <;> rw [e]
  · exact takeFault_wf _ _ w
  · exact cancelPhase_wf _ _ _ w

theorem takeTrap_wf (s : State) (t : Trap) (w : Memory.wf s.mem = true) : Memory.wf (takeTrap s t).mem = true := by
  unfold takeTrap; split
  · exact consumePoison_wf _ w
  · exact takeFault_wf _ _ w

/-- Every fault but one of bad data is taken as it stands. -/
theorem takeTrap_of (s : State) (t : Trap) (h : t.code ≠ Code.uncontained) : takeTrap s t = takeFault s t := if_neg h

@[simp] theorem holdBundle_mem (s : State) (k o : Nat) (a : BitVec 32) : (holdBundle s k o a).mem = s.mem := rfl

/-! ## Running a word -/

/-- What an effect may leave: memory in canonical form, where it answers a state. -/
def Eff.KeepsMemory : Eff → Prop
  | .ok s => Memory.wf s.mem = true
  | .hold s => Memory.wf s.mem = true
  | .goOn s .. => Memory.wf s.mem = true
  | _ => True

/-- The end of a word's effect is a next state. -/
theorem conclude_next (s : State) (e : Eff) : ∃ t, conclude s e = .next t := by cases e <;> exact ⟨_, rfl⟩

theorem conclude_wf (s t : State) (e : Eff) (h : conclude s e = .next t) (k : e.KeepsMemory) (w : Memory.wf s.mem = true) : Memory.wf t.mem = true := by
  cases e <;> simp only [conclude, Host.Outcome.next.injEq] at h <;> subst h
  · exact k
  · exact k
  · simpa using w
  · exact k
  · exact takeTrap_wf _ _ w
  · exact consumePoison_wf _ w

theorem runWord_runs (s : State) (i : Instr) (e : State → Eff) (h : wordFault s.me i = none) : runWord s i e = conclude s (e s) := by
  simp [runWord, h]

theorem runWord_faults (s : State) (i : Instr) (e : State → Eff) (c n : Nat) (h : wordFault s.me i = some (c, n)) :
    runWord s i e = .next (takeFault s (trapOf c n s.myStream.pc)) := by
  simp [runWord, h]

/-- A word runs where it may stand and its guard is true. -/
theorem runGuarded_runs (s : State) (i : Instr) (e : State → Eff) (h : Runs i s) : runGuarded s i e = conclude s (e s) := by
  simp [runGuarded, runWord, h.1, h.2]

/-- A word whose guard is false does nothing. -/
theorem runGuarded_stands (s : State) (i : Instr) (e : State → Eff) (h : StandsBack i s) : runGuarded s i e = .next s := by
  simp [runGuarded, runWord, h.1, h.2, conclude]

theorem runWord_wf (s t : State) (i : Instr) (e : State → Eff) (h : runWord s i e = .next t) (k : (e s).KeepsMemory) (w : Memory.wf s.mem = true) :
    Memory.wf t.mem = true := by
  unfold runWord at h
  split at h
  · cases h; exact takeFault_wf _ _ w
  · exact conclude_wf s t _ h k w

theorem runGuarded_wf (s t : State) (i : Instr) (e : State → Eff) (h : runGuarded s i e = .next t) (k : (e s).KeepsMemory) (w : Memory.wf s.mem = true) :
    Memory.wf t.mem = true := by
  refine runWord_wf s t i _ h ?_ w
  split
  · exact k
  · exact w

/-! ## Registers -/

/-- A write of a register in an interlocked block, and of X0. -/
theorem writeX_zero (s : State) (v : Word) (lat : Nat) : s.writeX 0 v lat = s := rfl

@[simp] theorem writeX_mem (s : State) (i : BitVec 5) (v : Word) (lat : Nat) : (s.writeX i v lat).mem = s.mem := by
  unfold State.writeX; split <;> rfl
@[simp] theorem writeP_mem (s : State) (i : Nat) (v en : BitVec 256) (lat : Nat) : (s.writeP i v en lat).mem = s.mem := by
  unfold State.writeP; split <;> rfl

/-- X0 reads as 0. -/
@[simp] theorem readX_zero (s : State) : s.readX 0 = 0 := rfl

end Sys2Proof.Machine
end

