-- ==== Sys2Proof/Laws/PerInstr.lean ====
section
/-!
SUPPORT. The family Encoding, one lemma per instruction: the parcels of an instruction are as many as its first parcel announces
(R41); an event has none.
-/

namespace Sys2Proof.Laws.Encoding

/-- R41: an instruction's encoding is empty, or as long as its first parcel says. -/
def Statement (i : Instr) : Prop := encode i = [] ∨ ∃ p l, encode i = p :: l ∧ l.length + 1 = parcelCount p

/-- A word of the instruction class has two parcels. -/
theorem word_parcels (h : Hd) (o : BitVec 25) (w : W32) (e : w = 2#2 ++ BitVec.ofBool h.s ++ h.g ++ o) :
    ∃ p l, wordParcels w = p :: l ∧ l.length + 1 = parcelCount p := by
  refine ⟨_, _, rfl, ?_⟩
  subst e
  have a : ((2#2 ++ BitVec.ofBool h.s ++ h.g ++ o).extractLsb' 16 16).getLsbD 15 = true := by
    simp only [BitVec.getLsbD_extractLsb', BitVec.getLsbD_append]; rfl
  have b : ((2#2 ++ BitVec.ofBool h.s ++ h.g ++ o).extractLsb' 16 16).getLsbD 14 = false := by
    simp only [BitVec.getLsbD_extractLsb', BitVec.getLsbD_append]; rfl
  rw [parcelCount, a, b]; rfl

/-- A parcel whose top bit is 0 stands alone. -/
theorem compact_parcel (p : Parcel) (h : p.getLsbD 15 = false) : ∃ q l, [p] = q :: l ∧ l.length + 1 = parcelCount q :=
  ⟨p, [], rfl, by rw [parcelCount, h]; rfl⟩

theorem notify (m : Master) (q : Nat) : Statement (.notify m q) := .inl rfl
theorem bar2RingAccess (off : Nat) (op : HostOp) : Statement (.bar2RingAccess off op) := .inl rfl
theorem entryFetch (h : Nat) : Statement (.entryFetch h) := .inl rfl
theorem fetchPoll (h : Nat) : Statement (.fetchPoll h) := .inl rfl
theorem nopPacket (h : Nat) : Statement (.nopPacket h) := .inl rfl
theorem launchPacket (h : Nat) : Statement (.launchPacket h) := .inl rfl
theorem graphPacket (h : Nat) : Statement (.graphPacket h) := .inl rfl
theorem writePacket (h : Nat) : Statement (.writePacket h) := .inl rfl
theorem fillPacket (h : Nat) : Statement (.fillPacket h) := .inl rfl
theorem copyPacket (h : Nat) : Statement (.copyPacket h) := .inl rfl
theorem signalPacket (h : Nat) : Statement (.signalPacket h) := .inl rfl
theorem waitPacket (h : Nat) : Statement (.waitPacket h) := .inl rfl
theorem waitRecheck (h : Nat) : Statement (.waitRecheck h) := .inl rfl
theorem waitTimeout (h : Nat) : Statement (.waitTimeout h) := .inl rfl
theorem fencePacket (h : Nat) : Statement (.fencePacket h) := .inl rfl
theorem timestampPacket (h : Nat) : Statement (.timestampPacket h) := .inl rfl
theorem segadminNew (h : Nat) : Statement (.segadminNew h) := .inl rfl
theorem segadminEvict (h : Nat) : Statement (.segadminEvict h) := .inl rfl
theorem segadminDrop (h : Nat) : Statement (.segadminDrop h) := .inl rfl
theorem segadminQuery (h : Nat) : Statement (.segadminQuery h) := .inl rfl
theorem packetComplete (h : Nat) (n : Nat) : Statement (.packetComplete h n) := .inl rfl
theorem enable (m : Master) (q : Nat) : Statement (.enable m q) := .inl rfl
theorem disable (m : Master) (q : Nat) : Statement (.disable m q) := .inl rfl
theorem disableComplete : Statement .disableComplete := .inl rfl
theorem queueMap : Statement .queueMap := .inl rfl
theorem idleUnmap (h : Nat) : Statement (.idleUnmap h) := .inl rfl
theorem timesliceUnmap (h : Nat) : Statement (.timesliceUnmap h) := .inl rfl
theorem blockHeader (r : BitVec 1) (e : BitVec 1) (t : BitVec 1) (k : BitVec 3) (l : BitVec 10) (n : BitVec 12) : Statement (.blockHeader r e t k l n) := by
  refine .inr ⟨_, _, rfl, ?_⟩
  have a : ((12#4 ++ r ++ e ++ t ++ k ++ l ++ n).extractLsb' 16 16).getLsbD 15 = true := by
    simp only [BitVec.getLsbD_extractLsb', BitVec.getLsbD_append]; rfl
  have b : ((12#4 ++ r ++ e ++ t ++ k ++ l ++ n).extractLsb' 16 16).extractLsb' 12 2 = 0#2 := by
    apply BitVec.eq_of_getLsbD_eq
    intro i h
    rcases (by omega : i = 0 ∨ i = 1) with rfl | rfl <;> (simp only [BitVec.getLsbD_extractLsb', BitVec.getLsbD_append]; rfl)
  rw [parcelCount, a, b]; simp
theorem compactAddX0 (a : BitVec 5) (b : BitVec 5) : Statement (.compactAddX0 a b) := .inr (compact_parcel _ (by simp only [BitVec.getLsbD_append]; rfl))
theorem compactAdd (a : BitVec 5) (b : BitVec 5) : Statement (.compactAdd a b) := .inr (compact_parcel _ (by simp only [BitVec.getLsbD_append]; rfl))
theorem compactSub (a : BitVec 5) (b : BitVec 5) : Statement (.compactSub a b) := .inr (compact_parcel _ (by simp only [BitVec.getLsbD_append]; rfl))
theorem compactAnd (a : BitVec 5) (b : BitVec 5) : Statement (.compactAnd a b) := .inr (compact_parcel _ (by simp only [BitVec.getLsbD_append]; rfl))
theorem compactOr (a : BitVec 5) (b : BitVec 5) : Statement (.compactOr a b) := .inr (compact_parcel _ (by simp only [BitVec.getLsbD_append]; rfl))
theorem compactXor (a : BitVec 5) (b : BitVec 5) : Statement (.compactXor a b) := .inr (compact_parcel _ (by simp only [BitVec.getLsbD_append]; rfl))
theorem compactAddi (a : BitVec 5) (i : BitVec 5) : Statement (.compactAddi a i) := .inr (compact_parcel _ (by simp only [BitVec.getLsbD_append]; rfl))
theorem compactMovi (a : BitVec 5) (i : BitVec 5) : Statement (.compactMovi a i) := .inr (compact_parcel _ (by simp only [BitVec.getLsbD_append]; rfl))
theorem compactShli (a : BitVec 5) (n : BitVec 5) : Statement (.compactShli a n) := .inr (compact_parcel _ (by simp only [BitVec.getLsbD_append]; rfl))
theorem compactShri (a : BitVec 5) (n : BitVec 5) : Statement (.compactShri a n) := .inr (compact_parcel _ (by simp only [BitVec.getLsbD_append]; rfl))
theorem compactSari (a : BitVec 5) (n : BitVec 5) : Statement (.compactSari a n) := .inr (compact_parcel _ (by simp only [BitVec.getLsbD_append]; rfl))
theorem compactLdd (a : BitVec 5) (b : BitVec 5) : Statement (.compactLdd a b) := .inr (compact_parcel _ (by simp only [BitVec.getLsbD_append]; rfl))
theorem compactStd (a : BitVec 5) (b : BitVec 5) : Statement (.compactStd a b) := .inr (compact_parcel _ (by simp only [BitVec.getLsbD_append]; rfl))
theorem compactSaddi (n : BitVec 5) (i : BitVec 5) : Statement (.compactSaddi n i) := .inr (compact_parcel _ (by simp only [BitVec.getLsbD_append]; rfl))
theorem compactQput (q : BitVec 3) (b : BitVec 5) : Statement (.compactQput q b) := .inr (compact_parcel _ (by simp only [BitVec.getLsbD_append]; rfl))
theorem compactQget (a : BitVec 5) (q : BitVec 3) : Statement (.compactQget a q) := .inr (compact_parcel _ (by simp only [BitVec.getLsbD_append]; rfl))
theorem compactNop : Statement .compactNop := .inr (compact_parcel _ rfl)
theorem compactEnd : Statement .compactEnd := .inr (compact_parcel _ rfl)
theorem add (h : Hd) (d : BitVec 5) (a : BitVec 5) (b : BitVec 5) : Statement (.add h d a b) := by
  refine .inr (word_parcels h (0#6 ++ d ++ a ++ b ++ 0#4) _ ?_)
  simp only [BitVec.append_assoc, BitVec.cast_eq]
theorem sub (h : Hd) (d : BitVec 5) (a : BitVec 5) (b : BitVec 5) : Statement (.sub h d a b) := by
  refine .inr (word_parcels h (0#6 ++ d ++ a ++ b ++ 1#4) _ ?_)
  simp only [BitVec.append_assoc, BitVec.cast_eq]
theorem and (h : Hd) (d : BitVec 5) (a : BitVec 5) (b : BitVec 5) : Statement (.and h d a b) := by
  refine .inr (word_parcels h (0#6 ++ d ++ a ++ b ++ 2#4) _ ?_)
  simp only [BitVec.append_assoc, BitVec.cast_eq]
theorem or (h : Hd) (d : BitVec 5) (a : BitVec 5) (b : BitVec 5) : Statement (.or h d a b) := by
  refine .inr (word_parcels h (0#6 ++ d ++ a ++ b ++ 3#4) _ ?_)
  simp only [BitVec.append_assoc, BitVec.cast_eq]
theorem xor (h : Hd) (d : BitVec 5) (a : BitVec 5) (b : BitVec 5) : Statement (.xor h d a b) := by
  refine .inr (word_parcels h (0#6 ++ d ++ a ++ b ++ 4#4) _ ?_)
  simp only [BitVec.append_assoc, BitVec.cast_eq]
theorem shl (h : Hd) (d : BitVec 5) (a : BitVec 5) (b : BitVec 5) : Statement (.shl h d a b) := by
  refine .inr (word_parcels h (0#6 ++ d ++ a ++ b ++ 5#4) _ ?_)
  simp only [BitVec.append_assoc, BitVec.cast_eq]
theorem shr (h : Hd) (d : BitVec 5) (a : BitVec 5) (b : BitVec 5) : Statement (.shr h d a b) := by
  refine .inr (word_parcels h (0#6 ++ d ++ a ++ b ++ 6#4) _ ?_)
  simp only [BitVec.append_assoc, BitVec.cast_eq]
theorem sar (h : Hd) (d : BitVec 5) (a : BitVec 5) (b : BitVec 5) : Statement (.sar h d a b) := by
  refine .inr (word_parcels h (0#6 ++ d ++ a ++ b ++ 7#4) _ ?_)
  simp only [BitVec.append_assoc, BitVec.cast_eq]
theorem min (h : Hd) (d : BitVec 5) (a : BitVec 5) (b : BitVec 5) : Statement (.min h d a b) := by
  refine .inr (word_parcels h (0#6 ++ d ++ a ++ b ++ 8#4) _ ?_)
  simp only [BitVec.append_assoc, BitVec.cast_eq]
theorem max (h : Hd) (d : BitVec 5) (a : BitVec 5) (b : BitVec 5) : Statement (.max h d a b) := by
  refine .inr (word_parcels h (0#6 ++ d ++ a ++ b ++ 9#4) _ ?_)
  simp only [BitVec.append_assoc, BitVec.cast_eq]
theorem umin (h : Hd) (d : BitVec 5) (a : BitVec 5) (b : BitVec 5) : Statement (.umin h d a b) := by
  refine .inr (word_parcels h (0#6 ++ d ++ a ++ b ++ 10#4) _ ?_)
  simp only [BitVec.append_assoc, BitVec.cast_eq]
theorem umax (h : Hd) (d : BitVec 5) (a : BitVec 5) (b : BitVec 5) : Statement (.umax h d a b) := by
  refine .inr (word_parcels h (0#6 ++ d ++ a ++ b ++ 11#4) _ ?_)
  simp only [BitVec.append_assoc, BitVec.cast_eq]
theorem mul (h : Hd) (d : BitVec 5) (a : BitVec 5) (b : BitVec 5) : Statement (.mul h d a b) := by
  refine .inr (word_parcels h (0#6 ++ d ++ a ++ b ++ 12#4) _ ?_)
  simp only [BitVec.append_assoc, BitVec.cast_eq]
theorem mulh (h : Hd) (d : BitVec 5) (a : BitVec 5) (b : BitVec 5) : Statement (.mulh h d a b) := by
  refine .inr (word_parcels h (0#6 ++ d ++ a ++ b ++ 13#4) _ ?_)
  simp only [BitVec.append_assoc, BitVec.cast_eq]
theorem umulh (h : Hd) (d : BitVec 5) (a : BitVec 5) (b : BitVec 5) : Statement (.umulh h d a b) := by
  refine .inr (word_parcels h (0#6 ++ d ++ a ++ b ++ 14#4) _ ?_)
  simp only [BitVec.append_assoc, BitVec.cast_eq]
theorem div (h : Hd) (d : BitVec 5) (a : BitVec 5) (b : BitVec 5) : Statement (.div h d a b) := by
  refine .inr (word_parcels h (1#6 ++ d ++ a ++ b ++ 0#4) _ ?_)
  simp only [BitVec.append_assoc, BitVec.cast_eq]
theorem udiv (h : Hd) (d : BitVec 5) (a : BitVec 5) (b : BitVec 5) : Statement (.udiv h d a b) := by
  refine .inr (word_parcels h (1#6 ++ d ++ a ++ b ++ 1#4) _ ?_)
  simp only [BitVec.append_assoc, BitVec.cast_eq]
theorem rem (h : Hd) (d : BitVec 5) (a : BitVec 5) (b : BitVec 5) : Statement (.rem h d a b) := by
  refine .inr (word_parcels h (1#6 ++ d ++ a ++ b ++ 2#4) _ ?_)
  simp only [BitVec.append_assoc, BitVec.cast_eq]
theorem urem (h : Hd) (d : BitVec 5) (a : BitVec 5) (b : BitVec 5) : Statement (.urem h d a b) := by
  refine .inr (word_parcels h (1#6 ++ d ++ a ++ b ++ 3#4) _ ?_)
  simp only [BitVec.append_assoc, BitVec.cast_eq]
theorem clz (h : Hd) (d : BitVec 5) (a : BitVec 5) : Statement (.clz h d a) := by
  refine .inr (word_parcels h (1#6 ++ d ++ a ++ 4#9) _ ?_)
  simp only [BitVec.append_assoc, BitVec.cast_eq]
theorem popc (h : Hd) (d : BitVec 5) (a : BitVec 5) : Statement (.popc h d a) := by
  refine .inr (word_parcels h (1#6 ++ d ++ a ++ 5#9) _ ?_)
  simp only [BitVec.append_assoc, BitVec.cast_eq]
theorem brev (h : Hd) (d : BitVec 5) (a : BitVec 5) : Statement (.brev h d a) := by
  refine .inr (word_parcels h (1#6 ++ d ++ a ++ 6#9) _ ?_)
  simp only [BitVec.append_assoc, BitVec.cast_eq]
theorem sextb (h : Hd) (d : BitVec 5) (a : BitVec 5) : Statement (.sextb h d a) := by
  refine .inr (word_parcels h (1#6 ++ d ++ a ++ 7#9) _ ?_)
  simp only [BitVec.append_assoc, BitVec.cast_eq]
theorem sexth (h : Hd) (d : BitVec 5) (a : BitVec 5) : Statement (.sexth h d a) := by
  refine .inr (word_parcels h (1#6 ++ d ++ a ++ 8#9) _ ?_)
  simp only [BitVec.append_assoc, BitVec.cast_eq]
theorem sextw (h : Hd) (d : BitVec 5) (a : BitVec 5) : Statement (.sextw h d a) := by
  refine .inr (word_parcels h (1#6 ++ d ++ a ++ 9#9) _ ?_)
  simp only [BitVec.append_assoc, BitVec.cast_eq]
theorem zextw (h : Hd) (d : BitVec 5) (a : BitVec 5) : Statement (.zextw h d a) := by
  refine .inr (word_parcels h (1#6 ++ d ++ a ++ 10#9) _ ?_)
  simp only [BitVec.append_assoc, BitVec.cast_eq]
theorem slt (h : Hd) (d : BitVec 5) (a : BitVec 5) (b : BitVec 5) : Statement (.slt h d a b) := by
  refine .inr (word_parcels h (1#6 ++ d ++ a ++ b ++ 11#4) _ ?_)
  simp only [BitVec.append_assoc, BitVec.cast_eq]
theorem uslt (h : Hd) (d : BitVec 5) (a : BitVec 5) (b : BitVec 5) : Statement (.uslt h d a b) := by
  refine .inr (word_parcels h (1#6 ++ d ++ a ++ b ++ 12#4) _ ?_)
  simp only [BitVec.append_assoc, BitVec.cast_eq]
theorem addi (h : Hd) (d : BitVec 5) (a : BitVec 5) (i : BitVec 9) : Statement (.addi h d a i) := by
  refine .inr (word_parcels h (2#6 ++ d ++ a ++ i) _ ?_)
  simp only [BitVec.append_assoc, BitVec.cast_eq]
theorem andi (h : Hd) (d : BitVec 5) (a : BitVec 5) (i : BitVec 9) : Statement (.andi h d a i) := by
  refine .inr (word_parcels h (3#6 ++ d ++ a ++ i) _ ?_)
  simp only [BitVec.append_assoc, BitVec.cast_eq]
theorem ori (h : Hd) (d : BitVec 5) (a : BitVec 5) (i : BitVec 9) : Statement (.ori h d a i) := by
  refine .inr (word_parcels h (4#6 ++ d ++ a ++ i) _ ?_)
  simp only [BitVec.append_assoc, BitVec.cast_eq]
theorem xori (h : Hd) (d : BitVec 5) (a : BitVec 5) (i : BitVec 9) : Statement (.xori h d a i) := by
  refine .inr (word_parcels h (5#6 ++ d ++ a ++ i) _ ?_)
  simp only [BitVec.append_assoc, BitVec.cast_eq]
theorem shli (h : Hd) (d : BitVec 5) (a : BitVec 5) (n : BitVec 6) : Statement (.shli h d a n) := by
  refine .inr (word_parcels h (6#6 ++ d ++ a ++ 0#3 ++ n) _ ?_)
  simp only [BitVec.append_assoc, BitVec.cast_eq]
theorem shri (h : Hd) (d : BitVec 5) (a : BitVec 5) (n : BitVec 6) : Statement (.shri h d a n) := by
  refine .inr (word_parcels h (6#6 ++ d ++ a ++ 2#3 ++ n) _ ?_)
  simp only [BitVec.append_assoc, BitVec.cast_eq]
theorem sari (h : Hd) (d : BitVec 5) (a : BitVec 5) (n : BitVec 6) : Statement (.sari h d a n) := by
  refine .inr (word_parcels h (6#6 ++ d ++ a ++ 4#3 ++ n) _ ?_)
  simp only [BitVec.append_assoc, BitVec.cast_eq]
theorem movi (h : Hd) (d : BitVec 5) (i : BitVec 14) : Statement (.movi h d i) := by
  refine .inr (word_parcels h (7#6 ++ d ++ i) _ ?_)
  simp only [BitVec.append_assoc, BitVec.cast_eq]
theorem ldlit (h : Hd) (d : BitVec 5) (i : BitVec 14) : Statement (.ldlit h d i) := by
  refine .inr (word_parcels h (8#6 ++ d ++ i) _ ?_)
  simp only [BitVec.append_assoc, BitVec.cast_eq]
theorem setlc (h : Hd) (a : BitVec 5) (i : BitVec 9) : Statement (.setlc h a i) := by
  refine .inr (word_parcels h (288#11 ++ a ++ i) _ ?_)
  simp only [BitVec.append_assoc, BitVec.cast_eq]
theorem cmp (h : Hd) (p : BitVec 3) (a : BitVec 5) (b : BitVec 5) (c : BitVec 4) (k : BitVec 2) : Statement (.cmp h p a b c k) := by
  refine .inr (word_parcels h (10#6 ++ p ++ a ++ b ++ c ++ k) _ ?_)
  simp only [BitVec.append_assoc, BitVec.cast_eq]
theorem cmpi (h : Hd) (p : BitVec 3) (a : BitVec 5) (i : BitVec 5) (c : BitVec 4) (k : BitVec 2) : Statement (.cmpi h p a i c k) := by
  refine .inr (word_parcels h (11#6 ++ p ++ a ++ i ++ c ++ k) _ ?_)
  simp only [BitVec.append_assoc, BitVec.cast_eq]
theorem br (h : Hd) (o : BitVec 19) : Statement (.br h o) := by
  refine .inr (word_parcels h (12#6 ++ o) _ ?_)
  simp only [BitVec.append_assoc, BitVec.cast_eq]
theorem call (h : Hd) (o : BitVec 19) : Statement (.call h o) := by
  refine .inr (word_parcels h (13#6 ++ o) _ ?_)
  simp only [BitVec.append_assoc, BitVec.cast_eq]
theorem jmp (h : Hd) (a : BitVec 5) : Statement (.jmp h a) := by
  refine .inr (word_parcels h (448#11 ++ a ++ 0#9) _ ?_)
  simp only [BitVec.append_assoc, BitVec.cast_eq]
theorem callr (h : Hd) (a : BitVec 5) : Statement (.callr h a) := by
  refine .inr (word_parcels h (448#11 ++ a ++ 1#9) _ ?_)
  simp only [BitVec.append_assoc, BitVec.cast_eq]
theorem ret (h : Hd) : Statement (.ret h) := .inr (word_parcels h (7340034#25) _ rfl)
theorem pand (h : Hd) (d : BitVec 4) (a : BitVec 4) (b : BitVec 4) : Statement (.pand h d a b) := by
  refine .inr (word_parcels h (30#7 ++ d ++ a ++ b ++ 0#6) _ ?_)
  simp only [BitVec.append_assoc, BitVec.cast_eq]
theorem por (h : Hd) (d : BitVec 4) (a : BitVec 4) (b : BitVec 4) : Statement (.por h d a b) := by
  refine .inr (word_parcels h (30#7 ++ d ++ a ++ b ++ 1#6) _ ?_)
  simp only [BitVec.append_assoc, BitVec.cast_eq]
theorem pxor (h : Hd) (d : BitVec 4) (a : BitVec 4) (b : BitVec 4) : Statement (.pxor h d a b) := by
  refine .inr (word_parcels h (30#7 ++ d ++ a ++ b ++ 2#6) _ ?_)
  simp only [BitVec.append_assoc, BitVec.cast_eq]
theorem pandn (h : Hd) (d : BitVec 4) (a : BitVec 4) (b : BitVec 4) : Statement (.pandn h d a b) := by
  refine .inr (word_parcels h (30#7 ++ d ++ a ++ b ++ 3#6) _ ?_)
  simp only [BitVec.append_assoc, BitVec.cast_eq]
theorem pnot (h : Hd) (d : BitVec 4) (a : BitVec 4) : Statement (.pnot h d a) := by
  refine .inr (word_parcels h (30#7 ++ d ++ a ++ 4#10) _ ?_)
  simp only [BitVec.append_assoc, BitVec.cast_eq]
theorem pmov (h : Hd) (d : BitVec 4) (a : BitVec 4) : Statement (.pmov h d a) := by
  refine .inr (word_parcels h (30#7 ++ d ++ a ++ 5#10) _ ?_)
  simp only [BitVec.append_assoc, BitVec.cast_eq]
theorem pbcast (h : Hd) (d : BitVec 4) (a : BitVec 4) : Statement (.pbcast h d a) := by
  refine .inr (word_parcels h (30#7 ++ d ++ a ++ 6#10) _ ?_)
  simp only [BitVec.append_assoc, BitVec.cast_eq]
theorem pcnt (h : Hd) (d : BitVec 5) (a : BitVec 4) : Statement (.pcnt h d a) := by
  refine .inr (word_parcels h (15#6 ++ d ++ a ++ 7#10) _ ?_)
  simp only [BitVec.append_assoc, BitVec.cast_eq]
theorem ldb (h : Hd) (d : BitVec 5) (a : BitVec 5) (c : BitVec 4) (o : BitVec 5) : Statement (.ldb h d a c o) := by
  refine .inr (word_parcels h (16#6 ++ d ++ a ++ c ++ o) _ ?_)
  simp only [BitVec.append_assoc, BitVec.cast_eq]
theorem ldh (h : Hd) (d : BitVec 5) (a : BitVec 5) (c : BitVec 4) (o : BitVec 5) : Statement (.ldh h d a c o) := by
  refine .inr (word_parcels h (17#6 ++ d ++ a ++ c ++ o) _ ?_)
  simp only [BitVec.append_assoc, BitVec.cast_eq]
theorem ldw (h : Hd) (d : BitVec 5) (a : BitVec 5) (c : BitVec 4) (o : BitVec 5) : Statement (.ldw h d a c o) := by
  refine .inr (word_parcels h (18#6 ++ d ++ a ++ c ++ o) _ ?_)
  simp only [BitVec.append_assoc, BitVec.cast_eq]
theorem ldd (h : Hd) (d : BitVec 5) (a : BitVec 5) (c : BitVec 4) (o : BitVec 5) : Statement (.ldd h d a c o) := by
  refine .inr (word_parcels h (19#6 ++ d ++ a ++ c ++ o) _ ?_)
  simp only [BitVec.append_assoc, BitVec.cast_eq]
theorem stb (h : Hd) (d : BitVec 5) (a : BitVec 5) (c : BitVec 4) (o : BitVec 5) : Statement (.stb h d a c o) := by
  refine .inr (word_parcels h (20#6 ++ d ++ a ++ c ++ o) _ ?_)
  simp only [BitVec.append_assoc, BitVec.cast_eq]
theorem sth (h : Hd) (d : BitVec 5) (a : BitVec 5) (c : BitVec 4) (o : BitVec 5) : Statement (.sth h d a c o) := by
  refine .inr (word_parcels h (21#6 ++ d ++ a ++ c ++ o) _ ?_)
  simp only [BitVec.append_assoc, BitVec.cast_eq]
theorem stw (h : Hd) (d : BitVec 5) (a : BitVec 5) (c : BitVec 4) (o : BitVec 5) : Statement (.stw h d a c o) := by
  refine .inr (word_parcels h (22#6 ++ d ++ a ++ c ++ o) _ ?_)
  simp only [BitVec.append_assoc, BitVec.cast_eq]
theorem std (h : Hd) (d : BitVec 5) (a : BitVec 5) (c : BitVec 4) (o : BitVec 5) : Statement (.std h d a c o) := by
  refine .inr (word_parcels h (23#6 ++ d ++ a ++ c ++ o) _ ?_)
  simp only [BitVec.append_assoc, BitVec.cast_eq]
theorem amo (h : Hd) (d : BitVec 5) (a : BitVec 5) (b : BitVec 5) (f : BitVec 4) : Statement (.amo h d a b f) := by
  refine .inr (word_parcels h (24#6 ++ d ++ a ++ b ++ f) _ ?_)
  simp only [BitVec.append_assoc, BitVec.cast_eq]
theorem amow (h : Hd) (d : BitVec 5) (a : BitVec 5) (b : BitVec 5) (f : BitVec 4) : Statement (.amow h d a b f) := by
  refine .inr (word_parcels h (25#6 ++ d ++ a ++ b ++ f) _ ?_)
  simp only [BitVec.append_assoc, BitVec.cast_eq]
theorem amon (h : Hd) (a : BitVec 5) (b : BitVec 5) (f : BitVec 4) : Statement (.amon h a b f) := by
  refine .inr (word_parcels h (832#11 ++ a ++ b ++ f) _ ?_)
  simp only [BitVec.append_assoc, BitVec.cast_eq]
theorem cas (h : Hd) (d : BitVec 5) (a : BitVec 5) (b : BitVec 5) : Statement (.cas h d a b) := by
  refine .inr (word_parcels h (27#6 ++ d ++ a ++ b ++ 0#4) _ ?_)
  simp only [BitVec.append_assoc, BitVec.cast_eq]
theorem casw (h : Hd) (d : BitVec 5) (a : BitVec 5) (b : BitVec 5) : Statement (.casw h d a b) := by
  refine .inr (word_parcels h (27#6 ++ d ++ a ++ b ++ 1#4) _ ?_)
  simp only [BitVec.append_assoc, BitVec.cast_eq]
theorem asc (h : Hd) (d : BitVec 5) (a : BitVec 5) (b : BitVec 5) (f : BitVec 4) : Statement (.asc h d a b f) := by
  refine .inr (word_parcels h (28#6 ++ d ++ a ++ b ++ f) _ ?_)
  simp only [BitVec.append_assoc, BitVec.cast_eq]
theorem ascCas (h : Hd) (d : BitVec 5) (a : BitVec 5) (b : BitVec 5) : Statement (.ascCas h d a b) := by
  refine .inr (word_parcels h (28#6 ++ d ++ a ++ b ++ 9#4) _ ?_)
  simp only [BitVec.append_assoc, BitVec.cast_eq]
theorem fence (h : Hd) (m : BitVec 16) (e : BitVec 3) : Statement (.fence h m e) := by
  refine .inr (word_parcels h (29#6 ++ m ++ e) _ ?_)
  simp only [BitVec.append_assoc, BitVec.cast_eq]
theorem sadd (h : Hd) (n : BitVec 6) (a : BitVec 5) : Statement (.sadd h n a) := by
  refine .inr (word_parcels h (960#11 ++ n ++ a ++ 0#3) _ ?_)
  simp only [BitVec.append_assoc, BitVec.cast_eq]
theorem saddi (h : Hd) (n : BitVec 6) (i : BitVec 5) : Statement (.saddi h n i) := by
  refine .inr (word_parcels h (960#11 ++ n ++ i ++ 1#3) _ ?_)
  simp only [BitVec.append_assoc, BitVec.cast_eq]
theorem swait (h : Hd) (n : BitVec 6) (a : BitVec 5) : Statement (.swait h n a) := by
  refine .inr (word_parcels h (960#11 ++ n ++ a ++ 2#3) _ ?_)
  simp only [BitVec.append_assoc, BitVec.cast_eq]
theorem sread (h : Hd) (d : BitVec 5) (n : BitVec 6) : Statement (.sread h d n) := by
  refine .inr (word_parcels h (30#6 ++ d ++ n ++ 3#8) _ ?_)
  simp only [BitVec.append_assoc, BitVec.cast_eq]
theorem sset (h : Hd) (n : BitVec 6) (a : BitVec 5) : Statement (.sset h n a) := by
  refine .inr (word_parcels h (960#11 ++ n ++ a ++ 4#3) _ ?_)
  simp only [BitVec.append_assoc, BitVec.cast_eq]
theorem qput (h : Hd) (q : BitVec 3) (a : BitVec 5) : Statement (.qput h q a) := by
  refine .inr (word_parcels h (992#11 ++ q ++ a ++ 0#6) _ ?_)
  simp only [BitVec.append_assoc, BitVec.cast_eq]
theorem qget (h : Hd) (d : BitVec 5) (q : BitVec 3) : Statement (.qget h d q) := by
  refine .inr (word_parcels h (31#6 ++ d ++ q ++ 16#11) _ ?_)
  simp only [BitVec.append_assoc, BitVec.cast_eq]
theorem qcount (h : Hd) (d : BitVec 5) (q : BitVec 3) : Statement (.qcount h d q) := by
  refine .inr (word_parcels h (31#6 ++ d ++ q ++ 32#11) _ ?_)
  simp only [BitVec.append_assoc, BitVec.cast_eq]
theorem qflush (h : Hd) (q : BitVec 3) : Statement (.qflush h q) := by
  refine .inr (word_parcels h (992#11 ++ q ++ 48#11) _ ?_)
  simp only [BitVec.append_assoc, BitVec.cast_eq]
theorem brq (h : Hd) (q : BitVec 3) (o : BitVec 16) : Statement (.brq h q o) := by
  refine .inr (word_parcels h (32#6 ++ q ++ o) _ ?_)
  simp only [BitVec.append_assoc, BitVec.cast_eq]
theorem csrr (h : Hd) (d : BitVec 5) (c : BitVec 12) : Statement (.csrr h d c) := by
  refine .inr (word_parcels h (33#6 ++ d ++ c ++ 0#2) _ ?_)
  simp only [BitVec.append_assoc, BitVec.cast_eq]
theorem csrw (h : Hd) (a : BitVec 5) (c : BitVec 12) : Statement (.csrw h a c) := by
  refine .inr (word_parcels h (34#6 ++ a ++ c ++ 0#2) _ ?_)
  simp only [BitVec.append_assoc, BitVec.cast_eq]
theorem csrwSet (h : Hd) (a : BitVec 5) (c : BitVec 12) : Statement (.csrwSet h a c) := by
  refine .inr (word_parcels h (34#6 ++ a ++ c ++ 1#2) _ ?_)
  simp only [BitVec.append_assoc, BitVec.cast_eq]
theorem csrwClr (h : Hd) (a : BitVec 5) (c : BitVec 12) : Statement (.csrwClr h a c) := by
  refine .inr (word_parcels h (34#6 ++ a ++ c ++ 2#2) _ ?_)
  simp only [BitVec.append_assoc, BitVec.cast_eq]
theorem nop (h : Hd) : Statement (.nop h) := .inr (word_parcels h (18350080#25) _ rfl)
theorem rdv (h : Hd) (m : BitVec 3) : Statement (.rdv h m) := by
  refine .inr (word_parcels h (2295808#22 ++ m) _ ?_)
  simp only [BitVec.append_assoc, BitVec.cast_eq]
theorem sysEnd (h : Hd) : Statement (.sysEnd h) := .inr (word_parcels h (18382848#25) _ rfl)
theorem trap (h : Hd) (c : BitVec 14) : Statement (.trap h c) := by
  refine .inr (word_parcels h (1123#11 ++ c) _ ?_)
  simp only [BitVec.append_assoc, BitVec.cast_eq]
theorem bkpt (h : Hd) : Statement (.bkpt h) := .inr (word_parcels h (18415616#25) _ rfl)
theorem lbar (h : Hd) (k : BitVec 3) : Statement (.lbar h k) := by
  refine .inr (word_parcels h (2304000#22 ++ k) _ ?_)
  simp only [BitVec.append_assoc, BitVec.cast_eq]
theorem mwait (h : Hd) (a : BitVec 5) : Statement (.mwait h a) := by
  refine .inr (word_parcels h (1126#11 ++ a ++ 0#9) _ ?_)
  simp only [BitVec.append_assoc, BitVec.cast_eq]
theorem mwaitTimeout (slot : Nat) (st : StreamId) : Statement (.mwaitTimeout slot st) := .inl rfl
theorem eret (h : Hd) : Statement (.eret h) := .inr (word_parcels h (18612224#25) _ rfl)
theorem wfe (h : Hd) : Statement (.wfe h) := .inr (word_parcels h (18628608#25) _ rfl)
theorem stopack (h : Hd) : Statement (.stopack h) := .inr (word_parcels h (18644992#25) _ rfl)
theorem taskadd (h : Hd) (d : BitVec 5) (a : BitVec 5) (b : BitVec 5) : Statement (.taskadd h d a b) := by
  refine .inr (word_parcels h (36#6 ++ d ++ a ++ b ++ 0#4) _ ?_)
  simp only [BitVec.append_assoc, BitVec.cast_eq]
theorem taskjoin (h : Hd) (d : BitVec 5) (a : BitVec 5) (b : BitVec 5) : Statement (.taskjoin h d a b) := by
  refine .inr (word_parcels h (36#6 ++ d ++ a ++ b ++ 1#4) _ ?_)
  simp only [BitVec.append_assoc, BitVec.cast_eq]
theorem taskget (h : Hd) (d : BitVec 5) (a : BitVec 5) (b : BitVec 5) : Statement (.taskget h d a b) := by
  refine .inr (word_parcels h (36#6 ++ d ++ a ++ b ++ 2#4) _ ?_)
  simp only [BitVec.append_assoc, BitVec.cast_eq]
theorem taskgetTimeout (slot : Nat) : Statement (.taskgetTimeout slot) := .inl rfl
theorem cpyLin (h : Hd) (d : BitVec 5) (a : BitVec 5) (b : BitVec 5) : Statement (.cpyLin h d a b) := by
  refine .inr (word_parcels h (37#6 ++ d ++ a ++ b ++ 0#4) _ ?_)
  simp only [BitVec.append_assoc, BitVec.cast_eq]
theorem cpyShp (h : Hd) (d : BitVec 5) (a : BitVec 5) (b : BitVec 5) : Statement (.cpyShp h d a b) := by
  refine .inr (word_parcels h (37#6 ++ d ++ a ++ b ++ 1#4) _ ?_)
  simp only [BitVec.append_assoc, BitVec.cast_eq]
theorem cpySlot (h : Hd) (d : BitVec 5) (a : BitVec 5) (b : BitVec 5) : Statement (.cpySlot h d a b) := by
  refine .inr (word_parcels h (37#6 ++ d ++ a ++ b ++ 2#4) _ ?_)
  simp only [BitVec.append_assoc, BitVec.cast_eq]
theorem cpyFill (h : Hd) (d : BitVec 5) (a : BitVec 5) (b : BitVec 5) : Statement (.cpyFill h d a b) := by
  refine .inr (word_parcels h (37#6 ++ d ++ a ++ b ++ 3#4) _ ?_)
  simp only [BitVec.append_assoc, BitVec.cast_eq]
theorem cpyCirc (h : Hd) (d : BitVec 5) (a : BitVec 5) (b : BitVec 5) : Statement (.cpyCirc h d a b) := by
  refine .inr (word_parcels h (37#6 ++ d ++ a ++ b ++ 4#4) _ ?_)
  simp only [BitVec.append_assoc, BitVec.cast_eq]
theorem gath (h : Hd) (d : BitVec 5) (a : BitVec 5) (b : BitVec 5) : Statement (.gath h d a b) := by
  refine .inr (word_parcels h (38#6 ++ d ++ a ++ b ++ 0#4) _ ?_)
  simp only [BitVec.append_assoc, BitVec.cast_eq]
theorem scat (h : Hd) (d : BitVec 5) (a : BitVec 5) (b : BitVec 5) : Statement (.scat h d a b) := by
  refine .inr (word_parcels h (38#6 ++ d ++ a ++ b ++ 1#4) _ ?_)
  simp only [BitVec.append_assoc, BitVec.cast_eq]
theorem racq (h : Hd) (d : BitVec 5) (n : BitVec 5) (r : BitVec 1) : Statement (.racq h d n r) := by
  refine .inr (word_parcels h (39#6 ++ d ++ n ++ 0#4 ++ r ++ 0#4) _ ?_)
  simp only [BitVec.append_assoc, BitVec.cast_eq]
theorem rrel (h : Hd) (n : BitVec 5) (r : BitVec 1) : Statement (.rrel h n r) := by
  refine .inr (word_parcels h (1248#11 ++ n ++ 0#4 ++ r ++ 1#4) _ ?_)
  simp only [BitVec.append_assoc, BitVec.cast_eq]
theorem rcan (h : Hd) (n : BitVec 5) (r : BitVec 1) : Statement (.rcan h n r) := by
  refine .inr (word_parcels h (1248#11 ++ n ++ 0#4 ++ r ++ 2#4) _ ?_)
  simp only [BitVec.append_assoc, BitVec.cast_eq]
theorem rstat (h : Hd) (d : BitVec 5) (n : BitVec 5) : Statement (.rstat h d n) := by
  refine .inr (word_parcels h (39#6 ++ d ++ n ++ 3#9) _ ?_)
  simp only [BitVec.append_assoc, BitVec.cast_eq]
theorem fempty (h : Hd) (a : BitVec 5) (b : BitVec 5) : Statement (.fempty h a b) := by
  refine .inr (word_parcels h (1280#11 ++ a ++ b ++ 0#4) _ ?_)
  simp only [BitVec.append_assoc, BitVec.cast_eq]
theorem ftest (h : Hd) (d : BitVec 5) (a : BitVec 5) : Statement (.ftest h d a) := by
  refine .inr (word_parcels h (40#6 ++ d ++ a ++ 1#9) _ ?_)
  simp only [BitVec.append_assoc, BitVec.cast_eq]
theorem fput (h : Hd) (d : BitVec 5) (a : BitVec 5) (b : BitVec 5) : Statement (.fput h d a b) := by
  refine .inr (word_parcels h (41#6 ++ d ++ a ++ b ++ 0#4) _ ?_)
  simp only [BitVec.append_assoc, BitVec.cast_eq]
theorem fget (h : Hd) (d : BitVec 5) (a : BitVec 5) (b : BitVec 5) : Statement (.fget h d a b) := by
  refine .inr (word_parcels h (41#6 ++ d ++ a ++ b ++ 1#4) _ ?_)
  simp only [BitVec.append_assoc, BitVec.cast_eq]
theorem fred (h : Hd) (d : BitVec 5) (a : BitVec 5) (b : BitVec 5) (f : BitVec 4) : Statement (.fred h d a b f) := by
  refine .inr (word_parcels h (42#6 ++ d ++ a ++ b ++ f) _ ?_)
  simp only [BitVec.append_assoc, BitVec.cast_eq]
theorem fll (h : Hd) (d : BitVec 5) (a : BitVec 5) : Statement (.fll h d a) := by
  refine .inr (word_parcels h (43#6 ++ d ++ a ++ 0#9) _ ?_)
  simp only [BitVec.append_assoc, BitVec.cast_eq]
theorem fsc (h : Hd) (d : BitVec 5) (a : BitVec 5) (b : BitVec 5) : Statement (.fsc h d a b) := by
  refine .inr (word_parcels h (43#6 ++ d ++ a ++ b ++ 1#4) _ ?_)
  simp only [BitVec.append_assoc, BitVec.cast_eq]
theorem fsig (h : Hd) (d : BitVec 5) (a : BitVec 5) (b : BitVec 5) : Statement (.fsig h d a b) := by
  refine .inr (word_parcels h (43#6 ++ d ++ a ++ b ++ 2#4) _ ?_)
  simp only [BitVec.append_assoc, BitVec.cast_eq]
theorem fcoll (h : Hd) (d : BitVec 5) (a : BitVec 5) (b : BitVec 5) : Statement (.fcoll h d a b) := by
  refine .inr (word_parcels h (43#6 ++ d ++ a ++ b ++ 3#4) _ ?_)
  simp only [BitVec.append_assoc, BitVec.cast_eq]
theorem segnew (h : Hd) (d : BitVec 5) (a : BitVec 5) (b : BitVec 5) : Statement (.segnew h d a b) := by
  refine .inr (word_parcels h (44#6 ++ d ++ a ++ b ++ 0#4) _ ?_)
  simp only [BitVec.append_assoc, BitVec.cast_eq]
theorem segatt (h : Hd) (d : BitVec 5) (a : BitVec 5) (l : BitVec 1) (w : BitVec 1) : Statement (.segatt h d a l w) := by
  refine .inr (word_parcels h (44#6 ++ d ++ a ++ 0#3 ++ l ++ w ++ 1#4) _ ?_)
  simp only [BitVec.append_assoc, BitVec.cast_eq]
theorem segdet (h : Hd) (d : BitVec 5) (a : BitVec 5) : Statement (.segdet h d a) := by
  refine .inr (word_parcels h (44#6 ++ d ++ a ++ 2#9) _ ?_)
  simp only [BitVec.append_assoc, BitVec.cast_eq]
theorem segevict (h : Hd) (d : BitVec 5) (a : BitVec 5) : Statement (.segevict h d a) := by
  refine .inr (word_parcels h (44#6 ++ d ++ a ++ 3#9) _ ?_)
  simp only [BitVec.append_assoc, BitVec.cast_eq]
theorem segdrop (h : Hd) (d : BitVec 5) (a : BitVec 5) : Statement (.segdrop h d a) := by
  refine .inr (word_parcels h (44#6 ++ d ++ a ++ 4#9) _ ?_)
  simp only [BitVec.append_assoc, BitVec.cast_eq]
theorem segqry (h : Hd) (d : BitVec 5) (a : BitVec 5) : Statement (.segqry h d a) := by
  refine .inr (word_parcels h (44#6 ++ d ++ a ++ 5#9) _ ?_)
  simp only [BitVec.append_assoc, BitVec.cast_eq]
theorem cflush (h : Hd) (d : BitVec 5) (a : BitVec 5) (b : BitVec 5) : Statement (.cflush h d a b) := by
  refine .inr (word_parcels h (45#6 ++ d ++ a ++ b ++ 0#4) _ ?_)
  simp only [BitVec.append_assoc, BitVec.cast_eq]
theorem cinv (h : Hd) (d : BitVec 5) (a : BitVec 5) (b : BitVec 5) : Statement (.cinv h d a b) := by
  refine .inr (word_parcels h (45#6 ++ d ++ a ++ b ++ 1#4) _ ?_)
  simp only [BitVec.append_assoc, BitVec.cast_eq]
theorem cclean (h : Hd) (d : BitVec 5) (a : BitVec 5) (b : BitVec 5) : Statement (.cclean h d a b) := by
  refine .inr (word_parcels h (45#6 ++ d ++ a ++ b ++ 2#4) _ ?_)
  simp only [BitVec.append_assoc, BitVec.cast_eq]
theorem cpref (h : Hd) (d : BitVec 5) (a : BitVec 5) (b : BitVec 5) : Statement (.cpref h d a b) := by
  refine .inr (word_parcels h (45#6 ++ d ++ a ++ b ++ 3#4) _ ?_)
  simp only [BitVec.append_assoc, BitVec.cast_eq]
theorem vadd (h : Hd) (d : BitVec 5) (a : BitVec 5) (b : BitVec 5) (m : BitVec 1) : Statement (.vadd h d a b m) := by
  refine .inr (word_parcels h (46#6 ++ d ++ a ++ b ++ m ++ 0#3) _ ?_)
  simp only [BitVec.append_assoc, BitVec.cast_eq]
theorem vsub (h : Hd) (d : BitVec 5) (a : BitVec 5) (b : BitVec 5) (m : BitVec 1) : Statement (.vsub h d a b m) := by
  refine .inr (word_parcels h (46#6 ++ d ++ a ++ b ++ m ++ 1#3) _ ?_)
  simp only [BitVec.append_assoc, BitVec.cast_eq]
theorem vmul (h : Hd) (d : BitVec 5) (a : BitVec 5) (b : BitVec 5) (m : BitVec 1) : Statement (.vmul h d a b m) := by
  refine .inr (word_parcels h (46#6 ++ d ++ a ++ b ++ m ++ 2#3) _ ?_)
  simp only [BitVec.append_assoc, BitVec.cast_eq]
theorem vfma (h : Hd) (d : BitVec 5) (a : BitVec 5) (b : BitVec 5) (m : BitVec 1) : Statement (.vfma h d a b m) := by
  refine .inr (word_parcels h (46#6 ++ d ++ a ++ b ++ m ++ 3#3) _ ?_)
  simp only [BitVec.append_assoc, BitVec.cast_eq]
theorem vfms (h : Hd) (d : BitVec 5) (a : BitVec 5) (b : BitVec 5) (m : BitVec 1) : Statement (.vfms h d a b m) := by
  refine .inr (word_parcels h (46#6 ++ d ++ a ++ b ++ m ++ 4#3) _ ?_)
  simp only [BitVec.append_assoc, BitVec.cast_eq]
theorem vfnma (h : Hd) (d : BitVec 5) (a : BitVec 5) (b : BitVec 5) (m : BitVec 1) : Statement (.vfnma h d a b m) := by
  refine .inr (word_parcels h (46#6 ++ d ++ a ++ b ++ m ++ 5#3) _ ?_)
  simp only [BitVec.append_assoc, BitVec.cast_eq]
theorem vmax (h : Hd) (d : BitVec 5) (a : BitVec 5) (b : BitVec 5) (m : BitVec 1) : Statement (.vmax h d a b m) := by
  refine .inr (word_parcels h (46#6 ++ d ++ a ++ b ++ m ++ 6#3) _ ?_)
  simp only [BitVec.append_assoc, BitVec.cast_eq]
theorem vmin (h : Hd) (d : BitVec 5) (a : BitVec 5) (b : BitVec 5) (m : BitVec 1) : Statement (.vmin h d a b m) := by
  refine .inr (word_parcels h (46#6 ++ d ++ a ++ b ++ m ++ 7#3) _ ?_)
  simp only [BitVec.append_assoc, BitVec.cast_eq]
theorem vabs (h : Hd) (d : BitVec 5) (a : BitVec 5) : Statement (.vabs h d a) := by
  refine .inr (word_parcels h (47#6 ++ d ++ a ++ 0#9) _ ?_)
  simp only [BitVec.append_assoc, BitVec.cast_eq]
theorem vneg (h : Hd) (d : BitVec 5) (a : BitVec 5) : Statement (.vneg h d a) := by
  refine .inr (word_parcels h (47#6 ++ d ++ a ++ 1#9) _ ?_)
  simp only [BitVec.append_assoc, BitVec.cast_eq]
theorem vrcpe (h : Hd) (d : BitVec 5) (a : BitVec 5) : Statement (.vrcpe h d a) := by
  refine .inr (word_parcels h (47#6 ++ d ++ a ++ 2#9) _ ?_)
  simp only [BitVec.append_assoc, BitVec.cast_eq]
theorem vrsqe (h : Hd) (d : BitVec 5) (a : BitVec 5) : Statement (.vrsqe h d a) := by
  refine .inr (word_parcels h (47#6 ++ d ++ a ++ 3#9) _ ?_)
  simp only [BitVec.append_assoc, BitVec.cast_eq]
theorem vfloor (h : Hd) (d : BitVec 5) (a : BitVec 5) : Statement (.vfloor h d a) := by
  refine .inr (word_parcels h (47#6 ++ d ++ a ++ 4#9) _ ?_)
  simp only [BitVec.append_assoc, BitVec.cast_eq]
theorem vrnd (h : Hd) (d : BitVec 5) (a : BitVec 5) : Statement (.vrnd h d a) := by
  refine .inr (word_parcels h (47#6 ++ d ++ a ++ 5#9) _ ?_)
  simp only [BitVec.append_assoc, BitVec.cast_eq]
theorem vscale (h : Hd) (d : BitVec 5) (a : BitVec 5) (b : BitVec 5) (m : BitVec 1) : Statement (.vscale h d a b m) := by
  refine .inr (word_parcels h (47#6 ++ d ++ a ++ b ++ m ++ 6#3) _ ?_)
  simp only [BitVec.append_assoc, BitVec.cast_eq]
theorem viadd (h : Hd) (d : BitVec 5) (a : BitVec 5) (b : BitVec 5) (m : BitVec 1) : Statement (.viadd h d a b m) := by
  refine .inr (word_parcels h (48#6 ++ d ++ a ++ b ++ m ++ 0#3) _ ?_)
  simp only [BitVec.append_assoc, BitVec.cast_eq]
theorem visub (h : Hd) (d : BitVec 5) (a : BitVec 5) (b : BitVec 5) (m : BitVec 1) : Statement (.visub h d a b m) := by
  refine .inr (word_parcels h (48#6 ++ d ++ a ++ b ++ m ++ 1#3) _ ?_)
  simp only [BitVec.append_assoc, BitVec.cast_eq]
theorem vimul (h : Hd) (d : BitVec 5) (a : BitVec 5) (b : BitVec 5) (m : BitVec 1) : Statement (.vimul h d a b m) := by
  refine .inr (word_parcels h (48#6 ++ d ++ a ++ b ++ m ++ 2#3) _ ?_)
  simp only [BitVec.append_assoc, BitVec.cast_eq]
theorem vand (h : Hd) (d : BitVec 5) (a : BitVec 5) (b : BitVec 5) (m : BitVec 1) : Statement (.vand h d a b m) := by
  refine .inr (word_parcels h (48#6 ++ d ++ a ++ b ++ m ++ 3#3) _ ?_)
  simp only [BitVec.append_assoc, BitVec.cast_eq]
theorem vor (h : Hd) (d : BitVec 5) (a : BitVec 5) (b : BitVec 5) (m : BitVec 1) : Statement (.vor h d a b m) := by
  refine .inr (word_parcels h (48#6 ++ d ++ a ++ b ++ m ++ 4#3) _ ?_)
  simp only [BitVec.append_assoc, BitVec.cast_eq]
theorem vxor (h : Hd) (d : BitVec 5) (a : BitVec 5) (b : BitVec 5) (m : BitVec 1) : Statement (.vxor h d a b m) := by
  refine .inr (word_parcels h (48#6 ++ d ++ a ++ b ++ m ++ 5#3) _ ?_)
  simp only [BitVec.append_assoc, BitVec.cast_eq]
theorem vshl (h : Hd) (d : BitVec 5) (a : BitVec 5) (b : BitVec 5) (m : BitVec 1) : Statement (.vshl h d a b m) := by
  refine .inr (word_parcels h (48#6 ++ d ++ a ++ b ++ m ++ 6#3) _ ?_)
  simp only [BitVec.append_assoc, BitVec.cast_eq]
theorem vsar (h : Hd) (d : BitVec 5) (a : BitVec 5) (b : BitVec 5) (m : BitVec 1) : Statement (.vsar h d a b m) := by
  refine .inr (word_parcels h (48#6 ++ d ++ a ++ b ++ m ++ 7#3) _ ?_)
  simp only [BitVec.append_assoc, BitVec.cast_eq]
theorem vmov (h : Hd) (d : BitVec 5) (b : BitVec 5) (m : BitVec 1) : Statement (.vmov h d b m) := by
  refine .inr (word_parcels h (49#6 ++ d ++ 0#5 ++ b ++ m ++ 0#3) _ ?_)
  simp only [BitVec.append_assoc, BitVec.cast_eq]
theorem vsel (h : Hd) (d : BitVec 5) (a : BitVec 5) (b : BitVec 5) (m : BitVec 1) : Statement (.vsel h d a b m) := by
  refine .inr (word_parcels h (49#6 ++ d ++ a ++ b ++ m ++ 1#3) _ ?_)
  simp only [BitVec.append_assoc, BitVec.cast_eq]
theorem vclamp (h : Hd) (d : BitVec 5) (a : BitVec 5) (b : BitVec 5) (m : BitVec 1) : Statement (.vclamp h d a b m) := by
  refine .inr (word_parcels h (49#6 ++ d ++ a ++ b ++ m ++ 2#3) _ ?_)
  simp only [BitVec.append_assoc, BitVec.cast_eq]
theorem vshr (h : Hd) (d : BitVec 5) (a : BitVec 5) (b : BitVec 5) (m : BitVec 1) : Statement (.vshr h d a b m) := by
  refine .inr (word_parcels h (49#6 ++ d ++ a ++ b ++ m ++ 3#3) _ ?_)
  simp only [BitVec.append_assoc, BitVec.cast_eq]
theorem vcvt (h : Hd) (d : BitVec 5) (a : BitVec 5) (t : BitVec 1) (c : BitVec 4) (r : BitVec 3) : Statement (.vcvt h d a t c r) := by
  refine .inr (word_parcels h (50#6 ++ d ++ a ++ t ++ c ++ 0#1 ++ r) _ ?_)
  simp only [BitVec.append_assoc, BitVec.cast_eq]
theorem vcmp (h : Hd) (p : BitVec 3) (a : BitVec 5) (b : BitVec 5) (c : BitVec 4) (k : BitVec 2) : Statement (.vcmp h p a b c k) := by
  refine .inr (word_parcels h (51#6 ++ p ++ a ++ b ++ c ++ k) _ ?_)
  simp only [BitVec.append_assoc, BitVec.cast_eq]
theorem vradd (h : Hd) (d : BitVec 5) (a : BitVec 5) : Statement (.vradd h d a) := by
  refine .inr (word_parcels h (52#6 ++ d ++ a ++ 0#9) _ ?_)
  simp only [BitVec.append_assoc, BitVec.cast_eq]
theorem vrmax (h : Hd) (d : BitVec 5) (a : BitVec 5) : Statement (.vrmax h d a) := by
  refine .inr (word_parcels h (52#6 ++ d ++ a ++ 1#9) _ ?_)
  simp only [BitVec.append_assoc, BitVec.cast_eq]
theorem vrmin (h : Hd) (d : BitVec 5) (a : BitVec 5) : Statement (.vrmin h d a) := by
  refine .inr (word_parcels h (52#6 ++ d ++ a ++ 2#9) _ ?_)
  simp only [BitVec.append_assoc, BitVec.cast_eq]
theorem vraddx (h : Hd) (d : BitVec 5) (a : BitVec 5) : Statement (.vraddx h d a) := by
  refine .inr (word_parcels h (52#6 ++ d ++ a ++ 3#9) _ ?_)
  simp only [BitVec.append_assoc, BitVec.cast_eq]
theorem vperm (h : Hd) (d : BitVec 5) (a : BitVec 5) (b : BitVec 5) (m : BitVec 1) : Statement (.vperm h d a b m) := by
  refine .inr (word_parcels h (53#6 ++ d ++ a ++ b ++ m ++ 0#3) _ ?_)
  simp only [BitVec.append_assoc, BitVec.cast_eq]
theorem vrot (h : Hd) (d : BitVec 5) (a : BitVec 5) (b : BitVec 5) (m : BitVec 1) : Statement (.vrot h d a b m) := by
  refine .inr (word_parcels h (53#6 ++ d ++ a ++ b ++ m ++ 1#3) _ ?_)
  simp only [BitVec.append_assoc, BitVec.cast_eq]
theorem vshft (h : Hd) (d : BitVec 5) (a : BitVec 5) (b : BitVec 5) (m : BitVec 1) : Statement (.vshft h d a b m) := by
  refine .inr (word_parcels h (53#6 ++ d ++ a ++ b ++ m ++ 2#3) _ ?_)
  simp only [BitVec.append_assoc, BitVec.cast_eq]
theorem vdup (h : Hd) (d : BitVec 5) (a : BitVec 5) (b : BitVec 5) (m : BitVec 1) : Statement (.vdup h d a b m) := by
  refine .inr (word_parcels h (53#6 ++ d ++ a ++ b ++ m ++ 3#3) _ ?_)
  simp only [BitVec.append_assoc, BitVec.cast_eq]
theorem vbc (h : Hd) (d : BitVec 5) (a : BitVec 5) : Statement (.vbc h d a) := by
  refine .inr (word_parcels h (54#6 ++ d ++ a ++ 0#9) _ ?_)
  simp only [BitVec.append_assoc, BitVec.cast_eq]
theorem vext (h : Hd) (d : BitVec 5) (a : BitVec 5) (b : BitVec 5) : Statement (.vext h d a b) := by
  refine .inr (word_parcels h (54#6 ++ d ++ a ++ b ++ 1#4) _ ?_)
  simp only [BitVec.append_assoc, BitVec.cast_eq]
theorem vld (h : Hd) (d : BitVec 5) (a : BitVec 5) (c : BitVec 4) (o : BitVec 5) : Statement (.vld h d a c o) := by
  refine .inr (word_parcels h (55#6 ++ d ++ a ++ c ++ o) _ ?_)
  simp only [BitVec.append_assoc, BitVec.cast_eq]
theorem vst (h : Hd) (d : BitVec 5) (a : BitVec 5) (c : BitVec 4) (o : BitVec 5) : Statement (.vst h d a c o) := by
  refine .inr (word_parcels h (56#6 ++ d ++ a ++ c ++ o) _ ?_)
  simp only [BitVec.append_assoc, BitVec.cast_eq]
theorem vldl (h : Hd) (d : BitVec 5) (a : BitVec 5) (o : BitVec 8) : Statement (.vldl h d a o) := by
  refine .inr (word_parcels h (57#6 ++ d ++ a ++ o ++ 0#1) _ ?_)
  simp only [BitVec.append_assoc, BitVec.cast_eq]
theorem vstl (h : Hd) (d : BitVec 5) (a : BitVec 5) (o : BitVec 8) : Statement (.vstl h d a o) := by
  refine .inr (word_parcels h (57#6 ++ d ++ a ++ o ++ 1#1) _ ?_)
  simp only [BitVec.append_assoc, BitVec.cast_eq]
theorem vcord (h : Hd) (d : BitVec 5) (a : BitVec 5) (n : BitVec 5) (f : BitVec 3) : Statement (.vcord h d a n f) := by
  refine .inr (word_parcels h (58#6 ++ d ++ a ++ n ++ 0#1 ++ f) _ ?_)
  simp only [BitVec.append_assoc, BitVec.cast_eq]
theorem vwin (h : Hd) (t : BitVec 2) (u : BitVec 1) (k : BitVec 3) : Statement (.vwin h t u k) := by
  refine .inr (word_parcels h (472#9 ++ t ++ 0#4 ++ u ++ 0#2 ++ k ++ 0#4) _ ?_)
  simp only [BitVec.append_assoc, BitVec.cast_eq]
theorem pgo (h : Hd) (p : BitVec 3) : Statement (.pgo h p) := by
  refine .inr (word_parcels h (236#8 ++ p ++ 1#14) _ ?_)
  simp only [BitVec.append_assoc, BitVec.cast_eq]
theorem pstop (h : Hd) (p : BitVec 3) : Statement (.pstop h p) := by
  refine .inr (word_parcels h (236#8 ++ p ++ 2#14) _ ?_)
  simp only [BitVec.append_assoc, BitVec.cast_eq]
theorem vstp (h : Hd) (d : BitVec 5) (p : BitVec 3) : Statement (.vstp h d p) := by
  refine .inr (word_parcels h (59#6 ++ d ++ 0#2 ++ p ++ 3#9) _ ?_)
  simp only [BitVec.append_assoc, BitVec.cast_eq]
theorem vstat (h : Hd) (d : BitVec 5) (a : BitVec 5) : Statement (.vstat h d a) := by
  refine .inr (word_parcels h (59#6 ++ d ++ a ++ 4#9) _ ?_)
  simp only [BitVec.append_assoc, BitVec.cast_eq]
theorem portPrefetch (slot : Nat) (port : Nat) : Statement (.portPrefetch slot port) := .inl rfl
theorem mcfg (h : Hd) (c : BitVec 8) (a : BitVec 5) : Statement (.mcfg h c a) := by
  refine .inr (word_parcels h (60#6 ++ c ++ a ++ 0#6) _ ?_)
  simp only [BitVec.append_assoc, BitVec.cast_eq]
theorem mma (h : Hd) : Statement (.mma h) := .inr (word_parcels h (31981568#25) _ rfl)
theorem mmac (h : Hd) : Statement (.mmac h) := .inr (word_parcels h (31981569#25) _ rfl)
theorem trn (h : Hd) (d : BitVec 2) (t : BitVec 2) : Statement (.trn h d t) := by
  refine .inr (word_parcels h (976#10 ++ d ++ t ++ 2#11) _ ?_)
  simp only [BitVec.append_assoc, BitVec.cast_eq]
theorem prm (h : Hd) (d : BitVec 2) (t : BitVec 2) : Statement (.prm h d t) := by
  refine .inr (word_parcels h (976#10 ++ d ++ t ++ 3#11) _ ?_)
  simp only [BitVec.append_assoc, BitVec.cast_eq]
theorem rred (h : Hd) (d : BitVec 2) (t : BitVec 2) : Statement (.rred h d t) := by
  refine .inr (word_parcels h (976#10 ++ d ++ t ++ 4#11) _ ?_)
  simp only [BitVec.append_assoc, BitVec.cast_eq]
theorem zero (h : Hd) (m : BitVec 4) : Statement (.zero h m) := by
  refine .inr (word_parcels h (976#10 ++ m ++ 5#11) _ ?_)
  simp only [BitVec.append_assoc, BitVec.cast_eq]
theorem mclaim (h : Hd) (n : BitVec 4) : Statement (.mclaim h n) := by
  refine .inr (word_parcels h (992#10 ++ n ++ 0#11) _ ?_)
  simp only [BitVec.append_assoc, BitVec.cast_eq]
theorem mrel (h : Hd) (n : BitVec 4) : Statement (.mrel h n) := by
  refine .inr (word_parcels h (992#10 ++ n ++ 1#11) _ ?_)
  simp only [BitVec.append_assoc, BitVec.cast_eq]
theorem mwaitn (h : Hd) (a : BitVec 5) : Statement (.mwaitn h a) := by
  refine .inr (word_parcels h (15872#14 ++ a ++ 2#6) _ ?_)
  simp only [BitVec.append_assoc, BitVec.cast_eq]
theorem mpri (h : Hd) (a : BitVec 5) : Statement (.mpri h a) := by
  refine .inr (word_parcels h (15872#14 ++ a ++ 3#6) _ ?_)
  simp only [BitVec.append_assoc, BitVec.cast_eq]
theorem mfmt (h : Hd) (e : BitVec 4) (a : BitVec 5) : Statement (.mfmt h e a) := by
  refine .inr (word_parcels h (992#10 ++ e ++ a ++ 4#6) _ ?_)
  simp only [BitVec.append_assoc, BitVec.cast_eq]
theorem mret (h : Hd) (t : BitVec 2) : Statement (.mret h t) := by
  refine .inr (word_parcels h (3968#12 ++ t ++ 5#11) _ ?_)
  simp only [BitVec.append_assoc, BitVec.cast_eq]
theorem mstat (h : Hd) (c : BitVec 1) (d : BitVec 5) : Statement (.mstat h c d) := by
  refine .inr (word_parcels h (7936#13 ++ c ++ d ++ 6#6) _ ?_)
  simp only [BitVec.append_assoc, BitVec.cast_eq]
theorem nestStart (core : Nat) : Statement (.nestStart core) := .inl rfl
theorem kstep (core : Nat) : Statement (.kstep core) := .inl rfl
theorem retirementComplete (core : Nat) : Statement (.retirementComplete core) := .inl rfl
theorem tileOpComplete (core : Nat) : Statement (.tileOpComplete core) := .inl rfl
theorem nestEntryComplete (slot : Nat) : Statement (.nestEntryComplete slot) := .inl rfl
theorem streamAgeTick : Statement .streamAgeTick := .inl rfl
theorem nestAgeTick : Statement .nestAgeTick := .inl rfl
theorem recordAgeTick : Statement .recordAgeTick := .inl rfl
theorem packetAgeTick : Statement .packetAgeTick := .inl rfl
theorem commandStart (slot : Nat) (fq : Bool) : Statement (.commandStart slot fq) := .inl rfl
theorem commandUnitLand (slot : Nat) (fq : Bool) (idx : Nat) (unit : Nat) : Statement (.commandUnitLand slot fq idx unit) := .inl rfl
theorem commandComplete (slot : Nat) (fq : Bool) (idx : Nat) : Statement (.commandComplete slot fq idx) := .inl rfl
theorem circuitSlot (cluster : Nat) : Statement (.circuitSlot cluster) := .inl rfl
theorem reservationExpire : Statement .reservationExpire := .inl rfl
theorem fabricTimeout (tag : Nat) : Statement (.fabricTimeout tag) := .inl rfl
theorem graphTableLoad (g : Nat) : Statement (.graphTableLoad g) := .inl rfl
theorem completionProcessing (i : Nat) : Statement (.completionProcessing i) := .inl rfl
theorem loopEvaluate (g : Nat) (node : Nat) : Statement (.loopEvaluate g node) := .inl rfl
theorem endNode (g : Nat) (node : Nat) : Statement (.endNode g node) := .inl rfl
theorem launchAdmission : Statement .launchAdmission := .inl rfl
theorem coresidentReserve (launch : Nat) (slot : Nat) : Statement (.coresidentReserve launch slot) := .inl rfl
theorem cowaitTimeout (launch : Nat) : Statement (.cowaitTimeout launch) := .inl rfl
theorem hierarchyExpansion (launch : Nat) : Statement (.hierarchyExpansion launch) := .inl rfl
theorem recordReady (record : Nat) : Statement (.recordReady record) := .inl rfl
theorem taskPop (slot : Nat) (pick : Nat) : Statement (.taskPop slot pick) := .inl rfl
theorem jobStart (slot : Nat) : Statement (.jobStart slot) := .inl rfl
theorem jobEnd (slot : Nat) : Statement (.jobEnd slot) := .inl rfl
theorem spillRefill (bank : Nat) : Statement (.spillRefill bank) := .inl rfl
theorem preemptionRequest (id : Nat) (victim : Nat) : Statement (.preemptionRequest id victim) := .inl rfl
theorem affinityRelax (record : Nat) : Statement (.affinityRelax record) := .inl rfl
theorem tqReprio (m : Master) (d : Word) : Statement (.tqReprio m d) := .inl rfl
theorem clusterShareWrite (m : Master) (cluster : Nat) (d : Word) : Statement (.clusterShareWrite m cluster d) := .inl rfl
theorem tlbinv (m : Master) (d : Word) : Statement (.tlbinv m d) := .inl rfl
theorem tlbinvComplete : Statement .tlbinvComplete := .inl rfl
theorem rangeCtlWrite (m : Master) (range : Nat) (d : Word) : Statement (.rangeCtlWrite m range d) := .inl rfl
theorem govLimitsWrite (m : Master) (d : Word) : Statement (.govLimitsWrite m d) := .inl rfl
theorem ballastStep : Statement .ballastStep := .inl rfl
theorem tarnFillComplete (ctx : Nat) (name : Nat) : Statement (.tarnFillComplete ctx name) := .inl rfl
theorem tarnWritebackComplete (ctx : Nat) (name : Nat) : Statement (.tarnWritebackComplete ctx name) := .inl rfl
theorem tarnMigration (ctx : Nat) (name : Nat) : Statement (.tarnMigration ctx name) := .inl rfl
theorem dataFlit (port : Nat) (flit : Flit) : Statement (.dataFlit port flit) := .inl rfl
theorem creditFlit (port : Nat) (flit : Flit) : Statement (.creditFlit port flit) := .inl rfl
theorem nackFlit (port : Nat) (flit : Flit) : Statement (.nackFlit port flit) := .inl rfl
theorem shedreqFlit (port : Nat) (flit : Flit) : Statement (.shedreqFlit port flit) := .inl rfl
theorem restripeFlit (port : Nat) (flit : Flit) : Statement (.restripeFlit port flit) := .inl rfl
theorem abortFlit (port : Nat) (flit : Flit) : Statement (.abortFlit port flit) := .inl rfl
theorem uncorrectableCodeword (port : Nat) (lane : Nat) : Statement (.uncorrectableCodeword port lane) := .inl rfl
theorem shedWindowEnd (port : Nat) : Statement (.shedWindowEnd port) := .inl rfl
theorem linkDown (port : Nat) (dir : LinkDir) : Statement (.linkDown port dir) := .inl rfl
theorem routeSelect (port : Nat) (vc : Nat) : Statement (.routeSelect port vc) := .inl rfl
theorem escapeEntry (port : Nat) (vc : Nat) : Statement (.escapeEntry port vc) := .inl rfl
theorem egressSend (port : Nat) : Statement (.egressSend port) := .inl rfl
theorem escctlFlip (m : Master) (d : Word) : Statement (.escctlFlip m d) := .inl rfl
theorem put : Statement .put := .inl rfl
theorem getreq : Statement .getreq := .inl rfl
theorem getdata : Statement .getdata := .inl rfl
theorem sig : Statement .sig := .inl rfl
theorem fllRequest : Statement .fllRequest := .inl rfl
theorem fscRequest : Statement .fscRequest := .inl rfl
theorem ack : Statement .ack := .inl rfl
theorem install (m : Master) (addr : Word) : Statement (.install m addr) := .inl rfl
theorem remove (m : Master) (addr : Word) : Statement (.remove m addr) := .inl rfl
theorem removeComplete : Statement .removeComplete := .inl rfl
theorem collectiveStart (slot : Nat) : Statement (.collectiveStart slot) := .inl rfl
theorem bucketSend (group : Nat) (inst : Nat) : Statement (.bucketSend group inst) := .inl rfl
theorem red : Statement .red := .inl rfl
theorem bucketTimeout (node : Nat) (key : Nat) : Statement (.bucketTimeout node key) := .inl rfl
theorem collResult : Statement .collResult := .inl rfl
theorem collIncomplete : Statement .collIncomplete := .inl rfl
theorem collError : Statement .collError := .inl rfl
theorem noResultTimeout (group : Nat) (inst : Nat) : Statement (.noResultTimeout group inst) := .inl rfl
theorem stop (core : Nat) : Statement (.stop core) := .inl rfl
theorem resume (core : Nat) : Statement (.resume core) := .inl rfl
theorem kill (core : Nat) : Statement (.kill core) := .inl rfl
theorem report (core : Nat) : Statement (.report core) := .inl rfl
theorem fwCommandComplete (core : Nat) : Statement (.fwCommandComplete core) := .inl rfl
theorem fwSelWrite (core : Nat) (d : Word) : Statement (.fwSelWrite core d) := .inl rfl
theorem fwJcsrWrite (core : Nat) (d : Word) : Statement (.fwJcsrWrite core d) := .inl rfl
theorem fwTick : Statement .fwTick := .inl rfl
theorem wdageExpire (slot : Nat) (st : StreamId) : Statement (.wdageExpire slot st) := .inl rfl
theorem jobTrap (slot : Nat) : Statement (.jobTrap slot) := .inl rfl
theorem fwContextRestart (core : Nat) : Statement (.fwContextRestart core) := .inl rfl
theorem scanDrain (core : Nat) : Statement (.scanDrain core) := .inl rfl
theorem coppiceScan (core : Nat) : Statement (.coppiceScan core) := .inl rfl
theorem scanDeferTimeout (core : Nat) : Statement (.scanDeferTimeout core) := .inl rfl
theorem scanEnd (core : Nat) (pass : Bool) : Statement (.scanEnd core pass) := .inl rfl
theorem checkpointClose : Statement .checkpointClose := .inl rfl
theorem closeComplete : Statement .closeComplete := .inl rfl
theorem rollback : Statement .rollback := .inl rfl
theorem sliceSpare (slice : Nat) : Statement (.sliceSpare slice) := .inl rfl
theorem laserSpare (bank : Nat) : Statement (.laserSpare bank) := .inl rfl
theorem hedgeSelWrite (m : Master) (d : Word) : Statement (.hedgeSelWrite m d) := .inl rfl
theorem hedgeDataWrite (m : Master) (d : Word) : Statement (.hedgeDataWrite m d) := .inl rfl
theorem hedgeApply : Statement .hedgeApply := .inl rfl
theorem patternTest (m : Master) (stack : Nat) (ch : Nat) (d : Word) : Statement (.patternTest m stack ch d) := .inl rfl
theorem patternTestComplete (stack : Nat) (ch : Nat) (pass : BitVec 66) (errs : Word) : Statement (.patternTestComplete stack ch pass errs) := .inl rfl
theorem rdallWrite (m : Master) (stack : Nat) (ch : Nat) (d : Word) : Statement (.rdallWrite m stack ch d) := .inl rfl
theorem wdallWrite (m : Master) (stack : Nat) (ch : Nat) (d : Word) : Statement (.wdallWrite m stack ch d) := .inl rfl
theorem repairWrite (m : Master) (stack : Nat) (ch : Nat) (d : Word) : Statement (.repairWrite m stack ch d) := .inl rfl
theorem chmodeWrite (m : Master) (stack : Nat) (ch : Nat) (d : Word) : Statement (.chmodeWrite m stack ch d) := .inl rfl
theorem channelOffline (stack : Nat) (ch : Nat) : Statement (.channelOffline stack ch) := .inl rfl
theorem stage (m : Master) (d : Word) : Statement (.stage m d) := .inl rfl
theorem stageComplete : Statement .stageComplete := .inl rfl
theorem activate (m : Master) (d : Word) : Statement (.activate m d) := .inl rfl
theorem abort (m : Master) (d : Word) : Statement (.abort m d) := .inl rfl
theorem svncommit (m : Master) (d : Word) : Statement (.svncommit m d) := .inl rfl
theorem ready (ctl : Nat) : Statement (.ready ctl) := .inl rfl
theorem handed (ctl : Nat) : Statement (.handed ctl) := .inl rfl
theorem healthy (ctl : Nat) : Statement (.healthy ctl) := .inl rfl
theorem updateDeadline : Statement .updateDeadline := .inl rfl
theorem switchWindowExpire : Statement .switchWindowExpire := .inl rfl
theorem coreFirmwareSwitch (core : Nat) : Statement (.coreFirmwareSwitch core) := .inl rfl
theorem fwHealth (core : Nat) (d : Word) : Statement (.fwHealth core d) := .inl rfl
theorem boot (ok : List Bool) : Statement (.boot ok) := .inl rfl
theorem clear (m : Master) : Statement (.clear m) := .inl rfl
theorem retry (m : Master) : Statement (.retry m) := .inl rfl
theorem getVersion (req : SpdmReq) : Statement (.getVersion req) := .inl rfl
theorem getCapabilities (req : SpdmReq) : Statement (.getCapabilities req) := .inl rfl
theorem negotiateAlgorithms (req : SpdmReq) : Statement (.negotiateAlgorithms req) := .inl rfl
theorem getDigests (req : SpdmReq) : Statement (.getDigests req) := .inl rfl
theorem getCertificate (req : SpdmReq) : Statement (.getCertificate req) := .inl rfl
theorem challenge (req : SpdmReq) : Statement (.challenge req) := .inl rfl
theorem getMeasurements (req : SpdmReq) : Statement (.getMeasurements req) := .inl rfl
theorem perst : Statement .perst := .inl rfl
theorem bar4Access (off : Nat) (op : HostOp) : Statement (.bar4Access off op) := .inl rfl
theorem msixMaskWrite (m : Master) (vec : Nat) (masked : Bool) : Statement (.msixMaskWrite m vec masked) := .inl rfl
theorem cxlLinkDown (p : Nat) : Statement (.cxlLinkDown p) := .inl rfl
theorem cxlLinkUp (p : Nat) : Statement (.cxlLinkUp p) := .inl rfl
theorem undervoltage : Statement .undervoltage := .inl rfl
theorem thermalThrottle (die : Nat) (temp : Nat) : Statement (.thermalThrottle die temp) := .inl rfl
theorem overtemperature (die : Nat) (temp : Nat) : Statement (.overtemperature die temp) := .inl rfl
theorem registerWrite (m : Master) (off : Nat) (d : Word) : Statement (.registerWrite m off d) := .inl rfl
theorem throttleRelease (temps : List Nat) : Statement (.throttleRelease temps) := .inl rfl
theorem laneRetrain (port : Nat) (lane : Nat) : Statement (.laneRetrain port lane) := .inl rfl
theorem controllerRestart (n : Nat) : Statement (.controllerRestart n) := .inl rfl

end Sys2Proof.Laws.Encoding
end

