-- ==== Sys2Proof/Tests/Slice0.lean ====
section
/-!
SUPPORT. Tests: words written out from the spec's encodings, small one-step tests whose expected results come from the spec, the
refusals of WellFormed, and for every statement with hypotheses a concrete state that meets them.
-/

namespace Sys2Proof.Tests

open Sys2Proof.Machine

set_option Elab.async false

/-! ## Small states -/

/-- `s` with the A stream of job slot 0 at hand. -/
def atA (s : State) : State := { s with issue := { agent := ⟨0, .a⟩ } }
/-- `s` with the M stream of job slot 0 at hand. -/
def atM (s : State) : State := { s with issue := { agent := ⟨0, .m⟩ } }
/-- `s` with the V stream of job slot 0 at hand. -/
def atV (s : State) : State := { s with issue := { agent := ⟨0, .v⟩ } }
/-- `s` with the firmware context of core 0 at hand. -/
def atFw (s : State) : State := { s with issue := { agent := ⟨fwSlot 0, .a⟩ } }
/-- `s` with a context of an embedded controller at hand. -/
def atCtl (n : Nat) (s : State) : State := { s with issue := { agent := ⟨ctlSlot n, .a⟩ } }
/-- As `atA`, in an exposed block. -/
def exposedA (s : State) : State := (atA s).modMyStream ({ · with exposed := true })
/-- `s` with register `n` of the stream at hand holding `v`. -/
def withX (s : State) (n : Nat) (v : Word) : State := s.modMyStream fun t => { t with x := t.x.setIfInBounds n v }
/-- A block of two parcels at an address, run once. -/
def smallBlock (h : Word) : Block :=
  { hdr := h, rot := false, exp := false, stg := false, stages := 0, len := 2, n := 1, k := 0, pos := 0, body := [], drain := none }
/-- `s` whose job slot 0 has 64 KiB of its core's scratchpad, with X1 of the stream at hand at its first byte. -/
def withPart (s : State) : State := withX (s.modSlot 0 ({ · with partStart := 0, partLen := 65536 })) 1 0x8000000000000000
/-- `s` whose class 0 master of context 0 may read and write the chip scratchpad. -/
def withChip (s : State) : State :=
  { s with hedge := { s.hedge with tables := sput s.hedge.tables 20 { windows := [(0, 0, 4095)], perms := [(0, 3)] } } }
/-- The V stream of job slot 0 at hand, its job holding tile 0, which is FP32. -/
def vState : State := atV (State.reset.modSlot 0 ({ · with tilesMask := 1 }))
/-- As `vState`, the tile being INT32. -/
def vIntState : State := vState.modCore 0 ({ · with ttype := [(0, .int32)] })
/-- The M stream of job slot 0 at hand, its job holding tiles 0 and 1. -/
def mState : State := atM (State.reset.modSlot 0 ({ · with tilesMask := 3, maxDepth := 4096 }))

/-! ## Decoding: words written out bit by bit from the spec's encodings -/

/-- The instruction of a 32-bit word: class, S, G, OP, then the fields of the format, from bit 31 down (R43, R63, R64). -/
def word (w : Nat) : Option Instr := decodeTableWord 32 w
/-- The instruction of a compact parcel: class 0, op5, a, b (R41, R45). -/
def parcel (w : Nat) : Option Instr := decodeTableWord 16 w

/-- R63, R112: ALU, opcode 0x00. -/
theorem test_decode_alu :
    word 0b10_1_0011_000000_00001_00010_00011_0000 = some (.add ⟨true, 3⟩ 1 2 3) ∧
    word 0b10_1_0011_000000_00001_00010_00011_0001 = some (.sub ⟨true, 3⟩ 1 2 3) ∧
    word 0b10_1_0011_000000_00001_00010_00011_0010 = some (.and ⟨true, 3⟩ 1 2 3) ∧
    word 0b10_1_0011_000000_00001_00010_00011_0011 = some (.or ⟨true, 3⟩ 1 2 3) ∧
    word 0b10_1_0011_000000_00001_00010_00011_0100 = some (.xor ⟨true, 3⟩ 1 2 3) ∧
    word 0b10_1_0011_000000_00001_00010_00011_0101 = some (.shl ⟨true, 3⟩ 1 2 3) ∧
    word 0b10_1_0011_000000_00001_00010_00011_0110 = some (.shr ⟨true, 3⟩ 1 2 3) ∧
    word 0b10_1_0011_000000_00001_00010_00011_0111 = some (.sar ⟨true, 3⟩ 1 2 3) ∧
    word 0b10_1_0011_000000_00001_00010_00011_1000 = some (.min ⟨true, 3⟩ 1 2 3) ∧
    word 0b10_1_0011_000000_00001_00010_00011_1001 = some (.max ⟨true, 3⟩ 1 2 3) ∧
    word 0b10_1_0011_000000_00001_00010_00011_1010 = some (.umin ⟨true, 3⟩ 1 2 3) ∧
    word 0b10_1_0011_000000_00001_00010_00011_1011 = some (.umax ⟨true, 3⟩ 1 2 3) ∧
    word 0b10_1_0011_000000_00001_00010_00011_1100 = some (.mul ⟨true, 3⟩ 1 2 3) ∧
    word 0b10_1_0011_000000_00001_00010_00011_1101 = some (.mulh ⟨true, 3⟩ 1 2 3) ∧
    word 0b10_1_0011_000000_00001_00010_00011_1110 = some (.umulh ⟨true, 3⟩ 1 2 3) := by decide +kernel

/-- R63, R113: ALU2, opcode 0x01; the unary forms have xb = 0. -/
theorem test_decode_alu2 :
    word 0b10_1_0011_000001_00100_00101_00110_0000 = some (.div ⟨true, 3⟩ 4 5 6) ∧
    word 0b10_1_0011_000001_00100_00101_00110_0001 = some (.udiv ⟨true, 3⟩ 4 5 6) ∧
    word 0b10_1_0011_000001_00100_00101_00110_0010 = some (.rem ⟨true, 3⟩ 4 5 6) ∧
    word 0b10_1_0011_000001_00100_00101_00110_0011 = some (.urem ⟨true, 3⟩ 4 5 6) ∧
    word 0b10_1_0011_000001_00100_00101_00000_0100 = some (.clz ⟨true, 3⟩ 4 5) ∧
    word 0b10_1_0011_000001_00100_00101_00000_0101 = some (.popc ⟨true, 3⟩ 4 5) ∧
    word 0b10_1_0011_000001_00100_00101_00000_0110 = some (.brev ⟨true, 3⟩ 4 5) ∧
    word 0b10_1_0011_000001_00100_00101_00000_0111 = some (.sextb ⟨true, 3⟩ 4 5) ∧
    word 0b10_1_0011_000001_00100_00101_00000_1000 = some (.sexth ⟨true, 3⟩ 4 5) ∧
    word 0b10_1_0011_000001_00100_00101_00000_1001 = some (.sextw ⟨true, 3⟩ 4 5) ∧
    word 0b10_1_0011_000001_00100_00101_00000_1010 = some (.zextw ⟨true, 3⟩ 4 5) ∧
    word 0b10_1_0011_000001_00100_00101_00110_1011 = some (.slt ⟨true, 3⟩ 4 5 6) ∧
    word 0b10_1_0011_000001_00100_00101_00110_1100 = some (.uslt ⟨true, 3⟩ 4 5 6) := by decide +kernel

/-- R63, R65, R66: the immediate forms, opcodes 0x02 to 0x09. -/
theorem test_decode_immediates :
    word 0b10_1_0011_000010_00111_01000_111111011 = some (.addi ⟨true, 3⟩ 7 8 0x1FB) ∧
    word 0b10_1_0011_000011_00111_01000_111111011 = some (.andi ⟨true, 3⟩ 7 8 0x1FB) ∧
    word 0b10_1_0011_000100_00111_01000_111111011 = some (.ori ⟨true, 3⟩ 7 8 0x1FB) ∧
    word 0b10_1_0011_000101_00111_01000_111111011 = some (.xori ⟨true, 3⟩ 7 8 0x1FB) ∧
    word 0b10_1_0011_000110_00111_01000_00_0_101101 = some (.shli ⟨true, 3⟩ 7 8 45) ∧
    word 0b10_1_0011_000110_00111_01000_01_0_101101 = some (.shri ⟨true, 3⟩ 7 8 45) ∧
    word 0b10_1_0011_000110_00111_01000_10_0_101101 = some (.sari ⟨true, 3⟩ 7 8 45) ∧
    word 0b10_1_0011_000111_01001_11111111111110 = some (.movi ⟨true, 3⟩ 9 0x3FFE) ∧
    word 0b10_1_0011_001000_01001_00000000000011 = some (.ldlit ⟨true, 3⟩ 9 3) ∧
    word 0b10_1_0011_001001_00000_01010_000010001 = some (.setlc ⟨true, 3⟩ 10 17) := by decide +kernel

/-- R63: CMP, CMPI and VCMP, the XC layout. -/
theorem test_decode_compares :
    word 0b10_1_0011_001010_010_01011_01100_0100_01 = some (.cmp ⟨true, 3⟩ 2 11 12 4 1) ∧
    word 0b10_1_0011_001011_011_01011_11111_0111_10 = some (.cmpi ⟨true, 3⟩ 3 11 31 7 2) ∧
    word 0b10_1_0011_110011_111_01011_01100_1011_11 = some (.vcmp ⟨true, 3⟩ 7 11 12 11 3) := by decide +kernel

/-- R63, R64, R66: BR, CALL, JR and BRQ. -/
theorem test_decode_transfers :
    word 0b10_1_0011_001100_1111111111111111100 = some (.br ⟨true, 3⟩ 0x7FFFC) ∧
    word 0b10_1_0011_001101_0000000000000000110 = some (.call ⟨true, 3⟩ 6) ∧
    word 0b10_1_0011_001110_00000_01101_00000_0000 = some (.jmp ⟨true, 3⟩ 13) ∧
    word 0b10_1_0011_001110_00000_01101_00000_0001 = some (.callr ⟨true, 3⟩ 13) ∧
    word 0b10_1_0011_001110_00000_00000_00000_0010 = some (.ret ⟨true, 3⟩) ∧
    word 0b10_1_0011_100000_101_1111111111111000 = some (.brq ⟨true, 3⟩ 5 0xFFF8) := by decide +kernel

/-- R64, R66: PLOG, opcode 0x0F; in PCNT pd names a register. -/
theorem test_decode_predicates :
    word 0b10_1_0011_001111_00010_0011_0100_000_000 = some (.pand ⟨true, 3⟩ 2 3 4) ∧
    word 0b10_1_0011_001111_00010_0011_0100_000_001 = some (.por ⟨true, 3⟩ 2 3 4) ∧
    word 0b10_1_0011_001111_00010_0011_0100_000_010 = some (.pxor ⟨true, 3⟩ 2 3 4) ∧
    word 0b10_1_0011_001111_00010_0011_0100_000_011 = some (.pandn ⟨true, 3⟩ 2 3 4) ∧
    word 0b10_1_0011_001111_00010_0011_0000_000_100 = some (.pnot ⟨true, 3⟩ 2 3) ∧
    word 0b10_1_0011_001111_00010_0011_0000_000_101 = some (.pmov ⟨true, 3⟩ 2 3) ∧
    word 0b10_1_0011_001111_00010_0011_0000_000_110 = some (.pbcast ⟨true, 3⟩ 2 3) ∧
    word 0b10_1_0011_001111_10010_0011_0000_000_111 = some (.pcnt ⟨true, 3⟩ 18 3) := by decide +kernel

/-- R63: the XM layout, opcodes 0x10 to 0x17. -/
theorem test_decode_loads_and_stores :
    word 0b10_1_0011_010000_01110_01111_1001_10001 = some (.ldb ⟨true, 3⟩ 14 15 9 17) ∧
    word 0b10_1_0011_010001_01110_01111_1001_10001 = some (.ldh ⟨true, 3⟩ 14 15 9 17) ∧
    word 0b10_1_0011_010010_01110_01111_1001_10001 = some (.ldw ⟨true, 3⟩ 14 15 9 17) ∧
    word 0b10_1_0011_010011_01110_01111_1001_10001 = some (.ldd ⟨true, 3⟩ 14 15 9 17) ∧
    word 0b10_1_0011_010100_01110_01111_1001_10001 = some (.stb ⟨true, 3⟩ 14 15 9 17) ∧
    word 0b10_1_0011_010101_01110_01111_1001_10001 = some (.sth ⟨true, 3⟩ 14 15 9 17) ∧
    word 0b10_1_0011_010110_01110_01111_1001_10001 = some (.stw ⟨true, 3⟩ 14 15 9 17) ∧
    word 0b10_1_0011_010111_01110_01111_1001_10001 = some (.std ⟨true, 3⟩ 14 15 9 17) := by decide +kernel

/-- R63, R66: AMO, AMOW, AMON, CAS and ASC. -/
theorem test_decode_atomics :
    word 0b10_1_0011_011000_10000_10001_10010_1000 = some (.amo ⟨true, 3⟩ 16 17 18 8) ∧
    word 0b10_1_0011_011001_10000_10001_10010_0111 = some (.amow ⟨true, 3⟩ 16 17 18 7) ∧
    word 0b10_1_0011_011010_00000_10001_10010_1010 = some (.amon ⟨true, 3⟩ 17 18 10) ∧
    word 0b10_1_0011_011011_10000_10001_10010_0000 = some (.cas ⟨true, 3⟩ 16 17 18) ∧
    word 0b10_1_0011_011011_10000_10001_10010_0001 = some (.casw ⟨true, 3⟩ 16 17 18) ∧
    word 0b10_1_0011_011100_10000_10001_10010_1000 = some (.asc ⟨true, 3⟩ 16 17 18 8) ∧
    word 0b10_1_0011_011100_10000_10001_10010_1001 = some (.ascCas ⟨true, 3⟩ 16 17 18) := by decide +kernel

/-- R64, R66: FENCE, SEM and QUEUE. -/
theorem test_decode_synchronisation :
    word 0b10_1_0011_011101_1000000000000001_100 = some (.fence ⟨true, 3⟩ 0x8001 4) ∧
    word 0b10_1_0011_011110_00000_100001_10011_000 = some (.sadd ⟨true, 3⟩ 33 19) ∧
    word 0b10_1_0011_011110_00000_100001_10100_001 = some (.saddi ⟨true, 3⟩ 33 20) ∧
    word 0b10_1_0011_011110_00000_100001_10011_010 = some (.swait ⟨true, 3⟩ 33 19) ∧
    word 0b10_1_0011_011110_10101_100001_00000_011 = some (.sread ⟨true, 3⟩ 21 33) ∧
    word 0b10_1_0011_011110_00000_100001_10011_100 = some (.sset ⟨true, 3⟩ 33 19) ∧
    word 0b10_1_0011_011111_00000_110_10110_00_0000 = some (.qput ⟨true, 3⟩ 6 22) ∧
    word 0b10_1_0011_011111_10111_110_00000_01_0000 = some (.qget ⟨true, 3⟩ 23 6) ∧
    word 0b10_1_0011_011111_10111_110_00000_10_0000 = some (.qcount ⟨true, 3⟩ 23 6) ∧
    word 0b10_1_0011_011111_00000_110_00000_11_0000 = some (.qflush ⟨true, 3⟩ 6) := by decide +kernel

/-- R64, R66: CSRR, CSRW and SYS. -/
theorem test_decode_system :
    word 0b10_1_0011_100001_11000_000100100011_00 = some (.csrr ⟨true, 3⟩ 24 0x123) ∧
    word 0b10_1_0011_100010_11000_000100100011_00 = some (.csrw ⟨true, 3⟩ 24 0x123) ∧
    word 0b10_1_0011_100010_11000_000100100011_01 = some (.csrwSet ⟨true, 3⟩ 24 0x123) ∧
    word 0b10_1_0011_100010_11000_000100100011_10 = some (.csrwClr ⟨true, 3⟩ 24 0x123) ∧
    word 0b10_1_0011_100011_00000_00000000000000 = some (.nop ⟨true, 3⟩) ∧
    word 0b10_1_0011_100011_00001_00000000000101 = some (.rdv ⟨true, 3⟩ 5) ∧
    word 0b10_1_0011_100011_00010_00000000000000 = some (.sysEnd ⟨true, 3⟩) ∧
    word 0b10_1_0011_100011_00011_10101010111100 = some (.trap ⟨true, 3⟩ 0x2ABC) ∧
    word 0b10_1_0011_100011_00100_00000000000000 = some (.bkpt ⟨true, 3⟩) ∧
    word 0b10_1_0011_100011_00101_00000000000110 = some (.lbar ⟨true, 3⟩ 6) ∧
    word 0b10_1_0011_100011_00110_11001000000000 = some (.mwait ⟨true, 3⟩ 25) ∧
    word 0b10_1_0011_100011_10000_00000000000000 = some (.eret ⟨true, 3⟩) ∧
    word 0b10_1_0011_100011_10001_00000000000000 = some (.wfe ⟨true, 3⟩) ∧
    word 0b10_1_0011_100011_10010_00000000000000 = some (.stopack ⟨true, 3⟩) := by decide +kernel

/-- R158: the forms of TASK, CPY, GSC, RING and FE. -/
theorem test_decode_movement :
    word 0b10_1_0011_100100_11010_11011_11100_0000 = some (.taskadd ⟨true, 3⟩ 26 27 28) ∧
    word 0b10_1_0011_100100_11010_11011_11100_0001 = some (.taskjoin ⟨true, 3⟩ 26 27 28) ∧
    word 0b10_1_0011_100100_11010_11011_11100_0010 = some (.taskget ⟨true, 3⟩ 26 27 28) ∧
    word 0b10_1_0011_100101_11010_11011_11100_0000 = some (.cpyLin ⟨true, 3⟩ 26 27 28) ∧
    word 0b10_1_0011_100101_11010_11011_11100_0001 = some (.cpyShp ⟨true, 3⟩ 26 27 28) ∧
    word 0b10_1_0011_100101_11010_11011_11100_0010 = some (.cpySlot ⟨true, 3⟩ 26 27 28) ∧
    word 0b10_1_0011_100101_11010_11011_11100_0011 = some (.cpyFill ⟨true, 3⟩ 26 27 28) ∧
    word 0b10_1_0011_100101_11010_11011_11100_0100 = some (.cpyCirc ⟨true, 3⟩ 26 27 28) ∧
    word 0b10_1_0011_100110_11010_11011_11100_0000 = some (.gath ⟨true, 3⟩ 26 27 28) ∧
    word 0b10_1_0011_100110_11010_11011_11100_0001 = some (.scat ⟨true, 3⟩ 26 27 28) ∧
    word 0b10_1_0011_100111_11010_01111_00001_0000 = some (.racq ⟨true, 3⟩ 26 15 1) ∧
    word 0b10_1_0011_100111_00000_01111_00001_0001 = some (.rrel ⟨true, 3⟩ 15 1) ∧
    word 0b10_1_0011_100111_00000_01111_00001_0010 = some (.rcan ⟨true, 3⟩ 15 1) ∧
    word 0b10_1_0011_100111_11010_01111_00000_0011 = some (.rstat ⟨true, 3⟩ 26 15) ∧
    word 0b10_1_0011_101000_00000_11011_11100_0000 = some (.fempty ⟨true, 3⟩ 27 28) ∧
    word 0b10_1_0011_101000_11010_11011_00000_0001 = some (.ftest ⟨true, 3⟩ 26 27) := by decide +kernel

/-- R158: the forms of FXFER, FRED, FLINK, SEG and CACHE. -/
theorem test_decode_fabric_and_tarns :
    word 0b10_1_0011_101001_00001_00010_00011_0000 = some (.fput ⟨true, 3⟩ 1 2 3) ∧
    word 0b10_1_0011_101001_00001_00010_00011_0001 = some (.fget ⟨true, 3⟩ 1 2 3) ∧
    word 0b10_1_0011_101010_00001_00010_00011_1010 = some (.fred ⟨true, 3⟩ 1 2 3 10) ∧
    word 0b10_1_0011_101011_00001_00010_00000_0000 = some (.fll ⟨true, 3⟩ 1 2) ∧
    word 0b10_1_0011_101011_00001_00010_00011_0001 = some (.fsc ⟨true, 3⟩ 1 2 3) ∧
    word 0b10_1_0011_101011_00001_00010_00011_0010 = some (.fsig ⟨true, 3⟩ 1 2 3) ∧
    word 0b10_1_0011_101011_00001_00010_00011_0011 = some (.fcoll ⟨true, 3⟩ 1 2 3) ∧
    word 0b10_1_0011_101100_00001_00010_00011_0000 = some (.segnew ⟨true, 3⟩ 1 2 3) ∧
    word 0b10_1_0011_101100_00001_00010_00010_0001 = some (.segatt ⟨true, 3⟩ 1 2 1 0) ∧
    word 0b10_1_0011_101100_00001_00010_00001_0001 = some (.segatt ⟨true, 3⟩ 1 2 0 1) ∧
    word 0b10_1_0011_101100_00001_00010_00000_0010 = some (.segdet ⟨true, 3⟩ 1 2) ∧
    word 0b10_1_0011_101100_00001_00010_00000_0011 = some (.segevict ⟨true, 3⟩ 1 2) ∧
    word 0b10_1_0011_101100_00001_00010_00000_0100 = some (.segdrop ⟨true, 3⟩ 1 2) ∧
    word 0b10_1_0011_101100_00001_00010_00000_0101 = some (.segqry ⟨true, 3⟩ 1 2) ∧
    word 0b10_1_0011_101101_00001_00010_00011_0000 = some (.cflush ⟨true, 3⟩ 1 2 3) ∧
    word 0b10_1_0011_101101_00001_00010_00011_0001 = some (.cinv ⟨true, 3⟩ 1 2 3) ∧
    word 0b10_1_0011_101101_00001_00010_00011_0010 = some (.cclean ⟨true, 3⟩ 1 2 3) ∧
    word 0b10_1_0011_101101_00001_00010_00011_0011 = some (.cpref ⟨true, 3⟩ 1 2 3) ∧
    word 0xA148_8640 = some (.fput ⟨true, 0⟩ 2 3 4) ∧
    word 0xA161_8A31 = some (.segatt ⟨true, 0⟩ 6 5 1 1) := by decide +kernel

/-- R63, R66: VFP, VFP2, VINT and VMISC, the VV layout with a port operand. -/
theorem test_decode_vector_arithmetic :
    word 0b10_1_0011_101110_00100_00101_00110_1_000 = some (.vadd ⟨true, 3⟩ 4 5 6 1) ∧
    word 0b10_1_0011_101110_00100_00101_00110_1_001 = some (.vsub ⟨true, 3⟩ 4 5 6 1) ∧
    word 0b10_1_0011_101110_00100_00101_00110_1_010 = some (.vmul ⟨true, 3⟩ 4 5 6 1) ∧
    word 0b10_1_0011_101110_00100_00101_00110_1_011 = some (.vfma ⟨true, 3⟩ 4 5 6 1) ∧
    word 0b10_1_0011_101110_00100_00101_00110_1_100 = some (.vfms ⟨true, 3⟩ 4 5 6 1) ∧
    word 0b10_1_0011_101110_00100_00101_00110_1_101 = some (.vfnma ⟨true, 3⟩ 4 5 6 1) ∧
    word 0b10_1_0011_101110_00100_00101_00110_1_110 = some (.vmax ⟨true, 3⟩ 4 5 6 1) ∧
    word 0b10_1_0011_101110_00100_00101_00110_1_111 = some (.vmin ⟨true, 3⟩ 4 5 6 1) ∧
    word 0b10_1_0011_101111_00100_00101_00000_0_000 = some (.vabs ⟨true, 3⟩ 4 5) ∧
    word 0b10_1_0011_101111_00100_00101_00000_0_001 = some (.vneg ⟨true, 3⟩ 4 5) ∧
    word 0b10_1_0011_101111_00100_00101_00000_0_010 = some (.vrcpe ⟨true, 3⟩ 4 5) ∧
    word 0b10_1_0011_101111_00100_00101_00000_0_011 = some (.vrsqe ⟨true, 3⟩ 4 5) ∧
    word 0b10_1_0011_101111_00100_00101_00000_0_100 = some (.vfloor ⟨true, 3⟩ 4 5) ∧
    word 0b10_1_0011_101111_00100_00101_00000_0_101 = some (.vrnd ⟨true, 3⟩ 4 5) ∧
    word 0b10_1_0011_101111_00100_00101_00110_1_110 = some (.vscale ⟨true, 3⟩ 4 5 6 1) ∧
    word 0b10_1_0011_110000_00100_00101_00110_1_000 = some (.viadd ⟨true, 3⟩ 4 5 6 1) ∧
    word 0b10_1_0011_110000_00100_00101_00110_1_001 = some (.visub ⟨true, 3⟩ 4 5 6 1) ∧
    word 0b10_1_0011_110000_00100_00101_00110_1_010 = some (.vimul ⟨true, 3⟩ 4 5 6 1) ∧
    word 0b10_1_0011_110000_00100_00101_00110_1_011 = some (.vand ⟨true, 3⟩ 4 5 6 1) ∧
    word 0b10_1_0011_110000_00100_00101_00110_1_100 = some (.vor ⟨true, 3⟩ 4 5 6 1) ∧
    word 0b10_1_0011_110000_00100_00101_00110_1_101 = some (.vxor ⟨true, 3⟩ 4 5 6 1) ∧
    word 0b10_1_0011_110000_00100_00101_00110_1_110 = some (.vshl ⟨true, 3⟩ 4 5 6 1) ∧
    word 0b10_1_0011_110000_00100_00101_00110_1_111 = some (.vsar ⟨true, 3⟩ 4 5 6 1) ∧
    word 0b10_1_0011_110001_00100_00000_11110_0_000 = some (.vmov ⟨true, 3⟩ 4 30 0) ∧
    word 0b10_1_0011_110001_00100_00101_00110_1_001 = some (.vsel ⟨true, 3⟩ 4 5 6 1) ∧
    word 0b10_1_0011_110001_00100_00101_00110_1_010 = some (.vclamp ⟨true, 3⟩ 4 5 6 1) ∧
    word 0b10_1_0011_110001_00100_00101_00110_1_011 = some (.vshr ⟨true, 3⟩ 4 5 6 1) := by decide +kernel

/-- R66, R204, R214, R223, R230 to R233, R236: the other vector words. -/
theorem test_decode_vector_other :
    word 0b10_1_0011_110010_00100_00101_1_1101_0_100 = some (.vcvt ⟨true, 3⟩ 4 5 1 13 4) ∧
    word 0b10_1_0011_110100_00100_00101_00000_0_000 = some (.vradd ⟨true, 3⟩ 4 5) ∧
    word 0b10_1_0011_110100_00100_00101_00000_0_001 = some (.vrmax ⟨true, 3⟩ 4 5) ∧
    word 0b10_1_0011_110100_00100_00101_00000_0_010 = some (.vrmin ⟨true, 3⟩ 4 5) ∧
    word 0b10_1_0011_110100_00100_00101_00000_0_011 = some (.vraddx ⟨true, 3⟩ 4 5) ∧
    word 0b10_1_0011_110101_00100_00101_00110_1_000 = some (.vperm ⟨true, 3⟩ 4 5 6 1) ∧
    word 0b10_1_0011_110101_00100_00101_00110_1_001 = some (.vrot ⟨true, 3⟩ 4 5 6 1) ∧
    word 0b10_1_0011_110101_00100_00101_00110_1_010 = some (.vshft ⟨true, 3⟩ 4 5 6 1) ∧
    word 0b10_1_0011_110101_00100_00101_00110_1_011 = some (.vdup ⟨true, 3⟩ 4 5 6 1) ∧
    word 0b10_1_0011_110110_00100_00101_00000_0_000 = some (.vbc ⟨true, 3⟩ 4 5) ∧
    word 0b10_1_0011_110110_00100_00101_00110_0_001 = some (.vext ⟨true, 3⟩ 4 5 6) ∧
    word 0b10_1_0011_110111_00100_00101_1010_11101 = some (.vld ⟨true, 3⟩ 4 5 10 29) ∧
    word 0b10_1_0011_111000_00100_00101_1010_11101 = some (.vst ⟨true, 3⟩ 4 5 10 29) ∧
    word 0b10_1_0011_111001_00100_00101_11001000_0 = some (.vldl ⟨true, 3⟩ 4 5 200) ∧
    word 0b10_1_0011_111001_00100_00101_11001000_1 = some (.vstl ⟨true, 3⟩ 4 5 200) ∧
    word 0b10_1_0011_111010_00100_00101_11010_0_110 = some (.vcord ⟨true, 3⟩ 4 5 26 6) ∧
    word 0b10_1_0011_111011_00011_00001_00101_0_000 = some (.vwin ⟨true, 3⟩ 3 1 5) ∧
    word 0b10_1_0011_111011_00111_00000_00000_0_001 = some (.pgo ⟨true, 3⟩ 7) ∧
    word 0b10_1_0011_111011_00111_00000_00000_0_010 = some (.pstop ⟨true, 3⟩ 7) ∧
    word 0b10_1_0011_111011_11101_00111_00000_0_011 = some (.vstp ⟨true, 3⟩ 29 7) ∧
    word 0b10_1_0011_111011_11101_11100_00000_0_100 = some (.vstat ⟨true, 3⟩ 29 28) := by decide +kernel

/-- R243: the matrix words, the MC layout. -/
theorem test_decode_matrix :
    word 0b10_1_0011_111100_00111101_00111_000000 = some (.mcfg ⟨true, 3⟩ 0x3D 7) ∧
    word 0b10_1_0011_111101_00000000_00000_000000 = some (.mma ⟨true, 3⟩) ∧
    word 0b10_1_0011_111101_00000000_00000_000001 = some (.mmac ⟨true, 3⟩) ∧
    word 0b10_1_0011_111101_00001001_00000_000010 = some (.trn ⟨true, 3⟩ 2 1) ∧
    word 0b10_1_0011_111101_00001001_00000_000011 = some (.prm ⟨true, 3⟩ 2 1) ∧
    word 0b10_1_0011_111101_00001001_00000_000100 = some (.rred ⟨true, 3⟩ 2 1) ∧
    word 0b10_1_0011_111101_00001010_00000_000101 = some (.zero ⟨true, 3⟩ 10) ∧
    word 0b10_1_0011_111110_00001011_00000_000000 = some (.mclaim ⟨true, 3⟩ 11) ∧
    word 0b10_1_0011_111110_00001011_00000_000001 = some (.mrel ⟨true, 3⟩ 11) ∧
    word 0b10_1_0011_111110_00000000_01000_000010 = some (.mwaitn ⟨true, 3⟩ 8) ∧
    word 0b10_1_0011_111110_00000000_01000_000011 = some (.mpri ⟨true, 3⟩ 8) ∧
    word 0b10_1_0011_111110_00001111_01000_000100 = some (.mfmt ⟨true, 3⟩ 15 8) ∧
    word 0b10_1_0011_111110_00000010_00000_000101 = some (.mret ⟨true, 3⟩ 2) ∧
    word 0b10_1_0011_111110_00000001_01000_000110 = some (.mstat ⟨true, 3⟩ 1 8) := by decide +kernel

/-- R46: a block header: ROT, EXP, STG, STAGES, LEN, REPEAT. -/
theorem test_decode_header :
    word 0b1100_1_0_1_101_0101010101_101010111100 = some (.blockHeader 1 0 1 5 0x155 0xABC) := by decide +kernel

/-- R45: the compact parcels; a parcel of zeros is none. -/
theorem test_decode_compact :
    parcel 0b0_00001_01001_10001 = some (.compactAddX0 9 17) ∧
    parcel 0b0_00010_01001_10001 = some (.compactAdd 9 17) ∧
    parcel 0b0_00011_01001_10001 = some (.compactSub 9 17) ∧
    parcel 0b0_00100_01001_10001 = some (.compactAnd 9 17) ∧
    parcel 0b0_00101_01001_10001 = some (.compactOr 9 17) ∧
    parcel 0b0_00110_01001_10001 = some (.compactXor 9 17) ∧
    parcel 0b0_00111_01001_10001 = some (.compactAddi 9 17) ∧
    parcel 0b0_01000_01001_10001 = some (.compactMovi 9 17) ∧
    parcel 0b0_01001_01001_10001 = some (.compactShli 9 17) ∧
    parcel 0b0_01010_01001_10001 = some (.compactShri 9 17) ∧
    parcel 0b0_01011_01001_10001 = some (.compactSari 9 17) ∧
    parcel 0b0_01100_01001_10001 = some (.compactLdd 9 17) ∧
    parcel 0b0_01101_01001_10001 = some (.compactStd 9 17) ∧
    parcel 0b0_01110_01001_10001 = some (.compactSaddi 9 17) ∧
    parcel 0b0_01111_00101_10001 = some (.compactQput 5 17) ∧
    parcel 0b0_10000_01001_00101 = some (.compactQget 9 5) ∧
    parcel 0b0_10001_00000_00000 = some (.compactNop) ∧
    parcel 0b0_10010_00000_00000 = some (.compactEnd) := by decide +kernel

/-- R41, R45, R65, R66: reserved parcels, opcodes, functions and fields are refused. -/
theorem test_decode_refused :
    parcel 0b0_00000_00000_00000 = none ∧
    parcel 0b0_10011_00000_00000 = none ∧
    parcel 0b0_01110_01001_00000 = none ∧
    word 0b1101_0000000000000000000000000000 = none ∧
    word 0b1110_0000000000000000000000000000 = none ∧
    word 0b1111_0000000000000000000000000000 = none ∧
    word 0b10_1_0011_111111_0000000000000000000 = none ∧
    word 0b10_1_0011_000000_00001_00010_00011_1111 = none ∧
    word 0b10_1_0011_000001_00100_00101_00110_0100 = none ∧
    word 0b10_1_0011_000110_00111_01000_11_0_000100 = none ∧
    word 0b10_1_0011_000110_00111_01000_00_1_000100 = none ∧
    word 0b10_1_0011_001010_000_01011_01100_0100_01 = none ∧
    word 0b10_1_0011_001010_001_01011_01100_1100_01 = none ∧
    word 0b10_1_0011_011000_00001_00010_00011_1001 = none ∧
    word 0b10_1_0011_011101_0000000000000001_110 = none ∧
    word 0b10_1_0011_011110_00000_000001_00000_001 = none ∧
    word 0b10_1_0011_100111_00001_10000_00000_0000 = none ∧
    word 0b10_1_0011_101110_00001_00010_01000_1_000 = none ∧
    word 0b10_1_0011_110010_00001_00010_01111_0_000 = none ∧
    word 0b10_1_0011_111010_00001_00010_00111_0_000 = none ∧
    word 0b10_1_0011_111100_00000101_00001_000000 = none ∧
    word 0b10_1_0011_100011_00001_00000000000000 = none := by decide +kernel

/-! ## Ill-formed instructions are refused -/

/-- A flit of `n` bytes. -/
def flitOf (n : Nat) : Flit := List.replicate n 0
/-- A word's S and G fields. -/
def hd0 : Hd := ⟨true, 0⟩

/-- R33, R37: there are 4096 queues and 256 hardware slots. -/
theorem test_wf_queues :
    Instr.wf (.notify 0 4096) = false ∧ Instr.wf (.notify 0 4095) = true ∧ Instr.wf (.enable 0 4096) = false ∧ Instr.wf (.disable 0 4096) = false ∧
    Instr.wf (.entryFetch 256) = false ∧ Instr.wf (.entryFetch 255) = true ∧ Instr.wf (.fetchPoll 256) = false ∧ Instr.wf (.launchPacket 256) = false ∧
    Instr.wf (.packetComplete 256 0) = false ∧ Instr.wf (.idleUnmap 256) = false ∧ Instr.wf (.timesliceUnmap 256) = false := by decide +kernel
/-- R45, R64: SADDI adds 1 to 31. -/
theorem test_wf_saddi :
    Instr.wf (.compactSaddi 3 0) = false ∧ Instr.wf (.compactSaddi 3 1) = true ∧ Instr.wf (.saddi hd0 33 0) = false ∧ Instr.wf (.saddi hd0 33 31) = true := by
  decide +kernel
/-- R63: pair 0 and the conditions above 11 are reserved. -/
theorem test_wf_compares :
    Instr.wf (.cmp hd0 0 1 2 0 0) = false ∧ Instr.wf (.cmp hd0 1 1 2 12 0) = false ∧ Instr.wf (.cmp hd0 1 1 2 11 0) = true ∧ Instr.wf (.cmpi hd0 0 1 2 0 0) = false ∧
    Instr.wf (.cmpi hd0 1 1 2 12 0) = false ∧ Instr.wf (.vcmp hd0 0 1 2 0 0) = false ∧ Instr.wf (.vcmp hd0 7 1 2 12 0) = false := by decide +kernel
/-- R64, R66: the functions of the atomics, FENCE's scopes, RDV's streams. -/
theorem test_wf_functions :
    Instr.wf (.amo hd0 1 2 3 9) = false ∧ Instr.wf (.amow hd0 1 2 3 9) = false ∧ Instr.wf (.asc hd0 1 2 3 9) = false ∧ Instr.wf (.amon hd0 1 2 11) = false ∧
    Instr.wf (.fred hd0 1 2 3 11) = false ∧ Instr.wf (.amo hd0 1 2 3 8) = true ∧ Instr.wf (.fred hd0 1 2 3 10) = true ∧ Instr.wf (.fence hd0 1 6) = false ∧
    Instr.wf (.fence hd0 1 5) = true ∧ Instr.wf (.rdv hd0 0) = false ∧ Instr.wf (.rdv hd0 7) = true := by decide +kernel
/-- R158: a ring's number is at most 15. -/
theorem test_wf_rings :
    Instr.wf (.racq hd0 1 16 0) = false ∧ Instr.wf (.rrel hd0 16 0) = false ∧ Instr.wf (.rcan hd0 31 0) = false ∧ Instr.wf (.rstat hd0 1 16) = false ∧
    Instr.wf (.racq hd0 1 15 0) = true := by decide +kernel
/-- R63, R204, R223, R233: a port's number, VWIN's type, VCVT's codes and roundings, VCORD's count and function. -/
theorem test_wf_vector :
    Instr.wf (.vadd hd0 1 2 8 1) = false ∧ Instr.wf (.vadd hd0 1 2 8 0) = true ∧ Instr.wf (.vscale hd0 1 2 16 1) = false ∧ Instr.wf (.vmov hd0 1 31 1) = false ∧
    Instr.wf (.vdup hd0 1 2 8 1) = false ∧ Instr.wf (.vwin hd0 0 0 6) = false ∧ Instr.wf (.vcvt hd0 1 2 0 15 0) = false ∧ Instr.wf (.vcvt hd0 1 2 0 4 5) = false ∧
    Instr.wf (.vcvt hd0 1 2 0 3 5) = true ∧ Instr.wf (.vcvt hd0 1 2 0 0 6) = false ∧ Instr.wf (.vcvt hd0 1 2 1 8 0) = false ∧ Instr.wf (.vcvt hd0 1 2 1 14 0) = false ∧
    Instr.wf (.vcord hd0 1 2 7 0) = false ∧ Instr.wf (.vcord hd0 1 2 27 0) = false ∧ Instr.wf (.vcord hd0 1 2 8 7) = false ∧ Instr.wf (.vcord hd0 1 2 0 6) = true := by
  decide +kernel
/-- R250: the matrix configuration registers that exist. -/
theorem test_wf_mcfg :
    Instr.wf (.mcfg hd0 5 1) = false ∧ Instr.wf (.mcfg hd0 4 1) = true ∧ Instr.wf (.mcfg hd0 0x2F 1) = false ∧ Instr.wf (.mcfg hd0 0x3D 1) = true ∧
    Instr.wf (.mcfg hd0 0x3E 1) = false := by decide +kernel
/-- R2: 1536 cores in 16 clusters, two job slots in each; 8 ports of a slot; 8 banks of the task queue. -/
theorem test_wf_units :
    Instr.wf (.nestStart 1536) = false ∧ Instr.wf (.nestStart 1535) = true ∧ Instr.wf (.stop 1536) = false ∧ Instr.wf (.scanEnd 1536 true) = false ∧
    Instr.wf (.jobStart 3072) = false ∧ Instr.wf (.jobStart 3071) = true ∧ Instr.wf (.commandStart 3072 false) = false ∧ Instr.wf (.taskPop 3072 0) = false ∧
    Instr.wf (.mwaitTimeout 3072 .a) = false ∧ Instr.wf (.wdageExpire 3072 .a) = false ∧ Instr.wf (.portPrefetch 0 8) = false ∧ Instr.wf (.portPrefetch 3072 0) = false ∧
    Instr.wf (.spillRefill 8) = false ∧ Instr.wf (.clusterShareWrite 0 16 0) = false ∧ Instr.wf (.circuitSlot 16) = false ∧ Instr.wf (.rangeCtlWrite 0 16 0) = false := by
  decide +kernel
/-- R414, R415, R437: 128 ports of 16 lanes and 4 virtual channels, flits of 256 bytes, 1024 groups. -/
theorem test_wf_fabric :
    Instr.wf (.dataFlit 128 (flitOf 256)) = false ∧ Instr.wf (.dataFlit 127 (flitOf 255)) = false ∧ Instr.wf (.dataFlit 127 (flitOf 256)) = true ∧
    Instr.wf (.creditFlit 0 (flitOf 257)) = false ∧ Instr.wf (.nackFlit 128 (flitOf 256)) = false ∧ Instr.wf (.shedreqFlit 0 (flitOf 1)) = false ∧
    Instr.wf (.restripeFlit 0 (flitOf 1)) = false ∧ Instr.wf (.abortFlit 0 (flitOf 1)) = false ∧ Instr.wf (.uncorrectableCodeword 0 16) = false ∧
    Instr.wf (.laneRetrain 0 16) = false ∧ Instr.wf (.routeSelect 0 4) = false ∧ Instr.wf (.escapeEntry 128 0) = false ∧ Instr.wf (.egressSend 128) = false ∧
    Instr.wf (.linkDown 128 .outbound) = false ∧ Instr.wf (.shedWindowEnd 128) = false ∧ Instr.wf (.bucketSend 1024 0) = false ∧ Instr.wf (.noResultTimeout 1024 0) = false := by
  decide +kernel
/-- R503, R511, R514, R538, R540: slices, controllers, stacks and channels, vectors, CXL ports, dies. -/
theorem test_wf_module :
    Instr.wf (.sliceSpare 136) = false ∧ Instr.wf (.patternTest 0 16 0 0) = false ∧ Instr.wf (.patternTest 0 15 32 0) = false ∧ Instr.wf (.patternTest 0 15 31 0) = true ∧
    Instr.wf (.chmodeWrite 0 0 32 0) = false ∧ Instr.wf (.channelOffline 16 0) = false ∧ Instr.wf (.ready 23) = false ∧ Instr.wf (.handed 23) = false ∧
    Instr.wf (.healthy 23) = false ∧ Instr.wf (.coreFirmwareSwitch 1536) = false ∧ Instr.wf (.msixMaskWrite 0 2048 true) = false ∧ Instr.wf (.cxlLinkDown 4) = false ∧
    Instr.wf (.cxlLinkUp 4) = false ∧ Instr.wf (.thermalThrottle 9 0) = false ∧ Instr.wf (.overtemperature 9 0) = false := by decide +kernel
/-- An ill-formed instruction has no encoding that decodes to it: the encoder's words of two such are refused. -/
theorem test_wf_not_decoded : (decodeEncoded (.rdv hd0 0)).toOption = none ∧ (decodeEncoded (.saddi hd0 1 0)).toOption = none := by decide +kernel

/-- R340, worked case: with TB = 2 and PITCH = 12 the tile at BASE + 0x3C000 lies in slice 14, its right-hand neighbour in 15. -/
theorem test_tile_slice : tileSlice (12 * 2 ^ 48 + 2 * 2 ^ 42 + 5) (5 * 2 ^ 16 + 0x3C000) = 14 ∧
    tileSlice (12 * 2 ^ 48 + 2 * 2 ^ 42 + 5) (5 * 2 ^ 16 + 0x40000) = 15 := by decide +kernel
/-- R343: SAMPLE = 128 retains every second access; a retained fill takes the one way of WAYMASK, an unretained fill another. -/
theorem test_l2_retained :
    let s0 : State := { State.reset with ranges := [(0, { limit := 0, ctl := 0x40004001 })] }
    (l2Lookup (l2Lookup s0 0 0 false) 0 4 false).l2tags = [(0, [{ way := 14, line := 4, range := some 0 }, { way := 0, line := 0 }])] := by
  decide +kernel

/-! ## One step, from the fetch of a word on: scalar words -/

/-- X1 and X2 of the A stream of slot 0, which stands at the word `w`. -/
def scalarAt (w : Nat) (x1 x2 : Word) : State :=
  ((State.reset.withFetchWord 32 w).modStream ⟨0, .a⟩ fun t => { t with x := (t.x.setIfInBounds 1 x1).setIfInBounds 2 x2 })
/-- The A stream of slot 0 after one step. -/
def afterA (s : State) : Option Stream := match step s with | .next t => some (t.stream ⟨0, .a⟩) | _ => none
/-- X3 after one step. -/
def x3 (w : Nat) (x1 x2 : Word) : Option Word := (afterA (scalarAt w x1 x2)).map (·.x[3])
/-- P(n) after one step of a state. -/
def pAfter (s : State) (n : Nat) : Option Bool := (afterA s).map fun t => bit (t.readP n) 0

/-- R112, R114: addition wraps, SUB's order, AND with a sign-extended immediate. -/
theorem test_step_add :
    x3 0b10_1_0000_000000_00011_00001_00010_0000 0xFFFFFFFFFFFFFFFF 2 = some 1 ∧
    x3 0b10_1_0000_000000_00011_00001_00010_0001 1 3 = some 0xFFFFFFFFFFFFFFFE ∧
    x3 0b10_1_0000_000010_00011_00001_111111111 5 0 = some 4 ∧
    x3 0b10_1_0000_000011_00011_00001_111110000 0xABCDEF 0 = some 0xABCDE0 := by decide +kernel
/-- R112, R114: the logic operations. -/
theorem test_step_logic :
    x3 0b10_1_0000_000000_00011_00001_00010_0010 0b1100 0b1010 = some 0b1000 ∧ x3 0b10_1_0000_000000_00011_00001_00010_0011 0b1100 0b1010 = some 0b1110 ∧
    x3 0b10_1_0000_000000_00011_00001_00010_0100 0b1100 0b1010 = some 0b0110 ∧ x3 0b10_1_0000_000100_00011_00001_100000000 1 0 = some 0xFFFFFFFFFFFFFF01 ∧
    x3 0b10_1_0000_000101_00011_00001_111111111 5 0 = some 0xFFFFFFFFFFFFFFFA := by decide +kernel
/-- R112, R115: a shift takes its amount modulo 64. -/
theorem test_step_shifts :
    x3 0b10_1_0000_000000_00011_00001_00010_0101 3 65 = some 6 ∧ x3 0b10_1_0000_000000_00011_00001_00010_0110 0x8000000000000000 63 = some 1 ∧
    x3 0b10_1_0000_000000_00011_00001_00010_0111 0x8000000000000000 63 = some 0xFFFFFFFFFFFFFFFF ∧
    x3 0b10_1_0000_000110_00011_00001_00_0_111110 2 0 = some 0x8000000000000000 ∧ x3 0b10_1_0000_000110_00011_00001_01_0_000001 0x8000000000000001 0 = some 0x4000000000000000 ∧
    x3 0b10_1_0000_000110_00011_00001_10_0_000001 0x8000000000000001 0 = some 0xC000000000000000 := by decide +kernel
/-- R112: signed and unsigned extremes differ on −1. -/
theorem test_step_minmax :
    x3 0b10_1_0000_000000_00011_00001_00010_1000 0xFFFFFFFFFFFFFFFF 1 = some 0xFFFFFFFFFFFFFFFF ∧ x3 0b10_1_0000_000000_00011_00001_00010_1001 0xFFFFFFFFFFFFFFFF 1 = some 1 ∧
    x3 0b10_1_0000_000000_00011_00001_00010_1010 0xFFFFFFFFFFFFFFFF 1 = some 1 ∧ x3 0b10_1_0000_000000_00011_00001_00010_1011 0xFFFFFFFFFFFFFFFF 1 = some 0xFFFFFFFFFFFFFFFF := by
  decide +kernel
/-- R112: the products of −1 and 2: −2, whose high half is −1 signed and 1 unsigned. -/
theorem test_step_products :
    x3 0b10_1_0000_000000_00011_00001_00010_1100 0xFFFFFFFFFFFFFFFF 2 = some 0xFFFFFFFFFFFFFFFE ∧ x3 0b10_1_0000_000000_00011_00001_00010_1101 0xFFFFFFFFFFFFFFFF 2 = some 0xFFFFFFFFFFFFFFFF ∧
    x3 0b10_1_0000_000000_00011_00001_00010_1110 0xFFFFFFFFFFFFFFFF 2 = some 1 := by decide +kernel
/-- R113: division truncates toward zero; the corners. -/
theorem test_step_division :
    x3 0b10_1_0000_000001_00011_00001_00010_0000 0xFFFFFFFFFFFFFFF9 2 = some 0xFFFFFFFFFFFFFFFD ∧ x3 0b10_1_0000_000001_00011_00001_00010_0000 0x8000000000000000 0xFFFFFFFFFFFFFFFF = some 0x8000000000000000 ∧
    x3 0b10_1_0000_000001_00011_00001_00010_0001 7 0 = some 0xFFFFFFFFFFFFFFFF ∧ x3 0b10_1_0000_000001_00011_00001_00010_0010 0xFFFFFFFFFFFFFFF9 2 = some 0xFFFFFFFFFFFFFFFF ∧
    x3 0b10_1_0000_000001_00011_00001_00010_0010 0x8000000000000000 0xFFFFFFFFFFFFFFFF = some 0 ∧ x3 0b10_1_0000_000001_00011_00001_00010_0011 7 0 = some 7 ∧
    x3 0b10_1_0000_000001_00011_00001_00010_0011 7 4 = some 3 := by decide +kernel
/-- R113: the unary forms. -/
theorem test_step_unary :
    x3 0b10_1_0000_000001_00011_00001_00000_0100 0 0 = some 64 ∧ x3 0b10_1_0000_000001_00011_00001_00000_0100 1 0 = some 63 ∧ x3 0b10_1_0000_000001_00011_00001_00000_0101 0xF0F 0 = some 8 ∧
    x3 0b10_1_0000_000001_00011_00001_00000_0110 3 0 = some 0xC000000000000000 ∧ x3 0b10_1_0000_000001_00011_00001_00000_0111 0x180 0 = some 0xFFFFFFFFFFFFFF80 ∧
    x3 0b10_1_0000_000001_00011_00001_00000_1000 0x18000 0 = some 0xFFFFFFFFFFFF8000 ∧ x3 0b10_1_0000_000001_00011_00001_00000_1001 0x180000000 0 = some 0xFFFFFFFF80000000 ∧
    x3 0b10_1_0000_000001_00011_00001_00000_1010 0xFFFFFFFF80000000 0 = some 0x80000000 := by decide +kernel
/-- R113: SLT and USLT. -/
theorem test_step_slt :
    x3 0b10_1_0000_000001_00011_00001_00010_1011 0xFFFFFFFFFFFFFFFF 1 = some 1 ∧ x3 0b10_1_0000_000001_00011_00001_00010_1100 0xFFFFFFFFFFFFFFFF 1 = some 0 := by decide +kernel
/-- R108, R116, R118: MOVI and SETLC; a write to X0 is discarded. -/
theorem test_step_movi :
    x3 0b10_1_0000_000111_00011_10000000000000 0 0 = some 0xFFFFFFFFFFFFE000 ∧ (afterA (scalarAt 0b10_1_0000_000111_00000_00000000000111 0 0)).map (·.x[0]) = some 0 ∧
    (afterA (scalarAt 0b10_1_0000_001001_00000_00001_111111111 0 0)).map (·.lc) = some 0xFFFFFFFF := by decide +kernel
/-- R45: the compact forms name the 32-bit ones: MOVI X5, 3 is 0x20A3 (chapter 04). -/
theorem test_step_compact : (match step (State.reset.withFetchWord 16 0x20A3) with | .next t => some (t.stream ⟨0, .a⟩).x[5] | _ => none) = some 3 := by decide +kernel
/-- R61, R109: a word whose guard reads false has no effect. -/
theorem test_step_guarded : x3 0b10_1_0001_000000_00011_00001_00010_0000 1 2 = some 0 := by decide +kernel

/-- R120's worked case: X1 = 5, X2 = 3; P2 and P3 as the table gives them after each compare. -/
def cmpAt (w : Nat) (p2 : Bool) : State := (scalarAt w 5 3).modStream ⟨0, .a⟩ fun t => { t with p := t.p.setIfInBounds 2 (spread p2) }
theorem test_step_cmp :
    pAfter (cmpAt 0b10_1_0000_001010_001_00001_00010_0010_01 true) 2 = some false ∧ pAfter (cmpAt 0b10_1_0000_001010_001_00001_00010_0010_01 true) 3 = some true ∧
    pAfter (cmpAt 0b10_1_0000_001010_001_00001_00010_0011_01 false) 2 = some false ∧ pAfter (cmpAt 0b10_1_0000_001010_001_00001_00010_0011_00 false) 2 = some true ∧
    pAfter (cmpAt 0b10_1_0000_001010_001_00001_00010_0011_00 false) 3 = some false ∧ pAfter (cmpAt 0b10_1_0000_001010_001_00001_00010_0010_11 true) 2 = some true := by decide +kernel
/-- R119: CMPI's immediate is signed, BSET's an unsigned bit number. -/
theorem test_step_cmpi :
    pAfter (scalarAt 0b10_1_0000_001011_001_00001_11011_0011_00 0xFFFFFFFFFFFFFFFB 0) 2 = some true ∧ pAfter (scalarAt 0b10_1_0000_001011_001_00001_11111_1010_00 0x80000000 0) 2 = some true ∧
    pAfter (scalarAt 0b10_1_0000_001011_001_00001_11111_1011_00 0x80000000 0) 2 = some false := by decide +kernel
/-- R122: the predicate operations on P0 (true) and P1 (false). -/
theorem test_step_plog :
    pAfter (scalarAt 0b10_1_0000_001111_00010_0000_0001_000_000 0 0) 2 = some false ∧ pAfter (scalarAt 0b10_1_0000_001111_00010_0000_0001_000_001 0 0) 2 = some true ∧
    pAfter (scalarAt 0b10_1_0000_001111_00010_0000_0000_000_010 0 0) 2 = some false ∧ pAfter (scalarAt 0b10_1_0000_001111_00010_0000_0001_000_011 0 0) 2 = some true ∧
    pAfter (scalarAt 0b10_1_0000_001111_00010_0001_0000_000_100 0 0) 2 = some true ∧ pAfter (scalarAt 0b10_1_0000_001111_00010_0000_0000_000_101 0 0) 2 = some true ∧
    pAfter (scalarAt 0b10_1_0000_001111_00010_0000_0000_000_110 0 0) 2 = some true ∧ x3 0b10_1_0000_001111_00011_0000_0000_000_111 0 0 = some 1 := by decide +kernel

/-! ## One meaning: control, synchronisation, memory -/

/-- The state after a meaning, or the state itself where it stops. -/
def nx (i : Instr) (s : State) : State := match exec i s with | .next t => t | _ => s
/-- Register 3 of the stream at hand. -/
def r3 (s : State) : Word := s.myStream.x[3]
/-- The code and status of the fault that the bundle met. -/
def trapped (s : State) : Option (Nat × Nat) := match s.issue.outcome with | .faulted t => some (t.code, t.sub.toNat) | _ => none
/-- Whether the bundle waits, and its kind and object as WAITST shows them. -/
def waitsAs (s : State) : Option (Nat × Nat) := match s.issue.outcome with | .waiting => s.myStream.wait.map fun w => (w.kind, w.obj) | _ => none
/-- 0x8000_0000_0000_0000: the first byte of a core's own scratchpad (R327). -/
def padBase : Word := 0x8000000000000000
/-- The A stream with a part of its scratchpad, X1 at the part's first byte, X2 and X3 as given. -/
def partAt (x2 x3 : Word) : State := withX (withX (withPart (atA State.reset)) 2 x2) 3 x3

/-- R137, R136: SADD and SADDI; an addition beyond 32 bits raises SEM_OVERFLOW (0x13) and changes nothing. -/
theorem test_sem_add :
    (nx (.sadd hd0 5 2) (partAt 7 0)).mySlot.semAt 5 = 7 ∧ (nx (.saddi hd0 5 31) (partAt 0 0)).mySlot.semAt 5 = 31 ∧
    (trapped (nx (.saddi hd0 5 1) (nx (.sset hd0 5 2) (partAt 0xFFFFFFFF 0)))).map (·.1) = some 0x13 ∧
    (nx (.saddi hd0 5 1) (nx (.sset hd0 5 2) (partAt 0xFFFFFFFF 0))).mySlot.semAt 5 = 0xFFFFFFFF := by decide +kernel
/-- R136, R146: SREAD; SWAIT goes on when S is at least the operand, and else waits with KIND 3. -/
theorem test_sem_wait :
    r3 (nx (.sread hd0 3 5) (nx (.sset hd0 5 2) (partAt 0x1FFFFFFFF 0))) = 0xFFFFFFFF ∧ (nx (.swait hd0 5 2) (partAt 0 0)).issue.outcome = .issued ∧
    waitsAs (nx (.swait hd0 5 2) (partAt 1 0)) = some (3, 5) := by decide +kernel
/-- R140, R146: a queue is first in, first out; an empty one holds its reader (KIND 1). -/
def vPut (s : State) (v : Word) : State := s.modSlot 0 fun t => t.setQueue 2 (t.queue 2 ++ [v])
theorem test_queue_get :
    r3 (nx (.qget hd0 3 2) (vPut (vPut (partAt 0 0) 8) 9)) = 8 ∧ (nx (.qget hd0 3 2) (vPut (vPut (partAt 0 0) 8) 9)).mySlot.queue 2 = [9] ∧
    waitsAs (nx (.qget hd0 3 2) (partAt 0 0)) = some (1, 2) ∧ r3 (nx (.qcount hd0 3 2) (vPut (vPut (partAt 0 0) 8) 9)) = 2 ∧
    (nx (.qflush hd0 2) (vPut (partAt 0 0) 8)).mySlot.queue 2 = [] := by decide +kernel
/-- R140, R141: QPUT appends, waiting (KIND 2) at 16 entries; BRQ falls through on a zero entry. -/
theorem test_queue_put :
    (nx (.qput hd0 0 2) (partAt 4 0)).mySlot.queue 0 = [4] ∧ waitsAs (nx (.qput hd0 0 2) ((partAt 4 0).modSlot 0 fun t => t.setQueue 0 (List.replicate 16 1))) = some (2, 0) ∧
    (nx (.brq hd0 2 8) (vPut (partAt 0 0) 0)).issue.outcome = .issued ∧ (nx (.brq hd0 2 8) (vPut (partAt 0 0) 0)).mySlot.queue 2 = [] := by decide +kernel
/-- R145, R147: LC, SSTATUS of the V stream of slot 1, CORE.ID of core 97 (cluster 1, core 1). -/
theorem test_csr_read :
    r3 (nx (.csrr hd0 3 0) ((partAt 0 0).modMyStream ({ · with lc := 9 }))) = 9 ∧
    (nx (.csrr hd0 3 6) { State.reset with issue := { agent := ⟨1, .v⟩ } }).myStream.x[3] = 0x82 ∧
    (nx (.csrr hd0 3 0x400) { State.reset with issue := { agent := ⟨194, .a⟩ } }).myStream.x[3] = 0x101 := by decide +kernel
/-- R143, R145: CSRW writes, sets and clears; RRB has 8 bits. -/
theorem test_csr_write :
    (nx (.csrw hd0 2 1) (partAt 0x1FF 0)).myStream.rrb = 0xFF ∧ (nx (.csrwSet hd0 2 0) ((partAt 6 0).modMyStream ({ · with lc := 9 }))).myStream.lc = 15 ∧
    (nx (.csrwClr hd0 2 0) ((partAt 6 0).modMyStream ({ · with lc := 12 }))).myStream.lc = 8 := by decide +kernel
/-- R148, R471: TRAP raises SOFTWARE (0x06) with its code, BKPT raises BREAK (0x05). -/
theorem test_trap : trapped (nx (.trap hd0 0x2ABC) (partAt 0 0)) = some (0x06, 0x2ABC) ∧ trapped (nx (.bkpt hd0) (partAt 0 0)) = some (0x05, 0) := by decide +kernel
/-- R148, R149, R151: NOP; RDV of the stream itself goes on, one with a stream that has not come waits (KIND 6); LBAR outside a
co-resident launch raises COSCHEDULE (0x33). -/
theorem test_barriers :
    (nx (.nop hd0) (partAt 0 0)).issue.outcome = .issued ∧ (nx (.rdv hd0 1) (partAt 0 0)).issue.outcome = .issued ∧ waitsAs (nx (.rdv hd0 5) (partAt 0 0)) = some (6, 5) ∧
    (trapped (nx (.lbar hd0 0) (partAt 0 0))).map (·.1) = some 0x33 := by decide +kernel
/-- R152: MWAIT outside the four spaces raises SPACE (0x0A), and completes at once when the monitor is not armed. -/
theorem test_mwait :
    (trapped (nx (.mwait hd0 2) (partAt 0x1000000000000000 0))).map (·.1) = some 0x0A ∧ (nx (.mwait hd0 1) (partAt 0 0)).issue.outcome = .issued := by decide +kernel
/-- R53, R150: END ends the stream. -/
theorem test_end : (nx (.sysEnd hd0) (partAt 0 0)).issue.outcome = .ended ∧ (nx .compactEnd (partAt 0 0)).issue.outcome = .ended := by decide +kernel

/-- R127: stores write the low bytes of a register, little-endian, and loads of 1, 2 and 4 bytes read them back as their rule extends them. -/
def stored : State := nx (.std hd0 2 1 0 0) (partAt 0x8877665544338281 0)
theorem test_store_load :
    r3 (nx (.ldd hd0 3 1 0 0) stored) = 0x8877665544338281 ∧ r3 (nx (.ldw hd0 3 1 0 1) stored) = 0x88776655 ∧ r3 (nx (.ldh hd0 3 1 0 1) stored) = 0x4433 ∧
    r3 (nx (.ldb hd0 3 1 0 2) stored) = 0x33 := by decide +kernel
theorem test_store_narrow :
    r3 (nx (.ldd hd0 3 1 0 0) (nx (.stb hd0 3 1 0 1) (withX stored 3 0xFF))) = 0x887766554433FF81 ∧
    r3 (nx (.ldd hd0 3 1 0 0) (nx (.sth hd0 3 1 0 1) (withX stored 3 0xFFFF))) = 0x88776655FFFF8281 ∧
    r3 (nx (.ldd hd0 3 1 0 0) (nx (.stw hd0 3 1 0 1) (withX stored 3 0))) = 0x44338281 ∧
    r3 (nx (.compactLdd 3 1) (nx (.compactStd 2 1) (partAt 77 0))) = 77 := by decide +kernel
/-- R128: an access outside the part raises SPACE, a misaligned one is read byte by byte in the scratchpad. -/
theorem test_load_faults :
    (trapped (nx (.ldd hd0 3 2 0 0) (partAt 0x8000000000010000 0))).map (·.1) = some 0x0A ∧ (trapped (nx (.ldd hd0 3 2 0 0) (partAt 0x1000000000000000 0))).map (·.1) = some 0x0A := by
  decide +kernel
/-- R131: AMO returns the old value and writes the new; MIN is signed; AMOW acts on 4 bytes. -/
theorem test_amo :
    r3 (nx (.amo hd0 3 1 2 0) (withX stored 2 1)) = 0x8877665544338281 ∧ r3 (nx (.ldd hd0 3 1 0 0) (nx (.amo hd0 3 1 2 0) (withX stored 2 1))) = 0x8877665544338282 ∧
    r3 (nx (.ldd hd0 3 1 0 0) (nx (.amo hd0 3 1 2 4) (withX stored 2 1))) = 0x8877665544338281 ∧ r3 (nx (.ldd hd0 3 1 0 0) (nx (.amo hd0 3 1 2 6) (withX stored 2 1))) = 1 ∧
    r3 (nx (.amow hd0 3 1 2 8) (withX stored 2 1)) = 0x44338281 ∧ r3 (nx (.ldd hd0 3 1 0 0) (nx (.amow hd0 3 1 2 8) (withX stored 2 1))) = 0x8877665500000001 := by decide +kernel
/-- R132, R455: AMON.FADD32: 1.0 + 2^−24 is a tie that gives 1.0; 1.0 − 1.0 gives +0; R130: an operand off its alignment raises MISALIGN (0x08). -/
theorem test_amon :
    r3 (nx (.ldw hd0 3 1 0 0) (nx (.amon hd0 1 3 9) (withX (nx (.std hd0 2 1 0 0) (partAt 0x3F800000 0)) 3 0x33800000))) = 0x3F800000 ∧
    r3 (nx (.ldw hd0 3 1 0 0) (nx (.amon hd0 1 3 9) (withX (nx (.std hd0 2 1 0 0) (partAt 0x3F800000 0)) 3 0xBF800000))) = 0 ∧
    (trapped (nx (.amon hd0 2 3 0) (partAt 0x8000000000000004 0))).map (·.1) = some 0x08 := by decide +kernel
/-- R133: CAS writes when the expected value is there; CASW compares 4 bytes. -/
theorem test_cas :
    r3 (nx (.cas hd0 3 1 2) (withX (withX stored 3 5) 2 1)) = 0x8877665544338281 ∧ r3 (nx (.ldd hd0 3 1 0 0) (nx (.cas hd0 3 1 2) (withX (withX stored 3 5) 2 1))) = 0x8877665544338281 ∧
    r3 (nx (.ldd hd0 3 1 0 0) (nx (.casw hd0 3 1 2) (withX (withX stored 3 0x44338281) 2 1))) = 0x8877665500000001 := by decide +kernel
/-- R134: ASC in space 0x8 raises SPACE; in space 0xA it takes a ticket and acts. -/
theorem test_asc :
    (trapped (nx (.asc hd0 3 1 2 0) (partAt 1 0))).map (·.1) = some 0x0A ∧ (nx (.asc hd0 3 2 1 0) (withX (withChip (atA State.reset)) 2 0xA000000000000000)).ascTicket = 1 := by
  decide +kernel
/-- R135: FENCE changes no register and no memory. -/
theorem test_fence : (nx (.fence hd0 0xFFFF 4) (partAt 3 4)).issue.outcome = .issued ∧ r3 (nx (.fence hd0 0xFFFF 4) (partAt 3 4)) = 4 := by decide +kernel
/-- R155: TASKJOIN subtracts, and gives all ones when the operand is larger than the counter. -/
theorem test_taskjoin :
    r3 (nx (.taskjoin hd0 3 1 2) (withX stored 2 0x81)) = 0x8877665544338200 ∧ r3 (nx (.taskjoin hd0 3 1 2) (withX stored 2 0xFFFFFFFFFFFFFFFF)) = 0xFFFFFFFFFFFFFFFF := by decide +kernel
/-- R179: FEMPTY and FTEST. -/
theorem test_fempty :
    r3 (nx (.ftest hd0 3 1) (nx (.fempty hd0 1 2) (partAt 1 0))) = 0 ∧ r3 (nx (.ftest hd0 3 1) (partAt 1 0)) = 1 ∧ r3 (nx (.ftest hd0 3 1) (nx (.fempty hd0 1 2) (partAt 0 0))) = 1 ∧
    (trapped (nx (.fempty hd0 1 2) (partAt 16385 0))).map (·.1) = some 0x01 ∧ waitsAs (nx (.ldd hd0 3 1 0 0) (nx (.fempty hd0 1 2) (partAt 1 0))) = some (4, 0) := by decide +kernel

/-! ## One meaning: vector words -/

/-- The V stream with tile 0 of a type, and elements of 32 bits in V1, V2 and V3 (rows 1, 2, 3 of tile 0, half 0). -/
def lanesAt (ty : TType) (l : List (Nat × Nat × Nat)) : State :=
  vState.modCore 0 fun c => { c with ttype := [(0, ty)], tiles := l.foldl (fun m e => sput m (128 * e.1 + e.2.1) (BitVec.ofNat 32 e.2.2)) [] }
/-- Element `i` of width `w` of V4. -/
def v4 (w : Nat) (s : State) (i : Nat) : Nat := elem (rowOf (s.core 0).tiles 4) w i
/-- 1.0, 2.0, 3.0, −1.0, ∞ and the canonical NaN of FP32. -/
def f1 : Nat := 0x3F800000
def f2 : Nat := 0x40000000
def f3 : Nat := 0x40400000
def fm1 : Nat := 0xBF800000
def fInf : Nat := 0x7F800000
def fNan : Nat := 0x7FC00000

/-- R219: VADD of 1.0 and 2.0 in element 0; in element 7 the sum 1 + 2^−24 is a tie and sets INX. -/
def vpair (x y : Nat) : State := lanesAt .fp32 [(1, 0, x), (2, 0, y), (1, 7, f1), (2, 7, 0x33800000)]
theorem test_vadd : let t := nx (.vadd hd0 4 1 2 0) (vpair f1 f2)
    v4 32 t 0 = f3 ∧ v4 32 t 7 = f1 ∧ t.mySlot.vflags = fInx := by decide +kernel
/-- R219, R97: the elements of VSUB, VMUL and the fused forms; ∞ − ∞ gives NaN and INV; +0 is larger than −0, NaN goes through. -/
theorem test_vfp :
    fpSub fp32 .rne f1 f2 = (fm1, 0) ∧ fpSub fp32 .rne fInf fInf = (fNan, fInv) ∧ fpMul fp32 .rne f2 fm1 = (0xC0000000, 0) ∧ fpMul fp32 .rne 0 fInf = (fNan, fInv) ∧
    fpMul fp32 .rne 0x7F7FFFFF f2 = (fInf, fOvf) ∧ fpFma fp32 .rne false false f2 f1 f1 = (f3, 0) ∧ fpFma fp32 .rne true false f2 f1 f1 = (fm1, 0) ∧
    fpFma fp32 .rne false true f2 f1 f1 = (0xC0400000, 0) ∧ fpMinMax true fp32 0x80000000 0 = 0 ∧ fpMinMax false fp32 0 0x80000000 = 0x80000000 ∧ fpMinMax true fp32 f1 0x7F800001 = fNan := by
  decide +kernel
/-- R220: VABS clears the sign and keeps a NaN's code. -/
def vone (x : Nat) : State := lanesAt .fp32 [(1, 0, x), (2, 0, 3)]
theorem test_vabs : v4 32 (nx (.vabs hd0 4 1) (vone 0xFF800001)) 0 = 0x7F800001 := by decide +kernel
/-- R220: 1/3 truncated to 12 bits is 0x3EAAA000, 1/√4 is 0.5; ⌊−1.5⌋ is −2; 2.5 rounds to 2; 1.0 × 2^3 is 8. -/
theorem test_vfp2 :
    fpOp fp32 .rtz (rcpEst (estBits fp32) (fp32.decode f3), fNone) = (0x3EAAA000, 0) ∧ (fpOp fp32 .rtz (rsqEst (estBits fp32) (fp32.decode 0x40800000))).1 = 0x3F000000 ∧
    (fpOp fp32 .rtz (rcpEst (estBits fp32) (fp32.decode 0x80000000), fNone)).1 = 0xFF800000 ∧ fpIntegral fp32 .rdn 0xBFC00000 = 0xC0000000 ∧ fpIntegral fp32 .rne 0x40200000 = f2 ∧
    fpScale fp32 .rne f1 3 = (0x41000000, 0) := by decide +kernel
/-- R221, R222: integer operations modulo 2^w; VSHR shifts zeros in, VSAR the sign; VCLAMP to 5 from above. -/
def ipair (x y z : Nat) : State := lanesAt .int32 [(1, 0, x), (2, 0, y), (4, 0, z)]
theorem test_vint :
    v4 32 (nx (.viadd hd0 4 1 2 0) (ipair 0xFFFFFFFF 2 0)) 0 = 1 ∧ v4 32 (nx (.visub hd0 4 1 2 0) (ipair 1 2 0)) 0 = 0xFFFFFFFF ∧ v4 32 (nx (.vimul hd0 4 1 2 0) (ipair 0x10001 0x10001 0)) 0 = 0x20001 ∧
    v4 32 (nx (.vand hd0 4 1 2 0) (ipair 12 10 0)) 0 = 8 ∧ v4 32 (nx (.vor hd0 4 1 2 0) (ipair 12 10 0)) 0 = 14 ∧ v4 32 (nx (.vxor hd0 4 1 2 0) (ipair 12 10 0)) 0 = 6 ∧
    v4 32 (nx (.vshl hd0 4 1 2 0) (ipair 3 33 0)) 0 = 6 ∧ v4 32 (nx (.vsar hd0 4 1 2 0) (ipair 0x80000000 31 0)) 0 = 0xFFFFFFFF := by decide +kernel
theorem test_vmisc :
    v4 32 (nx (.vshr hd0 4 1 2 0) (ipair 0x80000000 31 0)) 0 = 1 ∧ v4 32 (nx (.vmov hd0 4 2 0) (ipair 1 7 0)) 0 = 7 ∧ v4 32 (nx (.vsel ⟨true, 1⟩ 4 1 2 0) (ipair 1 7 0)) 0 = 7 ∧
    v4 32 (nx (.vsel hd0 4 1 2 0) (ipair 1 7 0)) 0 = 1 ∧ v4 32 (nx (.vclamp hd0 4 1 2 0) (ipair 1 5 9)) 0 = 5 ∧ v4 32 (nx (.vclamp hd0 4 1 2 0) (ipair 1 5 0xFFFFFFFF)) 0 = 1 := by decide +kernel
/-- R102, R103, R224's worked case: VCVT.F32TOBF16H.SR writes BF16 element 11 from FP32 element 5 with generator 5, and element 10 keeps its value. -/
def srState (u : Nat) : State := (lanesAt .fp32 [(1, 5, 0x3F806000), (4, 5, 0x1234)]).modSlot 0 ({ · with gens := (upTo 0 128).map fun i => (i, BitVec.ofNat 32 u) })
theorem test_vcvt_sr :
    v4 16 (nx (.vcvt hd0 4 1 0 1 5) (srState 0x6000)) 11 = 0x3F80 ∧ v4 16 (nx (.vcvt hd0 4 1 0 1 5) (srState 0x9FFF)) 11 = 0x3F80 ∧ v4 16 (nx (.vcvt hd0 4 1 0 1 5) (srState 0xA000)) 11 = 0x3F81 ∧
    v4 16 (nx (.vcvt hd0 4 1 0 1 5) (srState 0xA000)) 10 = 0x1234 := by decide +kernel
/-- R100, R224: FP32 to INT32: −2.5 toward zero, 2^33 clamped; INT32 to FP32. -/
theorem test_vcvt_int :
    v4 32 (nx (.vcvt hd0 4 1 0 8 2) (vone 0xC0200000)) 0 = 0xFFFFFFFE ∧ (toInteger .rne (-2 ^ 31) (2 ^ 31 - 1) (fp32.decode 0x50000000)).1 = 2 ^ 31 - 1 ∧
    (fp32.round .rne false (ofInt (-1) 0)).1 = fm1 := by decide +kernel
/-- R225: VCMP.LT writes both bits of a 32-bit element, and NaN is unordered. -/
theorem test_vcmp :
    bits ((nx (.vcmp hd0 1 1 2 2 0) (vpair f1 f2)).myStream.readP 2) 0 2 = 3 ∧ bits ((nx (.vcmp hd0 1 1 2 2 0) (vpair f2 f1)).myStream.readP 2) 0 2 = 0 ∧
    bits ((nx (.vcmp hd0 1 1 2 2 0) (vpair f2 f1)).myStream.readP 3) 0 2 = 3 ∧ bits ((nx (.vcmp hd0 1 1 2 4 0) (vpair fNan f1)).myStream.readP 2) 0 2 = 3 := by decide +kernel
/-- A row V1 whose elements 5 and 6 are 50 and 60, with V2[0] given. -/
def permAt (b : Nat) : State := lanesAt .int32 [(1, 5, 50), (1, 6, 60), (2, 0, b)]
/-- R226, R227: the sum of V1 goes to every element; VRADDX clamps an integer sum and sets SAT. -/
theorem test_vred :
    v4 32 (nx (.vradd hd0 4 1) (permAt 0)) 9 = 110 ∧
    (let t := nx (.vraddx hd0 4 1) (lanesAt .int32 [(1, 0, 0x7FFFFFFF), (1, 1, 1)])
     v4 32 t 0 = 0x7FFFFFFF ∧ t.mySlot.vflags = fSat) := by
  decide +kernel
/-- R228: VPERM, VROT, VSHFT and VDUP of a row whose elements 5 and 6 are 50 and 60. -/
theorem test_vperm :
    v4 32 (nx (.vperm hd0 4 1 2 0) (permAt 133)) 0 = 50 ∧ v4 32 (nx (.vrot hd0 4 1 2 0) (permAt 5)) 0 = 50 ∧ v4 32 (nx (.vshft hd0 4 1 2 0) (permAt 0xFFFFFFFF)) 6 = 50 ∧
    v4 32 (nx (.vshft hd0 4 1 2 0) (permAt 0xFFFFFFFF)) 0 = 0 ∧ v4 32 (nx (.vdup hd0 4 1 2 0) (permAt 6)) 99 = 60 := by decide +kernel
/-- R229: VBC broadcasts the low bits of a register; VEXT reads the element that a register names. -/
theorem test_vxs :
    v4 32 (nx (.vbc hd0 4 1) (withX (permAt 0) 1 0x1FFFFFFFF)) 127 = 0xFFFFFFFF ∧ r3 (nx (.vext hd0 3 1 2) (withX (permAt 0) 2 134)) = 60 := by decide +kernel
/-- R230: VST and VLD of a row in the scratchpad; R232: VSTL and VLDL in the lanes' slices, of space 0xB alone. -/
def vmem (a : Word) : State := withX ((permAt 0).modSlot 0 ({ · with partStart := 0, partLen := 65536 })) 1 a
theorem test_vmem :
    v4 32 (nx (.vld hd0 4 1 0 1) (nx (.vst hd0 1 1 0 1) (vmem padBase))) 5 = 50 ∧ (trapped (nx (.vld hd0 4 1 0 0) (vmem 0x8000000000000002))).map (·.1) = some 0x08 ∧
    v4 32 (nx (.vldl hd0 4 1 3) (nx (.vstl hd0 1 1 3) (vmem 0xB000000000000000))) 6 = 60 ∧ (trapped (nx (.vldl hd0 4 1 0) (vmem padBase))).map (·.1) = some 0x0A := by decide +kernel
/-- R233, R234: results that are exact for every n: EXP2(3) = 8, COS(0) = 1; SQRT(4) = 2, and SQRT(−1) is NaN with INV. -/
theorem test_vcord : (fp32.round .rne false (vcordFn 2 24 7 (fp32.decode f3)).1).1 = 0x41000000 ∧ (fp32.round .rne false (vcordFn 1 8 7 (fp32.decode 0)).1).1 = f1 ∧
    (fp32.round .rne false (vcordFn 4 24 7 (fp32.decode 0x40800000)).1).1 = f2 ∧ (vcordFn 4 24 7 (fp32.decode fm1)).2 = fInv ∧
    (fp32.round .rne false (vcordFn 3 24 7 (fp32.decode 0x41000000)).1).1 = f3 := by decide +kernel
/-- R204: VWIN sets the window and the tile's type; a tile that is not held raises TILE_TYPE (0x16), NOT_HELD (1). -/
theorem test_vwin :
    (nx (.vwin hd0 0 1 5) vState).mySlot.vwin = 4 ∧ sget ((nx (.vwin hd0 0 1 5) vState).core 0).ttype .fp32 0 = .int16 ∧ trapped (nx (.vwin hd0 1 0 0) vState) = some (0x16, 1) := by decide +kernel
/-- R214: PGO starts a port, VSTP reads RUN in bit 63; R236: VSTAT reads and clears flags. -/
theorem test_vports :
    r3 (nx (.vstp hd0 3 2) (nx (.pgo hd0 2) (vState.modSlot 0 ({ · with portMask := 255 })))) = 0x8000000000000000 ∧
    r3 (nx (.vstp hd0 3 2) (nx (.pstop hd0 2) (nx (.pgo hd0 2) (vState.modSlot 0 ({ · with portMask := 255 }))))) = 0 ∧
    r3 (nx (.vstat hd0 3 1) (withX (vState.modSlot 0 ({ · with vflags := 5, vrm := 2 })) 1 0x100)) = 0x502 ∧
    (nx (.vstat hd0 3 1) (withX (vState.modSlot 0 ({ · with vflags := 5, vrm := 2 })) 1 0x100)).mySlot.vflags = 4 := by decide +kernel
/-- R210, R219: a floating-point word over an integer tile raises TILE_TYPE (0x16), WRONG_TYPE (2). -/
theorem test_vtype : trapped (nx (.vadd hd0 4 1 2 0) (ipair 1 2 0)) = some (0x16, 2) := by decide +kernel

/-! ## The hypotheses of the statements are met -/

theorem witness_RegisterWrite : (5 : BitVec 5) ≠ 0 ∧ (atA State.reset).myStream.exposed = false ∧ (exposedA State.reset).myStream.exposed = true := by decide

theorem witness_AluResults : let s := atA State.reset
    Runs (.add ⟨true, 0⟩ 1 2 3) s ∧ Runs (.sub ⟨true, 0⟩ 1 2 3) s ∧ Runs (.and ⟨true, 0⟩ 1 2 3) s ∧ Runs (.or ⟨true, 0⟩ 1 2 3) s ∧
    Runs (.xor ⟨true, 0⟩ 1 2 3) s ∧ Runs (.shl ⟨true, 0⟩ 1 2 3) s ∧ Runs (.shr ⟨true, 0⟩ 1 2 3) s ∧ Runs (.sar ⟨true, 0⟩ 1 2 3) s ∧
    Runs (.min ⟨true, 0⟩ 1 2 3) s ∧ Runs (.max ⟨true, 0⟩ 1 2 3) s ∧ Runs (.umin ⟨true, 0⟩ 1 2 3) s ∧ Runs (.umax ⟨true, 0⟩ 1 2 3) s ∧
    Runs (.mul ⟨true, 0⟩ 1 2 3) s ∧ Runs (.mulh ⟨true, 0⟩ 1 2 3) s ∧ Runs (.umulh ⟨true, 0⟩ 1 2 3) s := by decide
theorem witness_ImmediateResults : let s := atA State.reset
    Runs (.addi ⟨true, 0⟩ 1 2 3) s ∧ Runs (.andi ⟨true, 0⟩ 1 2 3) s ∧ Runs (.ori ⟨true, 0⟩ 1 2 3) s ∧ Runs (.xori ⟨true, 0⟩ 1 2 3) s ∧
    Runs (.shli ⟨true, 0⟩ 1 2 3) s ∧ Runs (.shri ⟨true, 0⟩ 1 2 3) s ∧ Runs (.sari ⟨true, 0⟩ 1 2 3) s ∧ Runs (.movi ⟨true, 0⟩ 1 3) s ∧
    Runs (.setlc ⟨true, 0⟩ 1 3) s := by decide

theorem witness_Alu2Results : let s := atA State.reset
    Runs (.div ⟨true, 0⟩ 1 2 3) s ∧ Runs (.udiv ⟨true, 0⟩ 1 2 3) s ∧ Runs (.rem ⟨true, 0⟩ 1 2 3) s ∧ Runs (.urem ⟨true, 0⟩ 1 2 3) s ∧
    Runs (.slt ⟨true, 0⟩ 1 2 3) s ∧ Runs (.uslt ⟨true, 0⟩ 1 2 3) s ∧ Runs (.clz ⟨true, 0⟩ 1 2) s ∧ Runs (.popc ⟨true, 0⟩ 1 2) s ∧
    Runs (.brev ⟨true, 0⟩ 1 2) s ∧ Runs (.sextb ⟨true, 0⟩ 1 2) s ∧ Runs (.sexth ⟨true, 0⟩ 1 2) s ∧ Runs (.sextw ⟨true, 0⟩ 1 2) s ∧
    Runs (.zextw ⟨true, 0⟩ 1 2) s ∧ (13 : BitVec 4).toNat = 13 ∧ 4 ≤ (4 : BitVec 4).toNat ∧ (1 : BitVec 5) ≠ 0 := by decide

/-- A module whose context 0 maps page 0 of its addresses onto physical page 0, which every master may reach, at TICK 2000. -/
def flatState : State :=
  { State.reset with
    hedge := { tables := [(0, { windows := [(0, (0, 0xFFFFF))], perms := [(2, 3), (3, 3), (4, 3), (5, 3)] }),
                          (22, { windows := [(0, (0, 0xFFFF))], perms := [(0, 3), (5, 3), (6, 3)] }),
                          (23, { windows := [(0, (0, 0xFFFF))], perms := [(0, 3), (6, 3)] })] }
    ctxbase := 0x100000, chans := (upTo 0 32).map fun c => (c, { online := true }), tick := 2000
    mem := writeBytes (writeBytes [] 0x20000 [15, 0, 0, 0, 0, 0, 0, 0]) 0x100000 [1, 0, 2, 0, 0, 0, 0, 0] }
/-- A context 0 whose tables go down to level 3: 0x20000, 0x30000 and 0x40000, which maps page 0 to `leaf`; page 1 has no entry. -/
def deepState (leaf : Nat) : State :=
  let put (m : Memory) (a v : Nat) : Memory := writeBytes m a (natBytes 8 v)
  { flatState with mem := put (put (put (put [] 0x100000 0x20001) 0x20000 0x30001) 0x30000 0x40001) 0x40000 leaf }
theorem witness_AddressTranslation_hedge : let s := flatState
    let t := sget s.hedge.tables {} 0
    (15 : Nat) % 16 = 15 ∧ sfind t.perms 15 = none ∧ (2 : Nat) % 16 ≠ 15 ∧ (sget t.windows (0, 0) 0).1 ≤ 65536 / blockSize 0 ∧
    65536 / blockSize 0 ≤ (sget t.windows (0, 0) 0).2 ∧
    (upTo 0 16).all (fun w => !(decide ((sget t.windows (0, 0) w).1 ≤ 2 ^ 40 / blockSize 0) && decide (2 ^ 40 / blockSize 0 ≤ (sget t.windows (0, 0) w).2))) = true := by decide +kernel
theorem witness_AddressTranslation_tlb : let e : TlbEntry := { ctx := 0, base := 0, size := 65536, pa := 0, attr := 0, layout := 0, r := true, w := true, x := false, comp := false }
    let s := { State.reset with tlb := { cores := [(0, [(0, e)])] } }
    (tlbLookup s (slotReq s 0) 8).isSome = true := by decide +kernel
/-- Whether the entry at an address can be read by the command processors. -/
def readsEntry (s : State) (a : Nat) : Bool := physOk s 2 .r a && readReady s a 8 && !badAt s a 8
theorem witness_AddressTranslation_walk : let s := deepState 15
    let r := engineReq 2 0
    tlbLookup s r 0 = none ∧ s.ctxbase.toNat = 0x100000 ∧ readsEntry s 0x100000 = true ∧ memNat s 0x100000 8 = 0x20001 ∧
    readsEntry s 0x20000 = true ∧ memNat s 0x20000 8 = 0x30001 ∧ readsEntry s 0x30000 = true ∧ memNat s 0x30000 8 = 0x40001 ∧
    readsEntry s 0x40000 = true ∧ memNat s 0x40000 8 = 15 ∧ readsEntry s 0x40008 = true ∧ memNat s 0x40008 8 = 0 ∧
    layoutOk s 0 0 = true ∧ (translate s r 8).toOption.isSome = true ∧ memNat s (0x100000 + 256) 8 % 2 = 0 ∧ readsEntry s (0x100000 + 256) = true := by decide +kernel
theorem witness_AddressTranslation_refused : let s := deepState 13
    memNat s 0x40000 8 / 2 % 2 = 0 ∧ readsEntry s 0x40000 = true ∧ physOk s 9 .r 0x100000 = false ∧
    readReady { s with chans := [] } 0x100000 8 = false ∧ badAt { s with poison := [0x100000 / 8] } 0x100000 8 = true := by decide +kernel
theorem witness_AddressTranslation_rights : let s := deepState 15
    (match translate s (engineReq 2 0) 8 with | .ok l => l.r && l.w && !l.x && physOk s 2 .w l.pa && accReady s .w l.pa 8 && logReady s l.pa 8 | .error _ => false) = true ∧
    (translate s (engineReq 2 0) 65536).toOption = none ∧ (translate (deepState 0x50000F) (engineReq 2 0) 8).toOption.isSome = true ∧
    (engineReq 2 0).ctl = none ∧ (8 : Word).toNat < 2 ^ 55 ∧ (0x80000000000000 : Word).toNat = 2 ^ 55 := by decide +kernel

theorem witness_CompactForms : let s := atA State.reset
    Runs (.compactAddX0 1 2) s ∧ Runs (.compactAdd 1 2) s ∧ Runs (.compactSub 1 2) s ∧ Runs (.compactAnd 1 2) s ∧ Runs (.compactOr 1 2) s ∧
    Runs (.compactXor 1 2) s ∧ Runs (.compactAddi 1 2) s ∧ Runs (.compactMovi 1 2) s ∧ Runs (.compactShli 1 2) s ∧
    Runs (.compactShri 1 2) s ∧ Runs (.compactSari 1 2) s ∧ Runs (.compactSaddi 1 2) s ∧ (s.mySlot.semAt 1).toNat + 2 < 2 ^ 32 ∧
    Runs (.compactQput 0 1) s ∧ (s.mySlot.queue 0).length < 16 ∧ Runs .compactNop s ∧ Runs .compactEnd s := by decide
theorem witness_CompactForms_queue : let s := (atA State.reset).modMySlot (·.setQueue 2 [7])
    Runs (.compactQget 1 2) s ∧ s.mySlot.queue 2 = [7] := by decide

theorem witness_GuardsAndBundles_guard : let s := atA State.reset
    let t := { s with issue := { s.issue with agent := ⟨0, .v⟩ } }
    wordFault s.me (.add ⟨true, 4⟩ 1 2 3) = none ∧ s.guard ⟨true, 4⟩ = 0 ∧ takesGuard (.add ⟨true, 4⟩ 1 2 3) = false ∧ s.on ⟨true, 4⟩ = false ∧
    byLanes (.add ⟨true, 4⟩ 1 2 3) = false ∧ wordFault t.me (.vadd ⟨true, 4⟩ 1 2 3 0) = none ∧ t.guard ⟨true, 4⟩ = 0 ∧
    takesGuard (.vadd ⟨true, 4⟩ 1 2 3 0) = false := by decide +kernel
/-- Slot 0's A stream at a body whose parcels are given. -/
def bodyAt (len : Nat) (ps : List Parcel) : State :=
  State.reset.modSlot 0 ({ · with state := .running, a := { blk := some { smallBlock 0x20000 with len := len, body := ps } } })
theorem witness_GuardsAndBundles_words : let g : Agent := ⟨0, .a⟩
    let run (s : State) : Option Run := (s.stream g).blk.map fun b => gather s g b (longest g + 1) b.pos b.body []
    let fault (s : State) : Option (Nat × Nat) := (run s).bind fun r => r.fault.map fun t => (t.code, t.sub.toNat)
    let first (s : State) : Option Parcel := (s.stream g).blk.bind fun b => (parcelAt s g b b.body b.pos).toOption.map (·.1)
    fault (bodyAt 2 [0xC000, 0]) = some (Code.illegalOp, 7) ∧ fault (bodyAt 2 [0x7C00, 0]) = some (Code.illegalOp, 1) ∧
    fault (bodyAt 1 [0xA000]) = some (Code.illegalOp, 8) ∧ fault (bodyAt 2 [0xA000, 15]) = some (Code.illegalOp, 3) ∧
    fault (bodyAt 2 (encode (.vadd ⟨true, 0⟩ 1 2 3 0))) = some (Code.illegalStream, 0) ∧
    (first (bodyAt 2 [0xC000, 0])).map isHeaderParcel = some true ∧ (first (bodyAt 2 [0x7C00, 0])).map parcelCount = some 1 ∧
    (first (bodyAt 1 [0xA000])).map parcelCount = some 2 ∧ (first (bodyAt 1 [0xA000])).map isHeaderParcel = some false ∧
    (run (bodyAt 2 (encode (.call ⟨false, 0⟩ 1)))).map (fun r => r.fault.isNone && (bundleFault g r).isSome) = some true := by decide +kernel
/-- A run of words, each of two parcels. -/
def runOf (l : List Instr) : Run := { words := l.zipIdx.map fun e => ⟨BitVec.ofNat 64 (4 * e.2), e.1⟩ }
theorem witness_GuardsAndBundles_rules : let a : Agent := ⟨0, .a⟩
    let sub (g : Agent) (r : Run) : Option Nat := (bundleFault g r).map (·.sub.toNat)
    let add (s : Bool) (d : BitVec 5) : Instr := .add ⟨s, 0⟩ d 2 3
    let va (d : BitVec 5) : Instr := .vadd ⟨false, 0⟩ d 2 3 0
    sub ⟨0, .m⟩ (runOf [add false 1]) = some 6 ∧ sub a { runOf [add false 1] with compact := some 4 } = some 5 ∧
    sub a { runOf [add false 1] with open_ := true } = some 4 ∧ sub a (runOf [add false 1, add false 2, add false 3]) = some 1 ∧
    sub a (runOf [.br ⟨false, 0⟩ 0, .br ⟨true, 0⟩ 0]) = some 2 ∧ sub ⟨0, .v⟩ (runOf [va 1, va 2, va 3]) = some 2 ∧
    sub a (runOf [.br ⟨false, 0⟩ 0, add true 1]) = some 7 ∧ sub a (runOf [add false 1, add true 1]) = some 3 ∧
    sub a (runOf [add false 1, add true 2]) = none ∧ (vslot (va 1).op).isSome = true := by decide +kernel

theorem witness_CompareWritesPair : let s := atA State.reset
    (1 : BitVec 3) ≠ 0 ∧ (11 : BitVec 4).toNat ≤ 11 ∧ s.myStream.exposed = false ∧ (0 : Nat) < 256 ∧
    Runs (.cmp ⟨true, 0⟩ 1 2 3 11 1) s ∧ Runs (.cmpi ⟨true, 0⟩ 1 2 3 11 1) s ∧
    Runs (.cmp ⟨true, 0⟩ 0 2 3 0 0) (exposedA State.reset) := by decide

theorem witness_PredicateWords : let s := atA State.reset
    wordFault s.me (.pand ⟨true, 0⟩ 2 3 4) = none ∧ wordFault s.me (.por ⟨true, 0⟩ 2 3 4) = none ∧
    wordFault s.me (.pxor ⟨true, 0⟩ 2 3 4) = none ∧ wordFault s.me (.pandn ⟨true, 0⟩ 2 3 4) = none ∧
    wordFault s.me (.pnot ⟨true, 0⟩ 2 3) = none ∧ wordFault s.me (.pmov ⟨true, 0⟩ 2 3) = none ∧
    wordFault s.me (.pbcast ⟨true, 0⟩ 2 3) = none ∧ s.myStream.exposed = false ∧ (exposedA State.reset).myStream.exposed = true ∧
    (1 : Nat) ≤ 1 ∧ (15 : Nat) < 16 ∧ 2 ≤ (15 : Nat) ∧ Runs (.pcnt ⟨true, 0⟩ 1 2) s := by decide

theorem witness_Transfers : let s := atA State.reset
    Runs (.br ⟨true, 0⟩ 0) s ∧ Runs (.jmp ⟨true, 0⟩ 1) s ∧ Runs (.ret ⟨true, 0⟩) s ∧ Runs (.call ⟨true, 0⟩ 0) s ∧ Runs (.callr ⟨true, 0⟩ 1) s := by decide
theorem witness_Transfers_trap : let s := (atA State.reset).modMyStream ({ · with pc := 1 })
    (s.stream s.me).blk = none ∧ (s.stream s.me).arrival = .transfer ∧ (s.stream s.me).pc.getLsbD 0 = true := by decide
theorem witness_Transfers_queue : let s := (atA State.reset).modMySlot fun t => (t.setQueue 2 [4]).setQueue 3 [0]
    Runs (.brq ⟨true, 0⟩ 2 0) s ∧ s.mySlot.queue 2 = [4] ∧ Runs (.brq ⟨true, 0⟩ 3 0) s ∧ s.mySlot.queue 3 = [0] := by decide
theorem witness_Transfers_block : let s := (atA State.reset).modMyStream ({ · with blk := some (smallBlock 0) })
    s.readStream.blk = some (smallBlock 0) := by decide

theorem witness_LoadsRead : let s := withPart (atA State.reset)
    (myReq s).ctl = none ∧ Runs (.ldb ⟨true, 0⟩ 2 1 0 0) s ∧ Runs (.ldh ⟨true, 0⟩ 2 1 0 0) s ∧ Runs (.ldw ⟨true, 0⟩ 2 1 0 0) s ∧
    Runs (.ldd ⟨true, 0⟩ 2 1 0 0) s ∧ Runs (.compactLdd 2 1) s ∧ Runs (.ldlit ⟨true, 0⟩ 2 0) s ∧
    (resolveAccess s (myReq s) .r (s.readX 1) (s.readX 1) 8).toOption = some [{ key := padKey 0 0, len := 8 }] ∧
    touchesEmpty s { key := padKey 0 0, len := 8 } = false ∧ touchesPoison s { key := padKey 0 0, len := 8 } = false := by decide +kernel
theorem witness_LoadsRead_waits : let s := setEmptyLines (withPart (atA State.reset)) 0 [0]
    (resolveAccess s (myReq s) .r (s.readX 1) (s.readX 1) 8).toOption = some [{ key := padKey 0 0, len := 8 }] ∧
    touchesEmpty s { key := padKey 0 0, len := 8 } = true := by decide +kernel
theorem witness_LoadsRead_bad : let s := spreadPoison (withPart (atA State.reset)) { key := padKey 0 0, len := 8 }
    (resolveAccess s (myReq s) .r (s.readX 1) (s.readX 1) 8).toOption = some [{ key := padKey 0 0, len := 8 }] ∧
    touchesEmpty s { key := padKey 0 0, len := 8 } = false ∧ touchesPoison s { key := padKey 0 0, len := 8 } = true := by decide +kernel
theorem witness_LoadsRead_faults : let s := atA State.reset
    (resolveAccess s (myReq s) .r (s.readX 1) (s.readX 1) 8).toOption = none := by decide +kernel
theorem witness_LoadsRead_literal : let s := (withPart (atA State.reset)).modMyStream ({ · with blk := some (smallBlock 0x1000000000000000) })
    2 ^ 60 ≤ (BitVec.ofNat 64 (s.readStream.header.toNat / 8 * 8) + (0 : BitVec 14).signExtend 64 * 8 : Word).toNat ∧
    Runs (.ldlit ⟨true, 0⟩ 2 0) s := by decide +kernel
theorem witness_LoadsRead_local : let s := atCtl 5 State.reset
    (myReq s).ctl = some 5 ∧ Runs (.ldd ⟨true, 0⟩ 2 1 0 0) s ∧ (resolveLocal s 5 0 0 8).isOk = true ∧ reachedReg s 5 0 = none ∧
    (resolveLocal s 5 0x100000 0x100000 8).isOk = true ∧ (reachedReg s 5 0x100000).isSome = true ∧
    (resolveLocal s 5 (BitVec.allOnes 64) (2 ^ 64 - 1) 8).isOk = false := by decide +kernel

theorem witness_StoresWrite : let s := withPart (atA State.reset)
    (myReq s).ctl = none ∧ Memory.wf s.mem = true ∧ Runs (.stb ⟨true, 0⟩ 2 1 0 0) s ∧ Runs (.sth ⟨true, 0⟩ 2 1 0 0) s ∧ Runs (.stw ⟨true, 0⟩ 2 1 0 0) s ∧
    Runs (.std ⟨true, 0⟩ 2 1 0 0) s ∧ Runs (.compactStd 2 1) s ∧
    (resolveAccess s (myReq s) .w (s.readX 1) (s.readX 1) 8).toOption = some [{ key := padKey 0 0, len := 8 }] ∧
    isCxl (padKey 0 0) = false := by decide +kernel
theorem witness_StoresWrite_faults : let s := atA State.reset
    Runs (.std ⟨true, 0⟩ 2 1 0 0) s ∧ (resolveAccess s (myReq s) .w (s.readX 1) (s.readX 1) 8).toOption = none := by decide +kernel
theorem witness_StoresWrite_local : let s := atCtl 5 State.reset
    (myReq s).ctl = some 5 ∧ Memory.wf s.mem = true ∧ Runs (.std ⟨true, 0⟩ 2 1 0 0) s ∧ (resolveLocal s 5 0 0 8).isOk = true ∧
    withheld s 5 0 = false ∧ reachedReg s 5 0 = none ∧ (resolveLocal s 5 0x100000 0x100000 8).isOk = true ∧ withheld s 5 0x100000 = false ∧
    (reachedReg s 5 0x100000).isSome = true ∧ (resolveLocal s 5 (BitVec.allOnes 64) (2 ^ 64 - 1) 8).isOk = false := by decide +kernel
theorem witness_StoresWrite_withheld : let s := atCtl 37 State.reset
    (myReq s).ctl = some 37 ∧ (resolveLocal s 37 0x100000 0x100000 8).isOk = true ∧ withheld s 37 0x100000 = true := by decide +kernel

theorem witness_AtomicsAct : let s := withPart (atA State.reset)
    (myReq s).ctl = none ∧ Runs (.amo ⟨true, 0⟩ 2 1 3 0) s ∧ Runs (.amow ⟨true, 0⟩ 2 1 3 0) s ∧ Runs (.amon ⟨true, 0⟩ 1 3 9) s ∧
    Runs (.cas ⟨true, 0⟩ 2 1 3) s ∧ Runs (.casw ⟨true, 0⟩ 2 1 3) s ∧ Runs (.asc ⟨true, 0⟩ 2 1 3 0) s ∧ Runs (.ascCas ⟨true, 0⟩ 2 1 3) s ∧
    (s.readX 1).toNat / 2 ^ 60 ∈ [0, 8, 9, 10] ∧ (s.readX 1).toNat % 8 = 0 ∧ (s.readX 1).toNat / 2 ^ 60 ∉ [0, 10] ∧
    (resolveAccess s (myReq s) .rw (s.readX 1) (s.readX 1) 8).toOption = some [{ key := padKey 0 0, len := 8 }] ∧
    touchesEmpty s { key := padKey 0 0, len := 8 } = false ∧ touchesPoison s { key := padKey 0 0, len := 8 } = false ∧
    (fp32.decode 0x7FC00001).isNan = true ∧ (fp64.decode 0x7FF8000000000001).isNan = true := by decide +kernel
theorem witness_AtomicsAct_waits : let s := setEmptyLines (withPart (atA State.reset)) 0 [0]
    (resolveAccess s (myReq s) .rw (s.readX 1) (s.readX 1) 8).toOption = some [{ key := padKey 0 0, len := 8 }] ∧
    touchesEmpty s { key := padKey 0 0, len := 8 } = true := by decide +kernel
theorem witness_AtomicsAct_bad : let s := spreadPoison (withPart (atA State.reset)) { key := padKey 0 0, len := 8 }
    (resolveAccess s (myReq s) .rw (s.readX 1) (s.readX 1) 8).toOption = some [{ key := padKey 0 0, len := 8 }] ∧
    touchesEmpty s { key := padKey 0 0, len := 8 } = false ∧ touchesPoison s { key := padKey 0 0, len := 8 } = true := by decide +kernel
theorem witness_AtomicsAct_local : let s := atCtl 5 State.reset
    (myReq s).ctl = some 5 ∧ Runs (.amo ⟨true, 0⟩ 2 0 3 0) s ∧ (s.readX 0).toNat / 2 ^ 60 ∈ [0, 8, 9, 10] ∧ (s.readX 0).toNat % 8 = 0 ∧
    (resolveLocal s 5 0 0 8).isOk = true ∧ (ctlRead s 5 0 8).isOk = true ∧ (ctlWrite s 5 0 (natBytes 8 1)).isOk = true ∧
    (ctlRead s 5 0x200000 8).isOk = false := by decide +kernel
theorem witness_AtomicsAct_withheld : (ctlWrite (atCtl 37 State.reset) 37 0x100000 (natBytes 8 1)).isOk = false := by decide +kernel
theorem witness_AtomicsAct_chip : let s := withX (withChip (atA State.reset)) 1 0xA000000000000000
    Runs (.asc ⟨true, 0⟩ 2 1 3 0) s ∧ (resolveAccess s (myReq s) .rw (s.readX 1) (s.readX 1) 8).toOption = some [{ key := chipKey 0, len := 8 }] ∧
    touchesEmpty s { key := chipKey 0, len := 8 } = false := by decide +kernel
theorem witness_AtomicsAct_misaligned : let s := withX (atA State.reset) 1 0x8000000000000001
    (s.readX 1).toNat / 2 ^ 60 ∈ [0, 8, 9, 10] ∧ (s.readX 1).toNat % 4 ≠ 0 := by decide +kernel

theorem witness_SemaphoreWords : let s := withX (atA State.reset) 1 5
    Runs (.sadd ⟨true, 0⟩ 3 1) s ∧ Runs (.saddi ⟨true, 0⟩ 3 1) s ∧ Runs (.swait ⟨true, 0⟩ 3 1) s ∧ Runs (.sread ⟨true, 0⟩ 1 3) s ∧
    Runs (.sset ⟨true, 0⟩ 3 1) s ∧ (s.mySlot.semAt 3).toNat + 5 < 2 ^ 32 ∧
    (s.mySlot.semAt 3).toNat < ((s.readX 1).extractLsb' 0 32).toNat ∧ ((s.readX 2).extractLsb' 0 32).toNat ≤ (s.mySlot.semAt 3).toNat ∧
    5 ≤ (5 : BitVec 3).toNat ∧ (1 : BitVec 5) ≠ 0 := by decide
theorem witness_SemaphoreWords_overflow : let s := (atA State.reset).modMySlot (·.setSem 3 0xFFFFFFFF)
    Runs (.saddi ⟨true, 0⟩ 3 1) s ∧ 2 ^ 32 ≤ (s.mySlot.semAt 3).toNat + 1 := by decide

theorem witness_QueueWords : let s := atA State.reset
    Runs (.qput ⟨true, 0⟩ 0 1) s ∧ (s.mySlot.queue 0).length < 16 ∧ s.mySlot.queue 2 = [] ∧ Runs (.qget ⟨true, 0⟩ 1 2) s ∧
    Runs (.brq ⟨true, 0⟩ 2 0) s ∧ Runs (.qcount ⟨true, 0⟩ 1 2) s ∧ Runs (.qflush ⟨true, 0⟩ 2) s ∧ isJob s.me.slot = true := by decide
theorem witness_QueueWords_full : let s := (atA State.reset).modMySlot fun t => (t.setQueue 0 (List.replicate 16 1)).setQueue 2 [7]
    Runs (.qput ⟨true, 0⟩ 0 1) s ∧ 16 ≤ (s.mySlot.queue 0).length ∧ s.mySlot.queue 2 = [7] ∧ Runs (.qget ⟨true, 0⟩ 1 2) s := by decide

theorem witness_ControlRegisterWords : let s := (atA State.reset).modMySlot ({ · with tilesMask := 1 })
    s.issue.view = none ∧ isJob s.me.slot = true ∧ Runs (.csrr ⟨true, 0⟩ 1 0) s ∧ Runs (.csrr ⟨true, 0⟩ 1 3) s ∧ Runs (.csrr ⟨true, 0⟩ 1 0x102) s ∧
    Runs (.csrr ⟨true, 0⟩ 1 0x401) s ∧ Runs (.csrr ⟨true, 0⟩ 1 0x10F) s ∧ Runs (.csrr ⟨true, 0⟩ 1 0x405) s ∧ s.mySlot.job.rampSlot = none ∧
    Runs (.csrw ⟨true, 0⟩ 1 0) s ∧ Runs (.csrwSet ⟨true, 0⟩ 1 1) s ∧ Runs (.csrwClr ⟨true, 0⟩ 1 0x104) s ∧ Runs (.csrw ⟨true, 0⟩ 1 0x103) s ∧
    Runs (.csrw ⟨true, 0⟩ 1 0x106) s ∧ Runs (.csrr ⟨true, 0⟩ 1 0x2F5) s ∧ Runs (.csrw ⟨true, 0⟩ 1 0x2F5) s ∧ Runs (.csrw ⟨true, 0⟩ 1 0x3F2) s ∧
    Runs (.csrr ⟨true, 0⟩ 1 0x3F6) s ∧
    s.mySlot.holdsTile ((s.readX 1).toNat % 4) = true ∧ csrExists 7 = false ∧ csrWritable false 3 = false ∧
    isFw (atFw State.reset).me.slot = true ∧ Runs (.csrw ⟨true, 0⟩ 1 0x404) (atFw State.reset) := by decide +kernel
theorem witness_ControlRegisterWords_ramp : let l : Launch := { id := 1, origin := .packet 0 0, rampFirst := 4 }
    let s := (atA { State.reset with launches := [(1, l)] }).modSlot 0 ({ · with launch := 1, job := { rampSlot := some 6 } })
    isJob s.me.slot = true ∧ s.launch s.mySlot.launch = some l ∧ s.mySlot.job.rampSlot = some 6 ∧ Runs (.csrr ⟨true, 0⟩ 1 0x403) s := by decide +kernel

theorem witness_SystemWords : let s := withPart (atA State.reset)
    Runs (.nop ⟨true, 0⟩) s ∧ Runs (.fence ⟨true, 0⟩ 1 0) s ∧ Runs (.trap ⟨true, 0⟩ 1) s ∧ Runs (.bkpt ⟨true, 0⟩) s ∧ Runs (.sysEnd ⟨true, 0⟩) s ∧
    Runs (.rdv ⟨true, 0⟩ 1) s ∧ Runs (.rdv ⟨true, 0⟩ 3) s ∧ ¬ (1 ≤ (s.mySlot.stream .m).rdvReached 3) ∧ Runs (.lbar ⟨true, 0⟩ 0) s ∧
    s.launch s.mySlot.launch = none ∧ Runs (.mwait ⟨true, 0⟩ 1) s ∧
    (resolve s (myReq s) .r (s.readX 1) (s.readX 1) 1).toOption = some [{ key := padKey 0 0, len := 1 }] ∧ s.myStream.monitor = none ∧
    (s.core 0).port = [] := by decide +kernel
theorem witness_SystemWords_fence : let r : Retire := { slot := 0, nest := 1, tile := 0, n := 0 }
    let s := (atM State.reset).modCore 0 ({ · with port := [r] })
    Runs (.fence ⟨true, 0⟩ 1 0) s ∧ r ∈ (s.core (slotCore s.me.slot)).port ∧ r.slot = s.me.slot ∧ isJob s.me.slot = true ∧ s.me.st = .m := by decide +kernel
theorem witness_SystemWords_lbar : let l : Launch := { id := 1, origin := .packet 0 0, levels := [⟨5, 0, 1⟩] }
    let s := (atA { State.reset with launches := [(1, l)] }).modSlot 0 ({ · with launch := 1, coresident := true, job := { leafv := true }, state := .running })
    Runs (.lbar ⟨true, 0⟩ 0) s ∧ s.launch s.mySlot.launch = some l ∧ s.mySlot.coresident = true ∧ s.mySlot.job.leafv = true ∧
    (0 : BitVec 3).toNat < l.levels.length := by decide +kernel
theorem witness_SystemWords_mwait : let s := (withPart (atA State.reset)).modMyStream ({ · with monitor := some ⟨padKey 0 0 / 128, false⟩ })
    Runs (.mwait ⟨true, 0⟩ 1) s ∧ s.myStream.monitor = some ⟨padKey 0 0 / 128, false⟩ ∧ s.mySlot.state ≠ .stopping := by decide +kernel

theorem witness_CommandIssue : let s := withX (withPart (atA State.reset)) 3 0xC000000000000000
    let h : Hd := ⟨true, 0⟩
    let c (op fn : Nat) (a b : BitVec 5) : Cmd := { cw := s.readX 2, opa := s.readX a, opb := s.readX b, op := op, fn := fn, cmdidx := 0 }
    Runs (.cpyLin h 2 1 1) s ∧ cmdFault (c 0x25 0 1 1) = none ∧ Runs (.cpyShp h 2 1 1) s ∧ cmdFault (c 0x25 1 1 1) = none ∧
    Runs (.cpySlot h 2 1 0) s ∧ cmdFault (c 0x25 2 1 0) = none ∧ Runs (.cpyFill h 2 0 1) s ∧ cmdFault (c 0x25 3 0 1) = none ∧
    Runs (.cpyCirc h 2 1 0) s ∧ cmdFault { c 0x25 4 1 0 with cw := 128 } = none ∧ Runs (.gath h 2 0 1) s ∧ cmdFault (c 0x26 0 0 1) = none ∧
    Runs (.scat h 2 1 0) s ∧ cmdFault (c 0x26 1 1 0) = none ∧ Runs (.fput h 2 1 3) s ∧ cmdFault (c 0x29 0 1 3) = none ∧
    Runs (.fget h 2 3 1) s ∧ cmdFault (c 0x29 1 3 1) = none ∧ Runs (.fred h 2 3 1 0) s ∧ cmdFault (c 0x2A 0 3 1) = none ∧
    Runs (.fsig h 2 3 1) s ∧ cmdFault (c 0x2B 2 3 1) = none ∧ Runs (.fcoll h 2 1 0) s ∧ cmdFault (c 0x2B 3 1 0) = none ∧
    Runs (.segdet h 2 1) s ∧ cmdFault (c 0x2C 2 1 0) = none ∧ Runs (.segevict h 2 1) s ∧ cmdFault (c 0x2C 3 1 0) = none ∧
    Runs (.segdrop h 2 1) s ∧ cmdFault (c 0x2C 4 1 0) = none ∧ Runs (.cflush h 2 0 0) s ∧ cmdFault (c 0x2D 0 0 0) = none ∧
    Runs (.cinv h 2 0 0) s ∧ cmdFault (c 0x2D 1 0 0) = none ∧ Runs (.cclean h 2 0 0) s ∧ cmdFault (c 0x2D 2 0 0) = none ∧
    Runs (.cpref h 2 0 0) s ∧ cmdFault (c 0x2D 3 0 0) = none ∧ s.mySlot.cq.length < 32 ∧ s.mySlot.fq.length < 32 := by decide +kernel
theorem witness_CommandIssue_circuit : let s := withX (withPart (atA State.reset)) 2 128
    Runs (.cpyCirc ⟨true, 0⟩ 2 1 0) s ∧
    cmdFault { cw := s.readX 2, opa := s.readX 1, opb := s.readX 0, op := 0x25, fn := 4, cmdidx := 0 } = none := by decide +kernel
theorem witness_CommandIssue_full : let s := (withPart (atA State.reset)).modMySlot ({ · with cq := List.replicate 32 {} })
    Runs (.cpyLin ⟨true, 0⟩ 2 1 1) s ∧ 32 ≤ s.mySlot.cq.length ∧
    cmdFault { cw := s.readX 2, opa := s.readX 1, opb := s.readX 1, op := 0x25, fn := 0, cmdidx := 0 } = none := by decide +kernel

theorem witness_RingWords : let r : Ring := { geom := 0x102, role := 0x100, free := 1, filled := 1 }
    let s := (withPart (atA State.reset)).modMySlot fun t => { (t.setRing 1 r) with ringMask := 2 }
    let h : Hd := ⟨true, 0⟩
    Runs (.racq h 2 1 0) s ∧ Runs (.racq h 2 1 1) s ∧ (2).testBit 1 = true ∧ r.enabled = true ∧ r.agent false = ringAgent s.me.st ∧
    r.agent true = ringAgent s.me.st ∧ 0 < r.free ∧ 0 < r.filled ∧ redoing s.myStream 1 = none ∧ Runs (.rstat h 2 1) s ∧ Runs (.rstat h 2 0) s ∧
    s.mySlot.ringMask.testBit 0 = false ∧
    r.heldP = [] ∧ r.heldC = [] ∧ Runs (.rrel h 1 0) s ∧ Runs (.rrel h 1 1) s ∧ Runs (.rcan h 1 0) s ∧ (s.mySlot.ring 1) = r := by decide +kernel
theorem witness_RingWords_held : let r : Ring := { geom := 0x102, role := 0x100, heldP := [(0, false)], heldC := [(1, false)] }
    let s := (withPart (atA State.reset)).modMySlot fun t => { (t.setRing 1 r) with ringMask := 2 }
    let h : Hd := ⟨true, 0⟩
    Runs (.rrel h 1 0) s ∧ Runs (.rrel h 1 1) s ∧ Runs (.rcan h 1 0) s ∧ Runs (.rcan h 1 1) s ∧ (r.heldP.find? (!·.2)).map (·.1) = some 0 ∧
    (r.heldC.find? (!·.2)).map (·.1) = some 1 ∧ r.heldC ≠ [] ∧ r.heldP ≠ [] ∧
    r.free = 0 ∧ r.filled = 0 ∧ r.enabled = true ∧ r.agent true = ringAgent s.me.st ∧ (s.mySlot.ring 1) = r := by decide +kernel
theorem witness_RingWords_restarts : let r : Ring := { geom := 0x102, role := 0x100, heldC := [(1, false)] }
    let ph : Phase := { ring := 1, x := .replicate 32 0, p := .replicate 16 0, lc := 0, rrb := 0, n := 1, cancels := 1, outHeld := 0, redo := true }
    let c : Cmd := { again := true, cw := 0x100000000000 }
    let s := ((withPart (atA State.reset)).modMySlot fun t => { (t.setRing 1 r) with ringMask := 2 }).modMyStream ({ · with phase := some ph })
    let u := s.modMySlot ({ · with cq := [c] })
    Runs (.racq ⟨true, 0⟩ 2 1 1) s ∧ redoing s.myStream 1 = some ph ∧ r.heldC.getLast? = some (1, false) ∧ r.agent true = ringAgent s.me.st ∧
    s.mySlot.cq ++ s.mySlot.fq = [] ∧ c ∈ u.mySlot.cq ++ u.mySlot.fq ∧ cwRing c.cw = 1 ∧ redoing u.myStream 1 = some ph := by decide +kernel
theorem witness_RingWords_other : let r : Ring := { geom := 0x102, role := 0x102 }
    let s := (withPart (atA State.reset)).modMySlot fun t => { (t.setRing 1 r) with ringMask := 2 }
    s.mySlot.ringMask.testBit 0 = false ∧ Runs (.racq ⟨true, 0⟩ 2 0 0) s ∧ r.enabled = true ∧ r.agent false ≠ ringAgent s.me.st ∧
    Runs (.racq ⟨true, 0⟩ 2 1 0) s ∧ Runs (.rrel ⟨true, 0⟩ 1 0) s ∧ Runs (.rcan ⟨true, 0⟩ 1 0) s := by decide +kernel

theorem witness_LineWords : let s := withX (withX (withPart (atA State.reset)) 2 1) 3 0x8000000000000001
    Runs (.fempty ⟨true, 0⟩ 1 2) s ∧ (s.readX 2).toNat = 1 ∧ (s.readX 1).toNat / 2 ^ 60 = 8 ∧ (s.readX 1).toNat % 128 = 0 ∧
    (s.readX 3).toNat % 128 ≠ 0 ∧ (s.readX 0).toNat / 2 ^ 60 = 0 ∧ 16384 < (s.readX 1).toNat ∧
    (resolve s (myReq s) .w (s.readX 1) (s.readX 1) 128).toOption = some [{ key := padKey 0 0, len := 128 }] ∧ Runs (.ftest ⟨true, 0⟩ 2 1) s ∧
    (resolve s (myReq s) .r (s.readX 1) (s.readX 1) 1).toOption = some [{ key := padKey 0 0, len := 1 }] := by decide +kernel

theorem witness_RemoteAtomics : let s := withX (atA State.reset) 1 0xC000040000000000
    Runs (.fll ⟨true, 0⟩ 2 1) s ∧ Runs (.fsc ⟨true, 0⟩ 2 1 3) s ∧ (s.readX 1).toNat / 2 ^ 60 = 12 ∧ (s.readX 1).toNat % 8 = 0 ∧
    s.mySlot.reply .a 3 = none ∧ s.mySlot.reply .a 1 = none ∧ s.mySlot.reply .a 2 = none ∧ s.mySlot.reply .a 0 = none ∧
    (s.readX 2).toNat / 2 ^ 60 ≠ 12 := by decide +kernel
theorem witness_RemoteAtomics_answered : let s := (withX (atA State.reset) 1 0xC000040000000000).modMySlot (·.setReply .a 1 7)
    s.mySlot.reply .a 3 = none ∧ s.mySlot.reply .a 1 = some 7 := by decide +kernel
theorem witness_RemoteAtomics_poisoned : let s := (withX (atA State.reset) 1 0xC000040000000000).modMySlot (·.setReply .a 3 0)
    Runs (.fll ⟨true, 0⟩ 2 1) s ∧ s.mySlot.reply .a 3 ≠ none := by decide +kernel
theorem witness_RemoteAtomics_failed : let s := (withX (atA State.reset) 1 0xC000040000000000).modMySlot (·.setReply .a 2 0x21)
    s.mySlot.reply .a 3 = none ∧ s.mySlot.reply .a 1 = none ∧ s.mySlot.reply .a 2 = some 0x21 := by decide +kernel
theorem witness_RemoteAtomics_outstanding : let s := (withX (atA State.reset) 1 0xC000040000000000).modMySlot (·.setReply .a 0 0)
    s.mySlot.reply .a 3 = none ∧ s.mySlot.reply .a 1 = none ∧ s.mySlot.reply .a 2 = none ∧ s.mySlot.reply .a 0 = some 0 := by decide +kernel

theorem witness_TarnWords : let t : Tarn := { ctx := 0, name := 7, level := 2, home := 0, size := 1, life := 0, backing := 0, fill := false, state := .resident, run := 0 }
    let s := withX (atA { State.reset with tarns := [t] }) 1 7
    Runs (.segatt ⟨true, 0⟩ 2 1 0 1) s ∧ postedFault s.mySlot = none ∧ findTarn s s.mySlot.ctx 7 = some t ∧ t.attached = false ∧
    t.home = domainOf t.level s.myCore ∧ (s.readX 1).toNat % 2 ^ 48 = 7 ∧ Runs (.segqry ⟨true, 0⟩ 2 1) s ∧ t.waits s.me = none ∧
    attachesFull s s.me = false ∧ findTarn s s.mySlot.ctx ((s.readX 2).toNat % 2 ^ 48) = none := by decide +kernel
theorem witness_TarnWords_waits : let t : Tarn := { ctx := 0, name := 7, level := 2, home := 0, size := 1, life := 0, backing := 0, fill := false, state := .filling, run := 0 }
    let s := withX (atA { State.reset with tarns := [t] }) 1 7
    Runs (.segatt ⟨true, 0⟩ 2 1 0 0) s ∧ findTarn s s.mySlot.ctx 7 = some t ∧ t.writer = false ∧ t.ending = false ∧ t.evicts = [] ∧
    t.waits s.me = none ∧ ({ t with ending := true } : Tarn).ending = true := by decide +kernel
theorem witness_TarnWords_new : let s := withX (withX (atA State.reset) 1 7) 2 0x10001
    Runs (.segnew ⟨true, 0⟩ 3 1 2) s ∧ specBad (s.readX 2) = false ∧ specBad (s.readX 1 + 0x8000 * 3) = true ∧ findTarn s s.mySlot.ctx 7 = none ∧
    attachesFull s s.me = false ∧ s.tarns.length < 4096 := by decide +kernel
theorem witness_TarnWords_full : let s := withX ((atA State.reset).modMySlot ({ · with attach := List.replicate 16 ⟨1, false⟩ })) 1 7
    attachesFull s s.me = true ∧ findTarn s s.mySlot.ctx 7 = none ∧ postedFault s.mySlot = none := by decide +kernel
theorem witness_TarnWords_room : (allocRun State.reset 2 0 1 (.auto (some 0) 0)).1 = .got 0 ∧
    findTarn (allocRun State.reset 2 0 1 (.auto (some 0) 0)).2 0 7 = none := by decide +kernel
theorem witness_TarnWords_ready : let t : Tarn := { ctx := 0, name := 7, level := 2, home := 0, size := 1, life := 0, backing := 0, fill := false, state := .resident, run := 0, writer := true, waiting := [(⟨0, .a⟩, true)] }
    let s := withX (withX (atA { State.reset with tarns := [t] }) 1 7) 2 0x10001
    Runs (.segnew ⟨true, 0⟩ 3 1 2) s ∧ Runs (.segatt ⟨true, 0⟩ 3 1 0 1) s ∧ findTarn s s.mySlot.ctx 7 = some t ∧ t.waits s.me = some true ∧
    specBad (s.readX 2) = false ∧ postedFault s.mySlot = none := by decide +kernel

theorem witness_TaskWords : let s := withX (withX (withPart (atA State.reset)) 2 1) 3 0x8000000000000001
    (myReq s).ctl = none ∧ Memory.wf s.mem = true ∧ Runs (.taskjoin ⟨true, 0⟩ 4 1 2) s ∧ Runs (.taskadd ⟨true, 0⟩ 4 1 2) s ∧ Runs (.taskget ⟨true, 0⟩ 4 1 2) s ∧
    isJob s.me.slot = true ∧ (s.readX 1).toNat % 64 = 0 ∧ (s.readX 3).toNat % 8 ≠ 0 ∧ (s.readX 0).toNat = 0 ∧ 0 < (s.readX 2).toNat ∧
    (resolveAccess s (myReq s) .rw (s.readX 1) (s.readX 1) 8).toOption = some [{ key := padKey 0 0, len := 8 }] ∧
    (resolveAccess s (myReq s) .w (s.readX 1) (s.readX 1) 64).toOption = some [{ key := padKey 0 0, len := 64 }] ∧
    touchesEmpty s { key := padKey 0 0, len := 64 } = false ∧ touchesPoison s { key := padKey 0 0, len := 64 } = false ∧
    popWindow (workCands s) = [] ∧ taskgetDue s s.me.slot 0 = true ∧ taskgetDue s s.me.slot 1 = false ∧
    (acceptAll s (chunks64 1 (piecesBytes s [{ key := padKey 0 0, len := 64 }]))).toOption = none := by decide +kernel
theorem witness_TaskWords_accepted : let l : Launch := { id := 1, origin := .packet 0 0 }
    let s0 : State := { State.reset with launches := [(1, l)], mem := writeBytes [] (padKey 0 28) [1] }
    let s := withX ((withPart (atA s0)).modMySlot ({ · with launch := 1 })) 2 1
    ((acceptAll s (chunks64 1 (piecesBytes s [{ key := padKey 0 0, len := 64 }]))).toOption.bind (addRecs s)).isSome = true := by decide +kernel
theorem witness_TaskWords_window : let r : TaskRec := { kind := 1, ready := true }
    let s := withPart (atA { State.reset with tq := { State.reset.tq with records := [(3, r)] } })
    popWindow (workCands s) = [(3, r)] ∧ sfind s.mySlot.replies 5 = none := by decide +kernel

theorem witness_FirmwareWords : let s := atFw (State.reset.modSlot 0 ({ · with state := .stopped }))
    isFw s.me.slot = true ∧ Runs (.wfe ⟨true, 0⟩) s ∧ (s.core 0).fw.event &&& (s.core 0).fw.evmask = 0 ∧ Runs (.eret ⟨true, 0⟩) s ∧
    fwTarget s 0 = 0 ∧ (s.slot 0).state = .stopped ∧ quiescent s 0 = true ∧ Runs (.stopack ⟨true, 0⟩) s ∧ s.windows = [] ∧
    (enqueue s { (s.slot 0).job with resume := true }).isSome = true := by decide +kernel
theorem witness_FirmwareWords_event : let s := atFw (State.reset.modFw 0 ({ · with event := 4, evmask := 4 }))
    (s.core 0).fw.event &&& (s.core 0).fw.evmask ≠ 0 ∧ (s.slot 0).state ≠ .stopped ∧ (s.slot 0).state ≠ .trapped ∧
    isJob (0 : Nat) = true ∧
    quiescent (s.modSlot 0 ({ · with trapDue := true })) 0 = false := by decide +kernel

theorem witness_RowWrite : let s := vState
    s.myStream.exposed = false ∧ s.rowNo 3 < 256 ∧ Rising (s.core s.myCore).tiles := by decide +kernel

theorem witness_VectorFloat : let s := vState
    let h : Hd := ⟨true, 0⟩
    SecondOperand s 3 0 s.readType s (s.readV 3) ∧ VRuns (.vadd h 1 2 3 0) .fp s ∧ VRuns (.vsub h 1 2 3 0) .fp s ∧ VRuns (.vmul h 1 2 3 0) .fp s ∧ VRuns (.vfma h 1 2 3 0) .fp s ∧
    VRuns (.vfms h 1 2 3 0) .fp s ∧ VRuns (.vfnma h 1 2 3 0) .fp s ∧ VRuns (.vmax h 1 2 3 0) .fp s ∧
    VRuns (.vmin h 1 2 3 0) .fp s := ⟨fun _ => rfl, by decide +kernel⟩
theorem witness_VectorFloat_unary : let s := vState
    let h : Hd := ⟨true, 0⟩
    VRuns (.vabs h 1 2) .fp s ∧ VRuns (.vneg h 1 2) .fp s ∧ VRuns (.vrcpe h 1 2) .fp s ∧ VRuns (.vrsqe h 1 2) .fp s ∧
    VRuns (.vfloor h 1 2) .fp s ∧ VRuns (.vrnd h 1 2) .fp s ∧ VRuns (.vscale h 1 2 3 0) .fp s := by decide +kernel

theorem witness_VectorInteger : let s := vIntState
    let h : Hd := ⟨true, 0⟩
    SecondOperand s 3 0 s.readType s (s.readV 3) ∧ VRuns (.viadd h 1 2 3 0) .int s ∧ VRuns (.visub h 1 2 3 0) .int s ∧ VRuns (.vimul h 1 2 3 0) .int s ∧ VRuns (.vand h 1 2 3 0) .any s ∧
    VRuns (.vor h 1 2 3 0) .any s ∧ VRuns (.vxor h 1 2 3 0) .any s ∧ VRuns (.vshl h 1 2 3 0) .any s ∧ VRuns (.vshr h 1 2 3 0) .any s ∧
    VRuns (.vsar h 1 2 3 0) .any s ∧ VRuns (.vmov h 1 3 0) .any s ∧ VRuns (.vclamp h 1 2 3 0) .any s ∧ s.readType.isInt = true ∧
    wordFault s.me (.vsel h 1 2 3 0) = none ∧ windowFault s = none ∧ vState.readType.isInt = false ∧
    VRuns (.vclamp h 1 2 3 0) .any vState := ⟨fun _ => rfl, by decide +kernel⟩

theorem witness_VectorAcross : let s := vState
    let h : Hd := ⟨true, 0⟩
    SecondOperand s 3 0 s.readType s (s.readV 3) ∧
    VRuns (.vperm h 1 2 3 0) .any s ∧ VRuns (.vrot h 1 2 3 0) .any s ∧ VRuns (.vshft h 1 2 3 0) .any s ∧ VRuns (.vdup h 1 2 3 0) .any s ∧
    VRuns (.vbc h 1 2) .any s ∧ Runs (.vext h 1 2 3) s ∧ windowFault s = none ∧ VRuns (.vcmp h 1 2 3 7 1) .any s ∧ (7 : BitVec 4).toNat ≤ 7 ∧
    s.readType.isInt = false ∧ VRuns (.vcmp h 1 2 3 8 1) .any s ∧ 8 ≤ (8 : BitVec 4).toNat ∧ wordFault s.me (.vradd h 1 2) = none ∧
    wordFault s.me (.vrmax h 1 2) = none ∧ wordFault s.me (.vrmin h 1 2) = none ∧ wordFault s.me (.vraddx h 1 2) = none :=
  ⟨fun _ => rfl, by decide +kernel⟩
theorem witness_VectorAcross_convert : let s := vState
    let h : Hd := ⟨true, 0⟩
    VRuns (.vcvt h 1 2 0 0 5) .any s ∧ VRuns (.vcvt h 1 2 1 1 1) .any s ∧ VRuns (.vcvt h 1 2 0 2 2) .any s ∧ VRuns (.vcvt h 1 2 0 3 3) .any s ∧
    VRuns (.vcvt h 1 2 0 4 0) .any s ∧ VRuns (.vcvt h 1 2 1 5 0) .any s ∧ VRuns (.vcvt h 1 2 0 6 0) .any s ∧ VRuns (.vcvt h 1 2 0 7 0) .any s := by decide +kernel
theorem witness_VectorAcross_more : let s := vState
    let h : Hd := ⟨true, 0⟩
    VRuns (.vcvt h 1 2 0 8 2) .any s ∧ VRuns (.vcvt h 1 2 0 9 2) .any s ∧ VRuns (.vcvt h 1 2 0 10 1) .any s ∧ VRuns (.vcvt h 1 2 0 11 1) .any s ∧
    VRuns (.vcvt h 1 2 0 12 1) .any s ∧ VRuns (.vcvt h 1 2 1 13 1) .any s ∧ VRuns (.vcvt h 1 2 0 14 0) .any s := by decide +kernel
theorem witness_VectorAcross_int : let s := vIntState
    VRuns (.vcmp ⟨true, 0⟩ 0 2 3 11 1) .any s ∧ s.readType.isInt = true ∧ (11 : BitVec 4).toNat ≤ 11 := by decide +kernel

theorem witness_VectorMemory : let s := withPart vState
    let h : Hd := ⟨true, 0⟩
    Memory.wf s.mem = true ∧ Rising (s.core s.myCore).tiles ∧ VRuns (.vld h 2 1 0 0) .any s ∧ VRuns (.vst h 2 1 0 0) .any s ∧ (s.readX 1).toNat % 4 = 0 ∧ s.readType.width = 32 ∧
    (vecPieces s .r (s.readX 1) 32 [0]).toOption = some [(0, [{ key := padKey 0 0, len := 4 }])] ∧ touchesEmpty s { key := padKey 0 0, len := 4 } = false ∧
    touchesPoison s { key := padKey 0 0, len := 4 } = false ∧ (vecPieces s .w (s.readX 1) 32 [0]).toOption.isSome = true := by decide +kernel
theorem witness_VectorMemory_lanes : let s := withX vState 1 0xB000000000000004
    let h : Hd := ⟨true, 0⟩
    (laneAddr s 1 1).toOption = some 8 ∧ VRuns (.vldl h 2 1 1) .any s ∧ VRuns (.vstl h 2 1 1) .any s ∧ VRuns (.vcord h 2 1 0 0) .fp s ∧
    s.myStream.exposed = false ∧ s.rowNo 2 < 256 := by decide +kernel
theorem witness_VectorMemory_waits : let s := setEmptyLines (withPart vState) 0 [0]
    VRuns (.vld ⟨true, 0⟩ 2 1 0 0) .any s ∧ (vecPieces s .r (s.readX 1) 32 [0]).toOption = some [(0, [{ key := padKey 0 0, len := 4 }])] ∧
    touchesEmpty s { key := padKey 0 0, len := 4 } = true := by decide +kernel
theorem witness_VectorMemory_bad : let s := spreadPoison (withPart vState) { key := padKey 0 0, len := 4 }
    (vecPieces s .r (s.readX 1) 32 [0]).toOption = some [(0, [{ key := padKey 0 0, len := 4 }])] ∧
    touchesEmpty s { key := padKey 0 0, len := 4 } = false ∧ touchesPoison s { key := padKey 0 0, len := 4 } = true := by decide +kernel
theorem witness_VectorMemory_faults : (vecPieces vState .r 0 32 [0]).toOption = none ∧ (vecPieces vState .w 0 32 [0]).toOption = none := by
  decide +kernel
theorem witness_VectorMemory_odd : let s := withX vState 1 0x8000000000000001
    VRuns (.vld ⟨true, 0⟩ 2 1 0 0) .any s ∧ VRuns (.vst ⟨true, 0⟩ 2 1 0 0) .any s ∧ (s.readX 1).toNat % (s.readType.width / 8) ≠ 0 := by decide +kernel

theorem witness_PortsAndWindow : let s := vState.modMySlot ({ · with portMask := 1 })
    let h : Hd := ⟨true, 0⟩
    Runs (.vwin h 0 1 1) s ∧ s.mySlot.holdsTile 0 = true ∧ entryNames s.mySlot 0 = false ∧ (1 : BitVec 3).toNat ≤ 5 ∧
    s.mySlot.holdsTile 1 = false ∧ Runs (.vwin h 1 1 1) s ∧ Runs (.pgo h 0) s ∧ Runs (.pstop h 0) s ∧ Runs (.vstp h 1 0) s ∧
    s.mySlot.portMask.testBit 0 = true ∧ s.mySlot.portMask.testBit 1 = false ∧ Runs (.pgo h 1) s ∧ Runs (.vstat h 1 2) s ∧
    VRuns (.vand h 1 2 0 1) .any s ∧ (s.usePort 0).run = false ∧ VRuns (.vand h 1 2 1 1) .any s ∧
    (slotReq s s.me.slot).ctl = none := by decide +kernel
theorem witness_PortsAndWindow_named : let s := vState.modMySlot ({ · with nests := [{ kind := .zero, td := 1 }] })
    Runs (.vwin ⟨true, 0⟩ 0 0 1) s ∧ s.mySlot.holdsTile 0 = true ∧ entryNames s.mySlot 0 = true := by decide +kernel
theorem witness_PortsAndWindow_use : let q : Port := { run := true, lbase := 0x8000000000000000 }
    let s := (withPart vState).modMySlot fun t => { (t.setPort 0 q) with portMask := 1, state := .running }
    VRuns (.vand ⟨true, 0⟩ 1 2 0 1) .any s ∧ s.usePort 0 = q ∧ q.run = true ∧ q.addr.toNat % (s.readType.width / 8) = 0 ∧
    (s.mySlot.port 0) = q ∧ q.exh = false ∧ q.ahead = [] ∧ q.splat = false ∧
    q.addr = 0x8000000000000000 ∧ (resolveAccess s (slotReq s 0) .r q.addr q.addr 512).toOption = some [{ key := padKey 0 0, len := 512 }] ∧
    touchesEmpty s { key := padKey 0 0, len := 512 } = false ∧ touchesPoison s { key := padKey 0 0, len := 512 } = false ∧ s.mySlot.state = .running ∧
    q.afterAhead.exh = false := by decide +kernel
theorem witness_PortsAndWindow_faults : let q : Port := { run := true, lbase := 0x8000000000000001 }
    let use (q : Port) : State := (withPart vState).modMySlot fun t => { (t.setPort 0 q) with portMask := 1, state := .running }
    let bad : Port := { q with lbase := 0, ahead := [{ value := 0, fault := some (trapOf Code.space 0) }] }
    VRuns (.vand ⟨true, 0⟩ 1 2 0 1) .any (use q) ∧ q.addr.toNat % 4 ≠ 0 ∧ ({ q with ltype := 0x11 } : Port).splat = true ∧
    8 * ({ q with ltype := 0x11 } : Port).esz ≠ (use q).readType.width ∧ ((use bad).usePort 0).ahead = bad.ahead := by decide +kernel
theorem witness_PortsAndWindow_taken : let q : Port := { run := true, lbase := 0, ahead := [{ value := 5, fault := none }] }
    let s := (withPart vState).modMySlot fun t => { (t.setPort 0 q) with portMask := 1, state := .running }
    (s.usePort 0).ahead = q.ahead ∧ (s.usePort 0).addr.toNat % 4 = 0 ∧ (s.usePort 0).exh = false := by decide +kernel
theorem witness_PortsAndWindow_ahead : let q : Port := { run := true, lbase := 0x9000000000000000 }
    let s := (withPart vState).modMySlot fun t => { (t.setPort 0 q) with portMask := 1, state := .running }
    (match resolveAccess s (slotReq s 0) .r q.addr q.addr 512 with | .error f => f.code != 0 | .ok _ => false) = true := by decide +kernel

theorem witness_MatrixWords : let s := mState
    let h : Hd := ⟨true, 0⟩
    Runs (.mma h) s ∧ Runs (.mmac h) s ∧ Runs (.trn h 0 1) s ∧ Runs (.prm h 0 1) s ∧ Runs (.rred h 0 1) s ∧ Runs (.zero h 3) s ∧
    Runs (.mret h 0) s ∧ s.mySlot.nests.length < 8 := by decide +kernel
theorem witness_MatrixWords_accepted : let s := mState
    let q (k : NestKind) (td ts : Nat) (m : MRegs) : Nest := { kind := k, td := td, ts := ts, regs := m, fmtA := s.mySlot.fmtEntry 0, fmtB := s.mySlot.fmtEntry 0 }
    entryFault s 0 (q .trn 0 1 []) = none ∧ entryFault s 0 (q .prm 0 1 []) = none ∧ entryFault s 0 (q .rred 0 1 [(0x3B, 0x100)]) = none ∧
    entryFault s 0 (q .zero 3 0 []) = none ∧ entryFault s 0 (q .mret 0 0 [(0x39, 1)]) = none ∧
    entryFault s 0 (q .mma 0 0 [(0, 0), (4, 1)]) = none ∧ entryFault s 0 (q .mmac 0 0 [(0, 0), (4, 1)]) = none ∧
    (entryFault s 0 (q .zero 4 0 [])).isSome = true := by decide +kernel
theorem witness_MatrixWords_others : let s := (mState).modMySlot fun t => { t with oslots := [(1, { state := .full }), (2, { state := .claimed })], oslotMask := 7 }
    let h : Hd := ⟨true, 0⟩
    Runs (.mcfg h 0 1) s ∧ Runs (.mfmt h 1 1) s ∧ Runs (.mpri h 1) s ∧ Runs (.mclaim h 1) s ∧ Runs (.mclaim h 2) s ∧ Runs (.mclaim h 0) s := by decide +kernel
theorem witness_MatrixWords_slots : let s := (mState).modMySlot fun t => { t with oslots := [(1, { state := .full }), (2, { state := .claimed })], oslotMask := 7 }
    let h : Hd := ⟨true, 0⟩
    s.mySlot.oslotMask.testBit 1 = true ∧ s.mySlot.oslotMask.testBit 9 = false ∧ Runs (.mclaim h 9) s ∧ Runs (.mrel h 2) s ∧ Runs (.mrel h 9) s ∧
    Runs (.mwaitn h 0) s ∧ Runs (.mstat h 1 1) s := by decide +kernel
theorem witness_MatrixWords_full : let s := (mState).modMySlot ({ · with nests := List.replicate 8 { kind := .zero } })
    Runs (.mma ⟨true, 0⟩) s ∧ 8 ≤ s.mySlot.nests.length := by decide +kernel

theorem witness_MatrixSteps_start : let e : Nest := { kind := .mma, regs := [(4, 1)] }
    let s := mState.modMySlot ({ · with nests := [e], state := .running })
    (s.core 0).arrayBy = none ∧ (nextEntry s 0).all (!·.offArray) = true ∧ (nextEntry s 1).all (!·.offArray) = true ∧ candidate s 0 = some e ∧
    candidate s 1 = none ∧ e.started = false ∧ e.isMm = true := by decide +kernel
theorem witness_MatrixSteps_off : let e : Nest := { kind := .mret }
    let s := mState.modMySlot ({ · with nests := [e], state := .running })
    nextEntry s 0 = some e ∧ e.offArray = true ∧ (nextEntry s 1).all (!·.offArray) = true := by decide +kernel
theorem witness_MatrixSteps_two : let e : Nest := { kind := .mma, regs := [(4, 1)] }
    let s := (mState.modMySlot ({ · with nests := [e], state := .running })).modSlot 1 ({ · with nests := [{ e with prio := 1 }], state := .running })
    candidate s 0 = some e ∧ candidate s 1 = some { e with prio := 1 } ∧ arrayKey s 0 e = (2, 0) ∧
    arrayKey s 1 { e with prio := 1 } = (2, 1) := by decide +kernel
theorem witness_MatrixSteps_kstep : let e : Nest := { kind := .mma, regs := [(4, 1)], started := true, fmtA := 0x7F871000, fmtB := 0x7F871000 }
    let s := ({ mState with tick := 100 }.modMySlot ({ · with nests := [e], state := .running })).modCore 0 ({ · with arrayBy := some 0 })
    (s.core 0).arrayBy = some 0 ∧ (s.slot 0).worker = some e ∧ (s.core 0).port = [] ∧ e.stepAt + e.cycles ≤ s.tick ∧
    refetching (s.slot 0) e = false ∧ badSlot s 0 e = none ∧ Rising (s.core 0).tiles := by decide +kernel
theorem witness_MatrixSteps_op : let e : Nest := { kind := .prm, ts := 1, started := true }
    let s := ({ mState with tick := 100 }.modMySlot ({ · with nests := [e], state := .running })).modCore 0 ({ · with arrayBy := some 0 })
    (s.core 0).arrayBy = some 0 ∧ (s.slot 0).worker = some e ∧ e.isOp = true ∧ e.stepAt + e.opCycles ≤ s.tick ∧
    ({ kind := .zero, td := 3 } : Nest).isOp = true := by decide +kernel
theorem witness_MatrixSteps_retire : let e : Nest := { kind := .mret, worked := true, regs := [(0x38, 0x8000000000000000)] }
    let r : Retire := { slot := 0, nest := 0, tile := 0, n := 0, since := some 0 }
    let s := ((withPart { mState with tick := 100 }).modMySlot ({ · with nests := [e] })).modCore 0 ({ · with port := [r] })
    (s.core 0).port = [r] ∧ (s.slot 0).nest 0 = some e ∧ retDest e.regs = 0 ∧ retCvt e.regs = 0 ∧ (mreg e.regs 0x39).getLsbD 23 = false ∧
    ((s.slot 0).semAt 0).toNat + 1 < 2 ^ 32 ∧ Rising (s.core 0).tiles ∧ (s.slot 0).fq.length < 32 ∧
    Memory.wf s.mem = true ∧
    (resolve s (slotReq s 0) .w (retAddr e.regs 0) (retAddr e.regs 0) 32768).toOption = some [{ key := padKey 0 0, len := 32768 }] ∧
    retDest [(0x39, (1 : Word))] = 1 ∧ retDest [(0x39, (2 : Word))] = 2 ∧
    readsEmpty s (slotReq s 0) (mreg e.regs 0x38) 64 = false ∧ (loadAll s (slotReq s 0) (mreg e.regs 0x38) 64).toOption.isSome = true ∧
    (retireBuckets s 0 r (descOf (List.replicate 64 3))).toOption.isSome = true := by decide +kernel
theorem witness_MatrixSteps_done : let e : Nest := { kind := .zero, worked := true }
    let s := mState.modMySlot ({ · with nests := [e] })
    (s.slot 0).nests = [e] ∧ entryDone s 0 e = true ∧ s.tick % 850 = 0 ∧ sfind s.aged 1 ≠ some s.tick := by decide +kernel

/-- A queue that is enabled; `r` is a record of it: a ring of 16 entries at 2048. -/
def testRecord : List Byte := [0, 8, 0, 0, 0, 0, 0, 0, 4] ++ List.replicate 119 0
def barAll : Hedge := { tables := [(22, { windows := [(0, (0, 0xFFFF))], perms := [(0, 3)] }), (23, { windows := [(0, (0, 0xFFFF))], perms := [(0, 3)] })] }
theorem witness_QueueControl_commands : let s := { State.reset with hedge := barAll, queues := [(1, { enabled := true }), (2, { enabled := true, slot := some 0 })] }
    barWritable s 0 0x100008 = true ∧ mgmtWaits s 0 = false ∧ s.qregs.busy = none ∧ s.qregs.enabling = none ∧ (loadAll s recordReq (recordAddr s 0) 128).toOption = none ∧ (s.queue 0).enabled = false ∧ recordOk testRecord = true ∧ recordOk (testRecord.set 8 3) = false ∧
    (s.queue 1).enabled = true ∧ (s.queue 1).slot = none ∧ (s.queue 1).error = none ∧ (s.queue 1).errSet = false ∧ (s.queue 2).slot = some 0 ∧
    (s.queue 2).error = none ∧ hedgeOk s 23 0 .w 4096 = true ∧ (s.queue 2).waiting = none ∧ classPaused s 0 = false := by decide +kernel
theorem witness_QueueControl_disable : let s := { State.reset with qregs := { busy := some 1 }, queues := [(1, { enabled := true })] }
    s.qregs.busy = some 1 ∧ (s.queue 1).slot = none ∧ (s.queue 1).error = none ∧ (s.queue 1).packets = [] := by decide +kernel
theorem witness_QueueControl_map : let u : Queue := { enabled := true }
    let s := { State.reset with queues := [(1, u)] }
    mappable s 1 u = true ∧ classPaused s 0 = false ∧ nextQueue s = some (1, u) ∧ s.queue 1 = u ∧ freeHw s = some 0 ∧ s.qregs.enabling = none ∧ (loadRecord s 1 u).toOption.isSome = true := by decide +kernel
theorem witness_QueueControl_full : let u : Queue := { enabled := true }
    let w : Queue := { enabled := true, prio := 1, slot := some 0 }
    let s := { State.reset with queues := (500, u) :: (upTo 501 256).map fun i => (i, { w with slot := some (i - 501) }) }
    classPaused s 0 = false ∧ nextQueue s = some (500, u) ∧ s.queue 500 = u ∧ freeHw s = none ∧
    (victimQueue (s.queues.filter (·.2.slot.isSome))).any (fun e => decide (u.prio < e.2.prio) && s.queue e.1 == e.2) = true := by decide +kernel
theorem witness_QueueControl_unmap : let u : Queue := { enabled := true, slot := some 3 }
    let s := { State.reset with queues := [(1, u)], tick := 54400 }
    queueAt s 3 = some (1, u) ∧ s.queue 1 = u ∧ classPaused s 0 = false ∧ u.awake = false ∧ u.packets.all (·.done) = true ∧
    54400 ≤ s.tick - u.idleFrom := by decide +kernel
theorem witness_QueueControl_timeslice : let u : Queue := { enabled := true, slot := some 0 }
    let s := { State.reset with tick := 850000, queues := (500, { enabled := true }) :: (upTo 501 256).map fun i => (i, { u with slot := some (i - 501) }) }
    queueAt s 0 = some (501, u) ∧ s.queue 501 = u ∧ classPaused s 0 = false ∧ freeHw s = none ∧
    (s.queues.any fun e => mappable s e.1 e.2 && e.2.prio == u.prio) = true ∧ 850000 ≤ s.tick - u.mappedAt := by decide +kernel

def readsOne (s : State) (u : Queue) (a : Word) (n : Nat) (b : Byte) : Bool :=
  match loadAll s (packetReq u) a n with | .ok r => r.1 == List.replicate n b | .error _ => false
theorem witness_QueueFetch : let u : Queue := { enabled := true, slot := some 3, awake := true }
    let s := { flatState with queues := [(1, u)] }
    queueAt s 3 = some (1, u) ∧ s.queue 1 = u ∧ classPaused s 0 = false ∧ readsOne s u (u.entryAddr u.next) 1 0 = true := by decide +kernel
theorem witness_QueueFetch_valid : let u : Queue := { enabled := true, slot := some 3, awake := true, next := 16 }
    let s := { flatState with queues := [(1, u)] }
    queueAt s 3 = some (1, u) ∧ s.queue 1 = u ∧ 0 % 2 = 1 - u.next / 2 ^ u.log2 % 2 ∧ readsOne s u (u.entryAddr u.next) 1 0 = true ∧
    readsOne s u (u.entryAddr u.next) 128 0 = true := by decide +kernel
theorem witness_QueueFetch_poll : let u : Queue := { enabled := true, slot := some 3, invalid := some 0 }
    let s := { flatState with queues := [(1, u)] }
    queueAt s 3 = some (1, u) ∧ s.queue 1 = u ∧ u.invalid = some 0 ∧ 1700 ≤ s.tick - 0 ∧ u.awake = false := by decide +kernel
theorem witness_QueueFetch_wait : let p : Packet := { idx := 0, bytes := [1, 7] ++ List.replicate 14 0 ++ [1, 0, 0, 0, 1] ++ List.replicate 107 0, started := true }
    let u : Queue := { enabled := true, slot := some 3, packets := [p] }
    let s := { flatState with queues := [(1, u)] }
    u.waiting = some p ∧ u.error = none ∧ 850 ≤ s.tick - p.checked ∧ (waitHolds s u p).toOption = some false ∧ recNat p.bytes 20 4 = 1 ∧
    1 * 850 ≤ s.tick - p.since ∧ (waitHolds s u { p with bytes := p.bytes.set 16 0 }).toOption = some true ∧ (waitHolds s u { p with bytes := p.bytes.set 8 1 }).toOption = none := by decide +kernel
theorem witness_QueueControl_record :
    (loadAll flatState recordReq (recordAddr flatState 0) 128).toOption.map (·.1.length) = some 128 := by decide +kernel
theorem witness_QueueFetch_ring : let s := flatState
    s.qregs.ringwin.toNat = 0 ∧ hedgeOk s 23 6 .r 0x1000000 = true ∧ hedgeOk s 23 6 .w 0x1000000 = true ∧ isHbm 0 = true ∧ readReady s 0 4 = true ∧ accReady s .w 0 4 = true ∧ logReady s 0 4 = true ∧
    Memory.wf s.mem = true ∧ hedgeOk State.reset 23 6 .r 0x1000000 = false ∧ bar0Only s = false := by decide +kernel

/-- `flatState` whose hardware slot 3 holds queue 1 with one packet. -/
def packetState (bytes : List Byte) : State :=
  { flatState with queues := [(1, { enabled := true, slot := some 3, lastSlot := 3, packets := [{ idx := 0, bytes := bytes ++ List.replicate (128 - bytes.length) 0 }] })] }
def startsAt (s : State) (ty : Nat) : Bool :=
  match queueAt s 3 with
  | some (q, u) => q == 1 && s.queue 1 == u && !classPaused s 0 && u.error == none && !s.boot.minimal &&
      (match u.startable with | some p => p.type == ty && !badPacket p | none => false)
  | none => false
theorem witness_QueuePackets_start :
    startsAt (packetState [0, 0]) 0 = true ∧ startsAt (packetState [0, 1]) 1 = true ∧ startsAt (packetState [0, 2]) 2 = true ∧
    startsAt (packetState [0, 3, 0, 0, 0, 0, 0, 0, 0, 0, 3, 0, 0, 0, 0, 0, 8]) 3 = true ∧ startsAt (packetState [0, 4]) 4 = true ∧
    startsAt (packetState [0, 4, 0, 0, 0, 0, 0, 0, 1, 0, 0, 0, 0, 0, 0, 0, 0, 0, 0, 0, 0, 0, 0, 0, 1]) 4 = true ∧
    startsAt (packetState [0, 5]) 5 = true ∧ startsAt (packetState [0, 6]) 6 = true ∧
    startsAt (packetState [0, 6, 0, 0, 0, 0, 0, 0, 0, 0, 3, 0, 0, 0, 0, 0, 2]) 6 = true ∧ startsAt (packetState [0, 7]) 7 = true ∧
    startsAt (packetState [0, 8]) 8 = true ∧ startsAt (packetState [0, 10]) 10 = true ∧
    (match queueAt (packetState [0, 11]) 3 with | some (_, u) => u.startable.any (decide <| 11 ≤ ·.type) | none => false) = true := by decide +kernel
theorem witness_QueuePackets_memory : let s := packetState [0]
    Memory.wf s.mem = true ∧ (0x30000 : Word).toNat % 65536 + 8 ≤ 65536 ∧ isCxl 0x30000 = false ∧
    (resolve s (packetReq (s.queue 1)) .w 0x30000 0x30000 8).toOption = some [{ key := 0x30000, len := 8, va := 0x30000 }] ∧
    (resolve s (packetReq (s.queue 1)) .rw 0x30000 0x30000 8).toOption = some [{ key := 0x30000, len := 8, va := 0x30000 }] ∧
    ((loadRun s (packetReq (s.queue 1)) 0x30000 8).toOption.map (·.2)) = some [] := by decide +kernel
theorem witness_QueuePackets_wait : let s := packetState [0, 7]
    ((s.queue 1).packets.map fun p => (waitHolds s (s.queue 1) p).toOption) = [some true] ∧
    (((packetState [0, 7, 0, 0, 0, 0, 0, 0, 0, 0, 0, 0, 0, 0, 0, 0, 1]).queue 1).packets.map fun p =>
      (waitHolds s (s.queue 1) p).toOption) = [some false] := by decide +kernel
theorem witness_QueuePackets_records : let s := packetState [0]
    (loadAll s (engineReq 3 0) 0x30000 256).toOption.map (·.1.length) = some 256 := by decide +kernel
/-- A table of one END node at 0x40000. -/
def tableState (bytes : List Byte) : State :=
  let s := packetState bytes
  { s with mem := writeBytes s.mem 0x40000 (([1, 0, 255, 255] ++ List.replicate 60 0) ++ ([6] ++ List.replicate 63 0)) }
theorem witness_QueuePackets_table : let s := tableState [0, 2, 0, 0, 0, 0, 0, 0, 0, 0, 4]
    startsAt s 2 = true ∧ (readTable s 0 0x40000 0).toOption.map (·.2.length) = some 1 := by decide +kernel
theorem witness_QueuePackets_complete : let p : Packet := { idx := 0, bytes := [], started := true, done := true }
    let u : Queue := { enabled := true, lastSlot := 3, packets := [p] }
    let s := { State.reset with queues := [(1, u)] }
    s.queues.find? (fun e => e.2.enabled && e.2.lastSlot == 3 && e.2.packets.any fun p => p.idx == 0 && (p.isOver s || (p.done && (dropDone e.2.retired e.2.packets).1 != e.2.retired))) = some (1, u) ∧
    s.queue 1 = u ∧ u.error = none := by decide +kernel
theorem witness_QueuePackets_over : let p : Packet := { idx := 0, bytes := [], started := true, launch := some 4 }
    let u : Queue := { enabled := true, lastSlot := 3, packets := [p] }
    let s := { State.reset with queues := [(1, u)] }
    s.queues.find? (fun e => e.2.enabled && e.2.lastSlot == 3 && e.2.packets.any fun p => p.idx == 0 && (p.isOver s || (p.done && (dropDone e.2.retired e.2.packets).1 != e.2.retired))) = some (1, u) ∧
    s.queue 1 = u ∧ p.isOver s = true := by decide +kernel

def adminRec (op : Byte) : List Byte := [op, 0, 0, 0, 0, 0, 0, 0, 5] ++ List.replicate 55 0
def adminState (op : Byte) : State :=
  let s := packetState [0, 9, 0, 0, 0, 0, 0, 0, 0, 0, 3]
  { s with mem := writeBytes s.mem 0x30000 (adminRec op), tarns := [{ ctx := 0, name := 5, level := 0, home := 0, size := 1, life := 2, backing := 9, fill := true, state := .resident, run := 0 }] }
theorem witness_TarnPackets : let s := adminState 3
    startsAt s 9 = true ∧ adminRunning s 3 = [] ∧ (loadRun s (packetReq (s.queue 1)) 0x30000 64).toOption.map (·.1) = some (adminRec 3) ∧
    badAdmin (adminRec 3) = false ∧ badAdmin (adminRec 2) = false ∧ badAdmin (adminRec 1) = false ∧
    (match segDrop s 0 5 (.admin 1 0) with | .done _ => true | _ => false) = true ∧ (match segEvict s 0 5 (.admin 1 0) with | .done _ => true | _ => false) = true := by decide +kernel
theorem witness_TarnPackets_new : let spec : Word := 0x40001
    specBad spec = false ∧ 2 ≤ bits spec 17 2 ∧ badAdmin ((adminRec 0).set 16 1 |>.set 18 4) = false ∧
    BitVec.ofNat 64 (recNat ((adminRec 0).set 16 1 |>.set 18 4) 16 8) = spec ∧
    (match newTarn State.reset 0 5 0 spec (.auto none 0) with | .made _ _ => true | _ => false) = true ∧ specBad (0 : Word) = true := by decide +kernel
theorem witness_TarnPackets_stores : let s := { adminState 3 with mem := writeBytes (adminState 3).mem 0x20000 [79] }
    (match storeAll s (packetReq (s.queue 1)) 0x30020 [0, 0] with
     | .ok t => (storeAll t (packetReq (s.queue 1)) 0x30028 (natBytes 8 0)).toOption.isSome
     | .error _ => false) = true := by decide +kernel
theorem witness_TarnPackets_fill : let n : Tarn := { ctx := 0, name := 5, level := 0, home := 0, size := 1, life := 2, backing := 3, fill := false, state := .filling, run := 0, fresh := true }
    let s := { State.reset with tarns := [n] }
    findTarn s 0 5 = some n ∧ n.ending = false ∧ n.state = .filling ∧ n.moveFrom = none ∧ n.fresh = true ∧ n.fill = false := by decide +kernel
theorem witness_TarnPackets_empty : let n : Tarn := { ctx := 0, name := 5, level := 0, home := 0, size := 0, life := 2, backing := 3, fill := true, state := .filling, run := 0, fresh := true }
    (fillUnits State.reset n (upTo 0 n.size)).toOption.isSome = true ∧ (writeBackUnits State.reset n (sortNat n.dirty)).toOption.isSome = true := by decide +kernel
theorem witness_TarnPackets_move : let g : Agent := ⟨2, .a⟩
    let n : Tarn := { ctx := 0, name := 5, level := 0, home := 0, size := 1, life := 2, backing := 3, fill := true, state := .resident, run := 0, readers := 1, mover := some (g, false) }
    let s := { State.reset with tarns := [n] }
    findTarn s 0 5 = some n ∧ (n.leave false).attached = false ∧ n.holds = [] ∧
    (match allocRun s n.level (domainOf n.level (slotCore g.slot)) n.size (.auto (some (s.slot g.slot).launch) g.asker) with
     | (.got 0, t) => (findTarn t 0 5).isSome | _ => false) = true := by decide +kernel

/-- `flatState` with graph 0 of some nodes. -/
def graphState (g : Graph) : State := { flatState with graphs := [(0, g)], completions := [{ graph := 0, node := 0 }], nextGraph := 1 }
def endEntry : List Byte := [6] ++ List.replicate 63 0
/-- A COPY of nothing, with one successor. -/
def copyEntry : List Byte := [1, 0, 0, 0, 0, 0, 0, 1, 1] ++ List.replicate 55 0
def loopEntry : List Byte := [4, 0, 0, 0, 0, 0, 0, 0x11, 1, 0, 0, 0, 0, 0, 0, 0, 1] ++ List.replicate 15 0 ++ [3, 0, 0, 0, 1, 0, 1, 0, 1] ++ List.replicate 23 0
def smallGraph : Graph := { ctx := 0, q := 0, idx := 0, table := 0x40000, entry := 0, nodes := [{ bytes := copyEntry }, { bytes := [6, 0, 1] ++ List.replicate 61 0, cnt := 1 }] }
theorem witness_GraphSteps : let s := graphState smallGraph
    s.graph 0 = some smallGraph ∧ classPaused s 0 = false ∧ smallGraph.loaded = false ∧ tableRoom s smallGraph = true ∧
    smallGraph.entry < smallGraph.nodes.length ∧ s.completions[0]? = some { graph := 0, node := 0 } ∧ smallGraph.failed = false ∧
    (decrement smallGraph ((smallGraph.node 0).succ 0)).map (·.2) = some [1] ∧ (smallGraph.node 1).type = 6 ∧ smallGraph.halted 0 = false ∧
    decrement smallGraph [0] = none := by decide +kernel
theorem witness_GraphSteps_end : let v : Graph := { smallGraph with loaded := true, nodes := [{ bytes := copyEntry }, { bytes := endEntry, state := .running }] }
    let s := graphState v
    s.graph 0 = some v ∧ (v.node 1).type = 6 ∧ (v.node 1).state = .running ∧ v.othersRun 1 = false ∧
    ({ v with nodes := [{ bytes := copyEntry, state := .running }, { bytes := endEntry, state := .running }] } : Graph).othersRun 1 = true := by decide +kernel
theorem witness_GraphSteps_fail : let v : Graph := { smallGraph with loaded := true, fault := 1, nodes := [{ bytes := copyEntry, state := .running }, { bytes := endEntry }] }
    (v.node 0).onPath = false ∧ v.fault < v.nodes.length ∧ v.fault ≠ 0xFFFF ∧ v.fault ≠ 0 ∧ (v.node v.fault).state = .waiting ∧ v.failed = false ∧ v.pathDead = false := by decide +kernel
theorem witness_GraphSteps_loop : let v : Graph := { smallGraph with nodes := [{ bytes := loopEntry, evaluating := true, state := .running }, { bytes := copyEntry }] }
    let s := graphState v
    (v.node 0).evaluating = true ∧ (v.node 1).state ≠ .running ∧ recNat (v.node 0).bytes 36 2 = 1 ∧ recNat (v.node 0).bytes 38 2 = 1 ∧
    (loadAll s (engineReq 3 0) ((v.node 0).word 24) 8).toOption.map (·.1) = some (List.replicate 8 0) ∧ recNat (v.node 0).bytes 32 4 = 3 ∧ v.halted 0 = false := by decide +kernel
theorem witness_GraphSteps_loop_again : let s := { flatState with mem := writeBytes flatState.mem 0 [1] }
    (loadAll s (engineReq 3 0) 0 8).toOption.map (fun r => bytesNat r.1) = some 1 := by decide +kernel

def oneLaunch : Launch := { id := 0, origin := .packet 0 0, levels := [⟨5, 5, 1⟩], code := 0x30000, rampmax := 1 }
theorem witness_LaunchSteps_bad : let l : Launch := { oneLaunch with bad := true }
    let s := { flatState with launches := [(0, l)] }
    admitting s = some l ∧ s.launch l.id = some l ∧ l.phase = .waiting ∧ Rising s.launches ∧
    (match checkLaunch s l with | .error f => f.code != 0 | .ok _ => false) = true := by decide +kernel
/-- A code object's loaded header at 0x30000: magic, and one section. -/
def headerState : State := { flatState with mem := writeBytes flatState.mem 0x30000 [0x55, 0x5A, 0x4F, 0x31] }
theorem witness_LaunchSteps_good : let s := { headerState with launches := [(0, oneLaunch)] }
    admitting s = some oneLaunch ∧ (match checkLaunch s oneLaunch with
      | .error _ => false
      | .ok l => match admitTarns (checkReads s oneLaunch) { l with phase := .tarns } (l.tarns.drop l.heldN) with
        | .go t m => !t.therm.held && !classPaused t 3 && (match assignRamp t m with
          | .go u n => !m.coresident && (match readHeader u 3 0 0x30000 with | .ok h => !impossible u { n with coresident := true } h | .error _ => false)
          | _ => false)
        | _ => false) = true := by decide +kernel
theorem witness_LaunchSteps_expand : let l : Launch := { oneLaunch with phase := .running }
    let s := { flatState with launches := [(0, l)] }
    s.launch 0 = some l ∧ l.nextLeaf < l.jobs ∧ queuedLeaves s 0 < 256 ∧ (enqueue s (leafRec l l.nextLeaf s.tick)).isSome = true := by decide +kernel
theorem witness_LaunchSteps_reserve : let l : Launch := { oneLaunch with phase := .reserve, coresident := true, rampFirst := 100 }
    let s := { headerState with launches := [(0, l)] }
    (match readHeader s 3 l.ctx l.code with | .ok h => reservable s l h 0 | .error _ => false) = true ∧ s.tick < 256 * l.rampFirst ∧ l.cluster = none ∧
    reservedAll (s.setSlot 0 { reserved := some 0 }) l = true := by decide +kernel
theorem witness_LaunchSteps_reserve_more : let l : Launch := { oneLaunch with phase := .reserve, coresident := true, levels := [⟨3, 3, 2⟩] }
    let s := { headerState with launches := [(0, l)] }
    (match readHeader s 3 l.ctx l.code with | .ok h => reservable s l h 0 | .error _ => false) = true ∧
    reservedAll (s.setSlot 0 { reserved := some 0 }) l = false := by decide +kernel
theorem witness_LaunchSteps_cowait : let l : Launch := { oneLaunch with phase := .reserve }
    let s := { flatState with launches := [(0, l)], tick := 850000 }
    s.launch 0 = some l ∧ l.phase = .reserve ∧ max 1 s.tq.cowait.toNat * 850 ≤ s.tick - l.openedAt ∧ Rising s.launches := by decide +kernel
theorem witness_LaunchSteps_records : let r : TaskRec := { readyAt := 0 }
    let s := { flatState with tick := 17000, tq := { records := [(4, r), (5, { r with ready := true, spilled := true })] } }
    sfind s.tq.records 4 = some r ∧ r.held = false ∧ r.ready = false ∧ r.readyAt ≤ s.tick ∧ s.tick % 850 = 0 ∧ sfind s.aged 2 ≠ some s.tick ∧
    max 1 s.tq.affwait.toNat * 850 ≤ s.tick - 0 ∧ (smallestKey (s.tq.records.filter fun e => e.2.spilled && e.2.bank == 0)).map (·.1) = some 5 ∧
    mustSpill s { r with ready := true, spilled := true } = false := by decide +kernel
def popState : State := { headerState with ckpt := { rot := [(0, 10)] }, tq := { records := [(4, { code := 0x30000, ready := true, place := 0 })] } }
theorem witness_LaunchSteps_pop : let s := popState
    (s.slot 0).state = .free ∧ coreOpen s 0 = true ∧ blockedBy s 0 = none ∧
    (match (popWindow (jobCands s 0))[3 % max 1 (popWindow (jobCands s 0)).length]? with
     | some (4, r) => (readHeader s 4 r.ctx r.code).toOption.isSome && (fitRec s 0 r).isSome | _ => false) = true ∧ Rising s.tq.records := by decide +kernel
theorem witness_LaunchSteps_victim : let s := { popState with tick := 1700, tq := { records := [(4, { code := 0x30000, ready := true, place := 4 })] }, slots := [(0, { state := .running, prio := 3 }), (1, { state := .running, prio := 3, startAt := 1, tilesMask := 1 })] }
    isVictim s (victimsOf s 8) 1 = true ∧ barWritable s 5 0x120010 = true ∧ mgmtWaits s 5 = false := by decide +kernel

def startState : State := { headerState with slots := [(0, { state := .starting, job := { code := 0x30000, frame := 5 } })] }
theorem witness_JobLife_start : let s := startState
    let s' := startReads (loadStart s 0) 0
    let j := s'.slot 0
    (s.slot 0).state = .starting ∧ (s.slot 0).resuming = false ∧ (s.slot 0).job.resume = false ∧ loadStart s 0 = s ∧
    (match readHeader s' 3 j.ctx j.job.code with
     | .ok h => (match startEntries s' j h, liveEntries s' j.ctx h with
       | .ok es, .ok _ => (match attachAll s' 0 (es.drop j.attachAt) with | .go _ => true | _ => false)
       | _, _ => false)
     | .error _ => false) = true := by decide +kernel
theorem witness_JobLife_resume : let sv : Saved := { slot := {}, tiles := [], types := [], lanes := [], part := [], windows := [], size := 0 }
    let s := { State.reset with slots := [(0, { state := .starting, job := { resume := true, frame := 64 } })], saves := [(64, sv)] }
    (s.slot 0).state = .starting ∧ (s.slot 0).resuming = false ∧ (s.slot 0).job.resume = true ∧ sfind s.saves (s.slot 0).job.frame.toNat = some sv ∧
    refetches sv.slot = [] := by decide +kernel
theorem witness_JobLife_end : let s := { State.reset with slots := [(0, { state := .running, a := { ended := true }, m := { ended := true }, v := { ended := true } })] }
    jobDone (s.slot 0) = true := by decide +kernel
theorem witness_JobLife_taskget : let body := encode (.taskget ⟨true, 0⟩ 2 1 3)
    let s := { State.reset with slots := [(0, { state := .running, a := { wait := some ⟨9, 0, 0, 0⟩, blk := some { smallBlock 0 with body := body } } })], tick := 850 }
    (match (s.slot 0).a.blk with
     | some b => (match b.body[b.pos]?, b.body[b.pos + 1]? with
       | some p, some q => (match decodeParcels p q with | .ok (.taskget _ d a b) => d == 2 && a == 1 && b == 3 | _ => false)
       | _, _ => false)
     | none => false) = true ∧ bits (s.slot 0).a.x[(3 : Fin 32)] 0 16 * 850 ≤ s.tick - 0 := by decide +kernel
theorem witness_JobLife_ticks : let s := { State.reset with slots := [(0, { state := .running, a := { wait := some ⟨8, 0, 0, 0⟩, monitor := some ⟨5, false⟩ } })], tick := 42500 }
    (s.stream ⟨0, .a⟩).wait = some ⟨8, 0, 0, 0⟩ ∧ (s.stream ⟨0, .a⟩).monitor = some ⟨5, false⟩ ∧ 42500 ≤ s.tick - 0 ∧ s.tick % 850 = 0 ∧
    (s.stream ⟨0, .m⟩).agedAt ≠ some s.tick ∧ sfind s.aged 3 ≠ some s.tick ∧ Rising s.slots ∧ readyStream s ⟨0, .m⟩ = true := by decide +kernel

def copyCmd : Cmd := { cw := 64, opa := 0x8000000000000000, opb := 0x8000000000000080, op := 0x25 }
def engineState (c : Cmd) : State :=
  (atA State.reset).modSlot 0 fun t => { t with state := .running, partStart := 0, partLen := 65536, cq := [c] }
theorem witness_CommandSteps_start : let s := engineState copyCmd
    startable s 0 false = some copyCmd ∧ descEmpty s 0 copyCmd = false ∧ cwRingen copyCmd.cw = false ∧ (cmdRuns s 0 copyCmd copyCmd.opa copyCmd.opb).toOption = some [⟨copyCmd.opa, copyCmd.opb, 64⟩] := by decide +kernel
theorem witness_CommandSteps_land : let p : Part := { run := ⟨0x8000000000000000, 0x8000000000000080, 4⟩, data := [1, 2, 3, 4] }
    let u : Unit4k := { parts := [p] }
    let pc : Piece := { key := padKey 0 128, len := 4 }
    let c : Cmd := { copyCmd with started := true, units := [u] }
    let s := engineState c
    (s.slot 0).cq[0]? = some c ∧ (s.slot 0).cmd false c.id = some c ∧ c.units[0]? = some u ∧ unitBlocked c 0 u = false ∧ segmentHeld (s.slot 0) c u = false ∧
    u.isLate = false ∧ u.fault = none ∧ (unitDest s 0 c u.parts).toOption = some [(p, [pc])] ∧ overUnread s (slotReq s 0) c c.units 0 [pc] = false ∧ u.read s (slotReq s 0) = u ∧
    p.data.length = pc.len ∧ isCxl pc.key = false ∧ cwDone c.cw ≠ 2 ∧ ((s.slot 0).addSem 0 u.len).isSome = true ∧ Memory.wf s.mem = true := by decide +kernel
theorem witness_CommandSteps_complete : let c : Cmd := { copyCmd with started := true, cw := 64 ||| 2 ^ 58 }
    let s := engineState c
    ((s.slot 0).cmds false)[0]? = some c ∧ (s.slot 0).cmd false c.id = some c ∧ c.units.all (·.landed) = true ∧ cwDone c.cw = 1 ∧
    ((s.slot 0).addSem (cwSem c.cw) 1).isSome = true ∧ cwDone copyCmd.cw ≠ 1 := by decide +kernel
def circuitCmd : Cmd := { cw := 128, opa := 0x8000000000000000, opb := BitVec.ofNat 64 (128 + 2 ^ 24), op := 0x25, fn := 4, started := true }
def circuitState : State :=
  let j : Slot := { state := .running, partStart := 0, partLen := 65536, cq := [circuitCmd] }
  { State.reset with slots := [(0, j), (2, { j with cq := [] })], circuits := [(0, { launch := 0, since := 0, rev := 4, table := [(0, 0, 1)] })] }
theorem witness_CommandSteps_circuit : let s := circuitState
    (sfind s.circuits 0).isSome = true ∧ (s.slot 0).cmd false 0 = some circuitCmd ∧ circPeer 0 circuitCmd = (2, 1) ∧ circByte 2 = 1 ∧ circFault s 0 circuitCmd = none ∧
    cwDone circuitCmd.cw ≠ 2 ∧ cwCount circuitCmd.cw = 128 ∧
    (resolve s (slotReq s 0) .r circuitCmd.opa circuitCmd.opa 128).toOption = some [{ key := padKey 0 0, len := 128 }] ∧
    (resolve s (slotReq s 2) .w 0x8000000000000080 0x8000000000000080 128).toOption = some [{ key := padKey 1 128, len := 128 }] ∧
    touchesEmpty s { key := padKey 0 0, len := 128 } = false ∧ Memory.wf s.mem = true := by decide +kernel
theorem witness_CommandSteps_timeout : let x : Xact := { slot := 0, st := .a, cmd := none, kind := .fll, at_ := 0 }
    let s := { (State.reset.modSlot 0 (·.setReply .a 0 0)) with tick := 170000, fab := { xacts := [(3, x), (4, { x with cmd := some 0, kind := .sig })] } }
    sfind s.fab.xacts 3 = some x ∧ 170000 ≤ s.tick - x.at_ ∧ Rising s.fab.xacts ∧ ((s.slot 0).reply .a 0).isSome = true ∧
    ((s.modSlot 0 ({ · with fq := [copyCmd] })).slot 0).cmd true 0 = some copyCmd := by decide +kernel

theorem witness_RegisterWrites : let s := flatState
    barWritable s 5 0x130000 = true ∧ shareFree s 0 = true ∧ Memory.wf s.mem = true ∧ barWritable s 5 0x140008 = true ∧ s.tlb.busy = false ∧
    barWritable s 5 0x150010 = true ∧ ((upTo 16 16).filter ((7 : Word).getLsbD ·)).length ≤ 12 ∧ 12 < ((upTo 16 16).filter ((0xFFFF0000 : Word).getLsbD ·)).length ∧
    mgmtWaits s 5 = false ∧ barWritable s 5 0x184800 = true ∧ routesFrozen s = false ∧ classPaused s 3 = false ∧ classPaused s 4 = false ∧ s.hedge.pending = none ∧ bits s.hedge.sel 58 6 ≤ 26 ∧ bits (0x6400320 : Word) 0 11 = 800 ∧
    bits (0x6400320 : Word) 16 11 = 1600 ∧ barWritable s 5 8 = true ∧ barWritable s 5 0x100000 = true ∧ barWritable s 5 0x100018 = true ∧ barWritable s 0xF 0x160000 = true ∧
    spilledCount s = 0 ∧ fabMaster 5 = true ∧ s.upd.busy = false ∧ bits (0x64000000000000 : Word) 48 8 = 100 ∧ hedgeOk s 22 5 .r 0x100000 = true ∧
    hedgeOk s 22 1 .r 0x100000 = false ∧ isTelemetry 0x100000 = false ∧ s.ckpt.committed = none ∧ barWritable s 5 0x140000 = true ∧ barWritable s 1 0x140000 = false ∧ (0xF : Master).toNat % 16 = 15 := by decide +kernel
theorem witness_RegisterWrites_others : let s := { flatState with slots := [(0, { state := .running })], hedge := { flatState.hedge with pending := some (0x200000000000000, 5) }, tlb := { busy := true } }
    shareFree s 0 = false ∧ s.hedge.pending = some (0x200000000000000, 5) ∧ s.tlb.busy = true ∧ (0x200000000000000 : Word).getLsbD 57 = true := by decide +kernel
theorem witness_RegisterWrites_context : let s := { flatState with ctxbase := 0x100000000, tlb := { busy := true, all := true, ctx := 9 }, slots := [(0, { state := .running, ctx := 9 })] }
    s.tlb.all = true ∧ memNat s (s.ctxbase.toNat + 256 * s.tlb.ctx) 8 % 2 = 0 ∧
    s.slots.any (fun e => decide (e.1 < 3072) && e.2.state != .free && e.2.ctx == s.tlb.ctx) = true := by decide +kernel
theorem witness_RegisterWrites_switch : let s := { flatState with upd := { busy := true, phase := 4, cmd := 0x4000, pausedAt := some 0, result := 0 } }
    mgmtWaits s 0xF = true ∧ classPaused s 4 = true ∧ (0xF : Master).toNat % 16 = 15 ∧ barWritable s 0xF 0x160000 = true ∧ s.upd.busy = true := by decide +kernel

theorem witness_GovernorSteps : let s := { State.reset with slots := [(0, { state := .running })], gov := { ballast := [(0, 5000)] } }
    Rising s.cores ∧ Rising s.slots ∧ busyCores s = [0] := by decide +kernel

theorem witness_ChannelEvents : let s := State.reset
    let t := { State.reset with chans := [(5, { online := true, holding := true }), (6, { busy := true, test := some (1, 0) })], tick := 100 }
    (5 : Master).toNat % 16 = 5 ∧ (s.chan 5).busy = false ∧ (s.chan 5).online = false ∧ chctlOk 1 = true ∧ chctlOk 9 = false ∧ repairOk 0x85 = true ∧
    repairOk 0xFF = false ∧ sequencerPaused s 5 0 = false ∧ mgmtWaits s 0xF = false ∧ chanMaster 1 = false ∧ (t.chan 5).online = true ∧ (t.chan 5).holding = true ∧ (t.chan 6).test = some (1, 0) ∧
    0 + (96 + 4 * max 1 (bits (1 : Word) 16 16)) ≤ t.tick := by decide +kernel

theorem witness_CheckpointEvents_scan : let s := State.reset
    (s.core 0).scan = .run ∧ (nextScan s 0 + (0 % 96 + 96 - nextScan s 0 % 96) % 96) * 85000 ≤ s.tick + 170000 ∧ scanDue s 0 = true ∧
    (s.slot 0).state = .free ∧ (s.slot 1).state = .free ∧ sget s.ckpt.spares 4 0 = 4 ∧ sliceFails s 0 = false ∧ s.ckpt.fails.toNat < 65535 := by decide +kernel
theorem witness_CheckpointEvents_jobs : let s := { State.reset with slots := [(0, { state := .running, coresident := true })] }
    scanDue s 0 = true ∧ (s.slot 0).state ≠ .free ∧ (s.core 0).waitScan = none ∧ scanMoves s 0 = false ∧ scanMoves s 1 = false := by decide +kernel
theorem witness_CheckpointEvents_end : let s := { (State.reset.modCore 0 ({ · with scanning := some 0, waitScan := some 0 })) with tick := 1700000 }
    (s.core 0).scanning = some 0 ∧ 0 + 85000 ≤ s.tick ∧ (s.core 0).waitScan = some 0 ∧ 0 + max 1 s.ckpt.defer.toNat * 850 ≤ s.tick := by decide +kernel
theorem witness_CheckpointEvents_close : let s := { State.reset with tick := 17000000 }
    s.ckpt.logging = true ∧ s.ckpt.openedAt + s.ckpt.lenNow * 850000 ≤ s.tick ∧ (closeInterval s).ckpt.logging = true ∧ s.tarns = [] ∧ s.backs.filter (fun u => !chanReady s (32 * u) 32) = [] := by decide +kernel
theorem witness_CheckpointEvents_rollback : let snap : Snap := { n := 3, at_ := 0, queues := [], graphs := [], completions := [], launches := [] }
    let s := { State.reset with snaps := [snap], ckpt := { committed := some 3, failed := [5], undo := [⟨256, 4, 7⟩], sliceBad := [3], spares := [(0, 0)] } }
    s.ckpt.failed = [5] ∧ s.tarns = [] ∧ ¬(s.upd.busy = true ∧ s.upd.phase = 4) ∧ s.ckpt.committed = some 3 ∧ s.ckpt.intervals.any (·.unprot) = false ∧
    s.snaps.find? (fun e => s.ckpt.committed == some e.n) = some snap ∧ Memory.wf s.mem = true ∧ 0 < s.ckpt.slices ∧ 3 ∈ s.ckpt.sliceBad ∧ sget s.ckpt.spares 4 0 = 0 := by decide +kernel

/-- Core 0's firmware has a command of an operation under way for slot 0, which is in a state. -/
def fwState (op : Nat) (st : JobState) : State :=
  ({ headerState with hedge := { headerState.hedge with tables := sput headerState.hedge.tables 0 { windows := [(0, (0, 0xFFFFF))], perms := [(1, 3), (2, 3), (3, 3), (0xFFF1, 3)] } }
                      mem := writeBytes (writeBytes headerState.mem 0x1FFF00 [1, 0, 2, 0, 0, 0, 0, 0]) 0x30000 [0x55, 0x5A, 0x4F, 0x31] }.modCore 0 fun k =>
    { k with fw := { k.fw with busy := true, op := op, target := 0, cmdArg := 0x50000 } }).setSlot 0 { state := st, job := { code := 0x30000 } }
theorem witness_FirmwareEvents_stop : let s := fwState 1 .stopping
    (s.fw 0).busy = true ∧ (s.fw 0).target = 0 ∧ (s.slot 0).state = .stopping ∧ quiescent s 0 = true ∧
    (let w := (withdrawSlot s 0).drawFree.2
     resolve w (fwReq w 0) .w (s.fw 0).cmdArg (s.fw 0).cmdArg (savedOf w 0 (s.fw 0).cmdArg).size).toOption.isSome = true := by decide +kernel
theorem witness_FirmwareEvents_kill : let s := fwState 3 .killing
    let t := fwState 4 .trapped
    (s.slot 0).state = .killing ∧ quiescent s 0 = true ∧ (s.fw 0).op = 3 ∧ (t.slot 0).trapRec = none ∧ (t.fw 0).op = 4 ∧ quiescent t 0 = true ∧
    (storeAll s (fwReq s 0) (s.fw 0).cmdArg (killRecord (s.slot 0))).toOption.isSome = true ∧
    ((fwState 0 .stopped).fw 0).op = 0 := by decide +kernel
theorem witness_FirmwareEvents_resume : let sv : Saved := { slot := { job := { code := 0x30000 } }, tiles := [], types := [], lanes := [], part := [], windows := [], size := 0 }
    let s := { fwState 2 .free with saves := [(0x50000, sv)] }
    (s.slot 0).state = .free ∧ (s.core 0).scanning = none ∧ (s.fw 0).op = 2 ∧ (match areaOf s 0 (s.fw 0).cmdArg with | .ok (some v) => (match resumeFit s 0 v with | .ok (some _) => true | _ => false) | _ => false) = true := by decide +kernel
def trapState : State :=
  (fwState 0 .trapped).modSlot 0 fun t => { t with trapDue := true, trapRec := some { code := 1, source := 0, launchid := 0, place := 0 } }
theorem witness_FirmwareEvents_trap : let s := trapState
    let v := (withdrawSlot s 0).modSlot 0 ({ · with trapDue := false })
    (s.slot 0).state = .trapped ∧ (s.slot 0).trapDue = true ∧ streamsStopped (s.slot 0) = true ∧ nestStopped s 0 = true ∧ Memory.wf v.mem = true ∧
    (match (s.slot 0).trapRec with
     | some r => (match resolve v (fwReq v 0) .w (v.fw 0).tbase (v.fw 0).tbase r.bytes.length with
       | .ok [p] => p.len == r.bytes.length && !isCxl p.key && (reportBad s (s.slot 0).launch r).isNone
       | _ => false)
     | none => false) = true := by decide +kernel
theorem witness_FirmwareEvents_others : let s := { (fwState 0 .running) with tick := 850000 }
    let u := s.modSlot 0 fun t => { t with a := { t.a with wait := some ⟨9, 0, 0, 0⟩ } }
    let v := u.modCore 0 fun k => { k with fw := { k.fw with wdage := 10, faulted := some 0 } }
    bits (5 : Word) 0 7 ≤ 95 ∧ bits (96 : Word) 0 7 > 95 ∧ (s.slot (fwTarget s 0)).state = .running ∧ s.tick % 850 = 0 ∧ ((v.slot 0).stream .a).wait = some ⟨9, 0, 0, 0⟩ ∧
    (v.fw 0).wdage ≠ 0 ∧ (v.fw 0).wdage.toNat ≤ min ((v.tick - 0) / 850) 65535 ∧ (v.fw 0).faulted ≠ none ∧ csrWritable false 1 = true ∧ csrExists 1 = true ∧
    (coreImage { v with ctls := [(23, { slotA := some { cls := 5 } })] } 0).isSome = true := by decide +kernel

def smallUzo : List Byte := natBytes 4 0x314F5A55 ++ [1, 0, 0, 0, 2, 0, 0, 0] ++ List.replicate 20 0 ++ natBytes 8 8 ++ List.replicate 272 0
def smallImage : Image := { cls := 3, svn := 4 }
def updState : State := { flatState with ctls := [(21, { slotA := some smallImage, slotB := some smallImage }), (23, { slotA := some smallImage, slotB := some smallImage })] }
theorem witness_UpdateEvents_commands : let s := updState
    barWritable s 5 0x190008 = true ∧ s.upd.busy = false ∧ updReserved 0x3001 = false ∧ bits (0x3001 : Word) 0 4 = 1 ∧ updReserved 0x3002 = false ∧
    updReserved 0x3003 = false ∧ updReserved 0x3004 = false ∧ updReserved 0x3011 = true ∧ updReserved 0x3012 = true ∧
    ((imageCtls 3 0).all fun n => (s.ctl n).stagedImage.isSome) = true ∧ ((imageCtls 1 0).all fun n => (s.ctl n).stagedImage.isSome) = false := by decide +kernel
theorem witness_UpdateEvents_stage : let s := { updState with upd := { busy := true, phase := 1, cmd := 0x3001 } }
    s.upd.busy = true ∧ s.upd.phase = 1 ∧ readReady s 0 256 = true ∧ envelopeOk 0 (readBytes s.mem 0 256) = false ∧ readReady s 256 0 = true ∧ mgmtWaits s 5 = false := by decide +kernel
theorem witness_UpdateEvents_switch : let s := { updState with upd := { busy := true, phase := 3, cmd := 0x3002 }, tick := 170000000 }
    let sig (g : UpdSig) : State := { s with upd := { s.upd with phase := 4, pausedAt := some 0 }, ctls := [(21, { slotA := some smallImage, sig := g })] }
    updating s 21 = true ∧ s.upd.ctls = [21] ∧ (s.ctl 21).sig.ready = false ∧ updating (sig { req := true }) 21 = true ∧
    switchPoint s 21 = true ∧ recordGood (sig {}) 53 0 = false ∧
    recordGood { sig {} with mem := writeBytes [] (ramKey 53 0) (sealedRecord 3 0 0 []) } 53 0 = true ∧
    Memory.wf s.mem = true ∧ recordDefault + (handOver s 21 0).length ≤ 2 ^ 18 ∧ ((s.ctl 21).stagedCtx 21) = 53 ∧
    ((sig { req := true }).ctl 21).sig.handed = false ∧ ((sig { handed := true }).ctl 21).sig.healthy = false ∧ s.upd.cls ≠ 5 ∧
    s.upd.startedAt + (if bits s.upd.cmd 48 16 = 0 then 200 else bits s.upd.cmd 48 16) * 850000 ≤ s.tick ∧ 0 + 1700000 ≤ s.tick := by decide +kernel
theorem witness_UpdateEvents_core : let s := { updState with upd := { busy := true, phase := 4, cmd := 0x5002 } }
    let t := { s with upd := { s.upd with switched := [(0, 0)] } }
    s.upd.cls = 5 ∧ s.upd.back = false ∧ s.ckpt.down.contains 0 = false ∧ fwSwitchPoint s 0 = true ∧ sfind s.upd.switched 0 = none ∧
    (s.ctl 23).stagedImage = some smallImage ∧ (sfind t.upd.switched 0).isSome = true ∧
    class5Done (t.setCore 0 { t.core 0 with fw := { t.fw 0 with health := true } }) = false := by decide +kernel
theorem witness_UpdateEvents_restart : let s := (State.reset.modSlot (ctlSlot 4) ({ · with state := .trapped })).setCtl 4 { slotA := some { cls := 1, bytes := smallUzo } }
    ctlStopped s 4 = true ∧ (((s.ctl 4).activeImage.bind fun i => placeUzo i.bytes).map (·.2)).isSome = true := by decide +kernel

theorem witness_BootAndEdges_boot : let s := State.reset
    s.boot.ready = false ∧ s.boot.minimal = false ∧ s.boot.attempts < 3 ∧ (upTo 0 6).find? (!stagePasses s [false] ·) = some 0 ∧
    s.powered = true ∧ mgmtWaits s 5 = false := by decide +kernel
/-- A module whose every slot A holds an image that a boot verifies, if the key signed it: what a signature is worth is free. -/
def bootImage (cls : Nat) : Image := { cls := cls, digest := sha512 [], keyid := Config.fusedKeyid }
def bootState (attempts : Nat) : State :=
  { State.reset with boot := { attempts := attempts }, ctls := (upTo 0 24).map fun n => (n, { slotA := some (bootImage (if n = class5Ctl then 5 else ctlClass n)) }) }
theorem bootImage_verified (h : ∀ d g, Config.signatureOk d g = true) (a cls : Nat) : verified (bootState a) cls (some (bootImage cls)) = true := by
  have m : sget (bootState a).upd.minima 0 cls = 0 := rfl
  simp only [verified, m, bootImage, h]
  simp
theorem witness_BootAndEdges_stages (h : ∀ d g, Config.signatureOk d g = true) (a : Nat) : let s := bootState a
    s.boot.ready = false ∧ s.boot.minimal = false ∧ s.boot.attempts = a ∧ ∀ k, k < 6 → stagePasses s [] k = true := by
  have slots : (bootState a).ctls = (bootState 0).ctls := rfl
  refine ⟨rfl, rfl, rfl, fun k hk => ?_⟩
  have all : stage2Ctls.all (imageVerified (bootState a)) = true := by
    refine List.all_eq_true.mpr fun n hn => ?_
    have e : ((bootState a).ctl n).activeImage = some (bootImage (if n = class5Ctl then 5 else ctlClass n)) := by
      have all : ∀ n ∈ stage2Ctls, ((bootState 0).ctl n).activeImage = some (bootImage (if n = class5Ctl then 5 else ctlClass n)) := by
        rw [show stage2Ctls = [0, 1, 2, 3, 4, 5, 6, 7, 8, 9, 10, 11, 12, 13, 14, 15, 16, 17, 18, 19, 20, 21, 23] by decide +kernel]
        simp only [List.forall_mem_cons]
        refine ⟨?_, ?_, ?_, ?_, ?_, ?_, ?_, ?_, ?_, ?_, ?_, ?_, ?_, ?_, ?_, ?_, ?_, ?_, ?_, ?_, ?_, ?_, ?_, by simp⟩ <;> rfl
      simpa [State.ctl, slots] using all n hn
    simp only [imageVerified, e, bootImage_verified h]
  have rom : (romSlot (bootState a)).isSome = true := by
    have c : (bootState a).ctl 22 = (bootState 0).ctl 22 := by simp [State.ctl, slots]
    have x : ((bootState 0).ctl 22).activeB = false ∧ ((bootState 0).ctl 22).slotA = some (bootImage 4) := ⟨rfl, rfl⟩
    simp [romSlot, c, x.1, x.2, bootImage_verified h]
  simp [stagePasses, all, rom, stackTrains]
theorem witness_BootAndEdges_minimal : let s := { State.reset with boot := { attempts := 3 } }
    3 ≤ s.boot.attempts ∧ s.boot.ready = false ∧ s.boot.minimal = false ∧ barWritable flatState 5 0x190028 = true := by decide +kernel
theorem witness_BootAndEdges_window : let s := { flatState with hedge := { tables := [(24, { windows := [(0, (0, 0xFFFF))], perms := [(6, 3)] })] } }
    bar0Only s = false ∧ 0 + 4 ≤ 2 ^ s.bar4log2 ∧ bar4Ok s .r (bar4Addr s 0) 4 = true ∧ bar4Ok s .w (bar4Addr s 0) 4 = true ∧ readReady s (bar4Addr s 0) 4 = true ∧ accReady s .w (bar4Addr s 0) 4 = true ∧ logReady s (bar4Addr s 0) 4 = true ∧
    isCxl (bar4Addr s 0) = false ∧ bar4Ok State.reset .r 0 4 = false := by decide +kernel
theorem witness_BootAndEdges_heat : let s := { State.reset with therm := { temps := [(0, 101)], held := true } }
    s.therm.throttle = 100 ∧ (s.therm.temps.all fun e => decide (e.1 ≤ 8)) = true ∧ Rising s.therm.temps ∧ ([1, 2, 3, 4, 5, 6, 7, 8, 9].all (decide <| · < 100)) = true := by decide +kernel

theorem witness_SpdmAnswers : let s := { State.reset with boot := { stage := 1 } }
    classPaused s 4 = false ∧ s.powered = true ∧ 1 ≤ s.boot.stage ∧ State.reset.boot.stage = 0 := by decide +kernel

/-- A module whose port 3 is up in both directions on all lanes. -/
def linkState (f : FPort → FPort) : State :=
  State.reset.setPort 3 (f { cfg := portCfg 3, active := 0xFFFF, rxActive := 0xFFFF, trained := 0xFFFF, rxTrained := 0xFFFF })
/-- The payload of a HEAD flit with 16 bytes of data, and of one with 300. -/
def headPayload (n : Nat) : List Byte := [5, 0, 0, 9, 0, 0, 0, 0, 3, 0, 0, 0] ++ natBytes 2 n ++ List.replicate 18 0
theorem witness_LinkEvents_head : let f := mkFlit 0 1 FType.head 7 (headPayload 16)
    let g := mkFlit 5 1 FType.body 7 []
    let c := mkFlit 0 0 FType.credit 7 [1, 2]
    Flit.good f = true ∧ Flit.seq f = 0 ∧ Flit.type f = FType.head ∧ Flit.vc f = 1 ∧ badHeader (Flit.payload f) = false ∧ Flit.good g = true ∧
    Flit.seq g ≠ 0 ∧ Flit.type g = FType.body ∧ Flit.good c = true ∧ Flit.type c = FType.credit ∧ ((linkState id).port 3).rxActive ≠ 0 ∧
    ((linkState id).port 3).rxNext = 0 := by decide +kernel
theorem witness_LinkEvents_body : let f := mkFlit 0 1 FType.head 7 (headPayload 300)
    (match exec (.dataFlit 3 f) (linkState id) with
     | .next s => (match s.vcq 37 with | [e] => decide (e.flits < e.need) && e.stomp.isNone && !e.bad && (s.port 3).rxNext == 1 | _ => false)
     | _ => false) = true ∧ Flit.good (mkFlit 1 1 FType.body 7 []) = true := by decide +kernel
theorem witness_LinkEvents_control : let s := linkState ({ · with replay := [(4, mkFlit 4 0 1 0 []), (5, mkFlit 5 0 2 0 [])] })
    let f := mkFlit 5 0 FType.nack 9 []
    let g := mkFlit 0 0 FType.shedreq 9 [3, 0]
    let h := mkFlit 0 0 FType.shedreq 9 [0xFF, 0x7F]
    Flit.good f = true ∧ Flit.type f = FType.nack ∧ (dropAcked (Flit.ack f) (s.port 3).replay).findIdx? (fun e => e.1 == Flit.seq f) = some 1 ∧
    (s.port 3).active ≠ 0 ∧ Flit.good g = true ∧ Flit.type g = FType.shedreq ∧ BitVec.ofNat 16 (recNat (Flit.payload g) 0 2) &&& (s.port 3).active = 3 ∧
    4 ≤ popcount ((s.port 3).active &&& ~~~(3 : BitVec 16)) ∧ Flit.good h = true ∧ popcount ((s.port 3).active &&& ~~~(0x7FFF : BitVec 16)) < 4 ∧
    Flit.good (mkFlit 8 0 FType.abort 9 []) = true := by decide +kernel
theorem witness_LinkEvents_restripe : let p := (linkState id).port 3
    let f := restripeFlitOf p 0xFFFC
    State.reset.boot.minimal = false ∧ restripeRecord p f = some (0xFFFC, 0) ∧ Flit.good f = true ∧ Flit.type f = FType.restripe ∧ p.rxNext = 0 ∧
    Flit.good (List.replicate 256 0) = false ∧ Flit.stomped (List.replicate 256 0) = false ∧ restripeRecord p (List.replicate 256 1) = none ∧
    Flit.good (List.replicate 256 1) = false ∧ Flit.stomped (List.replicate 256 1) = false := by decide +kernel
theorem witness_LinkEvents_lanes : let s := { linkState id with tick := 16777216 }
    let p := s.port 3
    bit (p.rxActive &&& ~~~p.asked) 5 = true ∧ 4 < popcount (p.rxActive &&& ~~~p.asked) ∧ p.active ≠ 0 ∧ p.winStart + p.window ≤ s.tick ∧
    p.role ≠ 3 := by decide +kernel

/-- Port 3 up, the packet of an input VC waiting at its head, and a route to the destination by port 3. -/
def routeState (e : InPkt) : State :=
  let s := linkState id
  { s with fab := { s.fab with inq := [(36, [e])], lrt := [(5, 0x8383)], grt := [(1, 0x83)] } }
def somePkt (dest : Nat) : InPkt := { pkt := { dest := dest, src := 9, op := 3, data := [1, 2] }, flits := 1, need := 1, at_ := 0, len := 2 }
theorem witness_RouterEvents_select : let s := routeState (somePkt 5)
    s.vcq 36 = [somePkt 5] ∧ s.deviceId = 0 ∧ candidates (routeEntry s 5) = [3, 3] ∧ ((candidates (routeEntry s 5)).filter (admits s ·)) = [3, 3] ∧
    candidates (routeEntry s 6) = [] ∧ escPort (routeEntry s 6) false = none ∧ escPort (routeEntry s 6) true = none ∧ candidates (routeEntry s 256) = [3] ∧
    cheapest s 0 [3] = some 3 ∧ farPorts s [3] = [] ∧ (somePkt 5).pkt.dest / 256 = s.deviceId / 256 ∧ (somePkt 256).pkt.dest / 256 ≠ s.deviceId / 256 := by decide +kernel
theorem witness_RouterEvents_far : let up (n : Nat) (s : State) : State := s.setPort n { cfg := portCfg n, active := 0xFFFF }
    let s := up 60 (routeState (somePkt 256))
    farPorts s [3] = [60] ∧ cheapest s 0 (farPorts s [3]) = some 60 ∧ cheapest s 0 [] = none := by decide +kernel
theorem witness_RouterEvents_escape : let e : InPkt := { somePkt 5 with out := some 3 }
    let s := (routeState e).setPort 3 { cfg := portCfg 3, active := 0xFFFF, credits := [(0, 32), (1, 32), (2, 32)] }
    s.vcq 36 = [e] ∧ e.since + 128 ≤ ({ s with tick := 128 } : State).tick ∧ (s.port 3).hasCredit 0 1 = false ∧ (s.port 3).hasCredit 1 1 = false ∧
    (s.port 3).hasCredit 2 1 = false := by decide +kernel
theorem witness_RouterEvents_send : let e : InPkt := { somePkt 5 with out := some 3 }
    let d : InPkt := { somePkt 0 with out := some 128 }
    bestInput (routeState e) 3 (routeState e).fab.inq = some (36, e) ∧ bestInput (routeState d) 128 (routeState d).fab.inq = some (36, d) ∧
    Rising (routeState e).fab.inq ∧ Rising (routeState d).fab.inq := by decide +kernel

/-- A module with a packet of an operation waiting, for window 0: 64 KiB at address 0 of context 0, which slot 0's running job is bound to. -/
def targetState (op arrive : Nat) (data : List Byte) : State :=
  { flatState with
    hedge := { tables := [(0, { windows := [(0, (0, 0xFFFFF))], perms := [(2, 3), (3, 3), (4, 3), (5, 3), (7, 3)] }), (25, { windows := [], perms := [(7, 3)] })] }
    windows := [(0, { map := 2 ^ 63, bind := BitVec.ofNat 64 (16 * 2 ^ 58 + 2 ^ 47) })], slots := [(0, { state := .running })]
    fab := { flatState.fab with inbox := [{ dest := 0, src := 9, op := op, arrive := arrive, data := data, addr := 0x100 }] } }
def checked (s : State) (op n : Nat) (acc : Acc) : Bool :=
  match takeInbox s (fun q => q.op == op) with
  | some (p, s1) => (match checkPacket s1 p n acc .none with
    | .ok _ [pc] _ => pc.key == 0x100 && !isCxl pc.key && Memory.wf s.mem
    | _ => false)
  | none => false
theorem witness_TargetPackets_put : checked (targetState Op.put 0xFFFF [1, 2]) Op.put 2 .w = true ∧ arriveOf 0xFFFF = .none ∧ arriveOf 0x8003 = .sem 3 ∧
    boundJob (targetState Op.put 0x8003 [1, 2]) 0 { map := 2 ^ 63, bind := BitVec.ofNat 64 (16 * 2 ^ 58 + 2 ^ 47) } = .job 0 ∧
    (((targetState Op.put 0x8003 [1, 2]).slot 0).addSem 3 2).isSome = true ∧ (({ sem := [(3, 0xFFFFFFFF)] } : Slot).addSem 3 2) = none := by decide +kernel
theorem witness_TargetPackets_word : let s := targetState Op.put 4 [1, 2]
    let w : Window := { map := 2 ^ 63, bind := BitVec.ofNat 64 (16 * 2 ^ 58 + 2 ^ 47) }
    arriveOf 4 = .word 32 ∧ w.holds 32 8 = true ∧ w.holds 0x100 2 = true ∧ ingressOk s 0 0 .rw = true ∧ w.holds 0x10000 8 = false ∧ ingressOk flatState 0 0 .rw = false ∧
    (resolve s { cls := 7, ctx := 0 } .rw (w.addr 32) (w.addr 32) 8).toOption.map (·.map fun q => (q.key, q.len)) = some [(32, 8)] := by decide +kernel
theorem witness_TargetPackets_denied : let s := targetState Op.put 0x8003 [1, 2]
    let w : Window := { map := 2 ^ 63, bind := BitVec.ofNat 64 (16 * 2 ^ 58) }
    w.holds 0x10000 2 = false ∧ w.holds 0x100 2 = true ∧ boundJob s 0 w = .none ∧ ingressOk s 0 0 .w = true ∧ ingressOk flatState 0 0 .w = false ∧
    (match resolve { s with hedge := {} } { cls := 7, ctx := 0 } .w 0x100 0x100 2 with | .error t => t.code != 0 | .ok _ => false) = true := by decide +kernel
theorem witness_TargetPackets_requests : checked (targetState Op.getreq 16 []) Op.getreq 16 .r = true ∧ checked (targetState Op.sig 0 []) Op.sig 8 .rw = true ∧
    checked (targetState Op.sig 9 []) Op.sig 4 .rw = true ∧ checked (targetState Op.fll 0 []) Op.fll 8 .r = true ∧ checked (targetState Op.fsc 0 []) Op.fsc 8 .rw = true ∧
    requesterOf { dest := 0, src := 9, op := 0, arrive := 1 } = 9 * 65536 + 1 := by decide +kernel
theorem witness_TargetPackets_answers : let x : Xact := { slot := 0, st := .a, cmd := some 0, kind := .get 0 2 false, at_ := 0 }
    let q : Part := { run := ⟨0, 0x8000000000000080, 2⟩, late := true }
    let v : Unit4k := { parts := [q], tag := some 7 }
    let c : Cmd := { copyCmd with op := 0x29, units := [v], started := true }
    let s := { (targetState Op.getdata 0 [1, 2]) with slots := [(0, { state := .running, partStart := 0, partLen := 65536, fq := [c] })] }
    (unitByTag s x 7).isSome = true ∧ v.len = 2 ∧ c.slotCopy = false ∧ (resolve s (slotReq s 0) .w q.run.dst q.run.dst 2).toOption = some [{ key := padKey 0 128, len := 2 }] ∧
    cwDone c.cw ≠ 2 ∧ Rising ([(7, x)] : Sparse Xact) ∧ (takeInbox s (fun q => q.op == Op.getdata)).isSome = true := by decide +kernel

/-- Three modules 0, 1 and 2 under one FANIN-2 tree, seen by module 0. -/
def smallGroup : Group := { fanin := 2, n := 3, leaves := [0, 1, 2], stage := 0x40000, maxElems := 128, timeout := 50, report := 0x50000 }
/-- The install record of `smallGroup` at 0x31000, its leaves at 0x31100. -/
def installState : State :=
  let r := [3, 0, 0, 2, 3, 0, 0, 0] ++ natBytes 8 0x31100 ++ natBytes 8 0x40000 ++ natBytes 4 128 ++ [0, 0, 0, 0] ++ natBytes 8 0x50000
  { flatState with mem := writeBytes (writeBytes flatState.mem 0x31000 r) 0x31100 [0, 0, 0, 0, 1, 0, 0, 0, 2, 0, 0, 0] }
theorem witness_ReductionEvents_install : let s := installState
    let r := physBytes s (bits (0x31000 : Word) 6 46 * 64) 64
    let u := { s with fab := { s.fab with groups := [(3, smallGroup)] } }
    let q := physBytes { u with mem := writeBytes u.mem 0x31002 [1] } (bits (0x31000 : Word) 6 46 * 64) 64
    barWritable s 5 0x185000 = true ∧ mgmtWaits s 5 = false ∧ readReady s 0x31000 64 = true ∧ readReady s 0x31100 12 = true ∧ s.fab.rgBusy = none ∧ rgError s r = 0 ∧ recNat r 2 1 = 0 ∧ rgError u r ≠ 0 ∧ recNat q 2 1 = 1 ∧ rgError u q = 0 ∧
    rgError s q ≠ 0 ∧ Rising u.fab.groups := by decide +kernel
def fcollCmd : Cmd := { cw := 0, opa := 0x8000000000000000, opb := 3, op := 0x2B, fn := 3 }
/-- Slot 0's FCOLL on group 3 is the next of its queue, its descriptor one of two FP32 elements. -/
def fcollState : State :=
  let s := (atA State.reset).modSlot 0 fun t => { t with state := .running, partStart := 0, partLen := 65536, fq := [fcollCmd] }
  { s with mem := writeBytes [] (padKey 0 0) (natBytes 8 0x8000000000000100 ++ natBytes 8 0x8000000000000200 ++ natBytes 4 2 ++ natBytes 12 0 ++ natBytes 8 0x8000000000000300)
           fab := { s.fab with groups := [(3, smallGroup)] } }
theorem witness_ReductionEvents_start : let s := fcollState
    startable s 0 true = some fcollCmd ∧ s.group 3 = some smallGroup ∧ bits fcollCmd.opb 0 16 = 3 ∧ readsEmpty s (slotReq s 0) fcollCmd.opa 64 = false ∧
    (match loadAll s (slotReq s 0) fcollCmd.opa 64 with
     | .ok (bs, _) => (contribBuckets s 0 (descOf bs) [0, 0]).toOption.isSome && (descFault (descOf bs) 128 (descOf bs).elems).isNone && (descOf bs).elems == 2 &&
         (loadAll s (slotReq s 0) (BitVec.ofNat 64 (descOf bs).src) 8).toOption.isSome && !readsEmpty s (slotReq s 0) (BitVec.ofNat 64 (descOf bs).src) 8
     | .error _ => false) = true ∧ (s.slot 0).cmd true 0 = some fcollCmd := by decide +kernel
def smallInst : Inst :=
  { inst := 7, slot := 0, cmd := 0, mode := 0, scale := 0, elems := 256, dst := 0x8000000000000200, statusw := 0x8000000000000300, prio := 1, buckets := [[1], [2]] }
/-- An instance of group 3 under way, and a COLL of a kind for it waiting. -/
def instState (kind : Nat) : State :=
  { fcollState with tick := 850000, fab := { fcollState.fab with
      groups := [(3, { smallGroup with insts := [smallInst] })]
      inbox := [{ dest := 0, src := 0, op := Op.coll, addr := redAddr 0 0 7 1 kind 0 3, data := List.replicate 544 5 }] } }
theorem witness_ReductionEvents_send : let s := instState 0
    let g := { smallGroup with insts := [smallInst] }
    s.group 3 = some g ∧ g.insts.find? (·.inst == 7) = some smallInst ∧ g.place s.deviceId = some 0 ∧ smallInst.buckets[smallInst.sent]? = some [1] ∧
    ((s.slot 0).cmd true 0) = some fcollCmd ∧ g.outq = [] ∧ sget g.used 0 0 < 16 ∧ smallInst.lastAt + (200 + g.depth * g.timeout) * 850 ≤ s.tick ∧
    ({ s with fab := { s.fab with inbox := [] } } : State).fab.inbox = [] := by decide +kernel
theorem witness_ReductionEvents_results : let ok (k : Nat) : Bool := match takeColl (instState k) k with
      | some (p, s1) => p.rInst == 7 && p.rGroup == 3 && p.rBucket == 1 && (s1.group 3).isSome &&
          (resolve s1 (slotReq s1 0) .w (smallInst.dst + BitVec.ofNat 64 512) (smallInst.dst + BitVec.ofNat 64 512) 512).toOption.map (·.length) == some 1 &&
          (resolve s1 (slotReq s1 0) .w smallInst.statusw smallInst.statusw 8).toOption.map (·.length) == some 1 && Memory.wf s1.mem
      | none => false
    ok 0 = true ∧ ok 1 = true ∧ ok 2 = true ∧ cwDone fcollCmd.cw ≠ 1 ∧ fcollCmd.slotNo = none := by decide +kernel
/-- A RED of leaf 2 for its level-1 node, which module 2 hosts, and one of leaf 0 for module 0's. -/
def redPkt (src : Nat) : FPkt := { dest := 0, src := src, op := Op.red, addr := redAddr 0 0 7 0 0 1 3, data := fp32Bucket [] 1 }
theorem witness_ReductionEvents_red : let s := { fcollState with deviceId := 2, fab := { fcollState.fab with inbox := [redPkt 2] } }
    (match takeInbox s (fun q => q.op == Op.red) with
     | some (p, s1) => s1.group p.rGroup == some smallGroup && smallGroup.place p.src == some 2 && p.rLevel == 1 && smallGroup.childOf 1 2 == (1, 0) &&
         smallGroup.children 1 1 == [0] && smallGroup.host 1 1 == 2 && !p.isError && !p.missing && (match combine [p] with | .ok _ => true | .error _ => false) &&
         (smallGroup.depth == 2) && (({ s1 with fab := { s1.fab with groups := [] } } : State).group p.rGroup).isNone && p.via == 128
     | none => false) = true := by decide +kernel
theorem witness_ReductionEvents_timeout : let b : NodeBucket := { level := 1, index := 0, inst := 7, bucket := 0, got := [(0, redPkt 0)], firstAt := 0 }
    let g := { smallGroup with buckets := [b] }
    b.firstAt + g.timeout * 850 ≤ 42500 ∧ b.level ≠ g.depth ∧ g.children 1 0 = [0, 1] ∧ bucketWhole g b = false ∧
    (match combine [redPkt 0] with | .ok _ => true | .error _ => false) = true := by decide +kernel

theorem witness_BlockEntry : let s := atA State.reset
    let t := s.modMyStream ({ · with iterPend := true, iterCnt := 3 })
    s.myStream.reenter = none ∧ s.myStream.iterPend = false ∧ s.myStream.exposed = ((0 : BitVec 1) == 1) ∧ s.myStream.exposed ≠ ((1 : BitVec 1) == 1) ∧
    (s.modMyStream ({ · with reenter := some (1, 2) })).myStream.reenter = some (1, 2) ∧ t.myStream.iterPend = true ∧ 0 < t.myStream.iterCnt.toNat + (2 : BitVec 3).toNat ∧ s.myStream.lc.toNat = 0 := by decide +kernel
theorem witness_BlockEntry_pass : let b : Block := { smallBlock 64 with n := 2, stg := true, rot := true, stages := 1 }
    let c := { b with k := 2 }
    let d := { b with k := 1, drain := some 1 }
    b.k + 1 < b.passes ∧ c.passes ≤ c.k + 1 ∧ d.passes ≤ d.k + 1 ∧ d.drain = some 1 ∧ 1 < d.n := by decide +kernel

/-- The A stream of slot 0 stands at a word of its block. -/
def placed (w : Nat) : State := State.reset.withFetchWord 32 w
theorem witness_StepRunsDecoded : let s := placed (0xA0000000 + 2 ^ 14 + 2 ^ 10)
    s.powered = true ∧ nextTurn s = (.unit 0 .a, s) ∧ runnable s ⟨0, .a⟩ = true ∧ runnable s ⟨1, .a⟩ = false ∧ atHeader s ⟨0, .a⟩ = false ∧ s.begun = [] ∧
    (match (s.stream ⟨0, .a⟩).blk with
     | some b => b.pos == 0 && (match parcelAt s ⟨0, .a⟩ b b.body 0 with
       | .ok (p, l) => !isHeaderParcel p && parcelCount p == 2 && (match parcelAt s ⟨0, .a⟩ b l 1 with
         | .ok (q, _) => (match decodeParcels p q with
           | .ok i => i.hd.s && (wordFault ⟨0, .a⟩ i).isNone && (bundleHeld (begun s ⟨0, .a⟩ none) [i]).isNone
           | .error _ => false)
         | .error _ => false)
       | .error _ => false)
     | none => false) = true := by decide +kernel
theorem witness_StepRunsDecoded_compact : let s := State.reset.withFetchWord 16 0x0821
    (match (s.stream ⟨0, .a⟩).blk with
     | some b => b.pos == 0 && (match parcelAt s ⟨0, .a⟩ b b.body 0 with
       | .ok (p, _) => !isHeaderParcel p && parcelCount p == 1 && (match decodeParcels p 0 with | .ok i => (wordFault ⟨0, .a⟩ i).isNone | .error _ => false)
       | .error _ => false)
     | none => false) = true := by decide +kernel
theorem witness_StepRunsDecoded_header : let s := State.reset.withFetchWord 32 0xC0001001
    (s.stream ⟨0, .a⟩).blk = none ∧ (match fetchParcel s ⟨0, .a⟩ (s.stream ⟨0, .a⟩).pc, fetchParcel s ⟨0, .a⟩ ((s.stream ⟨0, .a⟩).pc + 2) with
      | .ok p, .ok _ => isHeaderParcel p | _, _ => false) = true := by decide +kernel
theorem witness_StepRunsDecoded_turns : let s := { placed 0xA0000000 with focus := .event .queueMap }
    let t := (placed 0xA0000000).setSlot 1 ((placed 0xA0000000).slot 0)
    nextTurn s = (.event .queueMap, s) ∧ encode .queueMap = [] ∧ runnable t ⟨0, .a⟩ = true ∧ runnable t ⟨1, .a⟩ = true ∧
    t.unitUsed 0 .a = false ∧ waits (issueAgent t ⟨0, .a⟩) = false ∧ waits (issueAgent t ⟨1, .a⟩) = false := by decide +kernel
/-- Slot 0's A stream stands between blocks, at a header. -/
def atHead : State := State.reset.withFetchWord 32 0xC0001001
theorem witness_StepRunsDecoded_heads : let s := atHead
    let t := s.setSlot 1 (s.slot 0)
    let w := { (s.setSlot (fwSlot 3) (s.slot 0)) with focus := .context (fwSlot 3) }
    s.powered = true ∧ nextTurn s = (.unit 0 .a, s) ∧ atHeader s ⟨0, .a⟩ = true ∧ atHeader s ⟨1, .a⟩ = false ∧
    (s.stream ⟨0, .a⟩).pc.getLsbD 0 = false ∧ atHeader t ⟨1, .a⟩ = true ∧ (match issueHeader t ⟨0, .a⟩ with | .next u => atHeader u ⟨1, .a⟩ | _ => false) = true ∧
    (match issueHeader s ⟨0, .a⟩ with | .next u => !atHeader u ⟨1, .a⟩ | _ => false) = true ∧
    nextTurn w = (.context (fwSlot 3), w) ∧ atHeader w ⟨fwSlot 3, .a⟩ = true := by decide +kernel
theorem witness_StepRunsDecoded_head1 : let s := (State.reset.setSlot 1 (atHead.slot 0)).setSlot 0 {}
    atHeader { atHead with slots := s.slots } ⟨0, .a⟩ = false ∧ atHeader { atHead with slots := s.slots } ⟨1, .a⟩ = true := by decide +kernel
/-- Core 0's firmware and the V stream of its job slot 0 stand at words; nothing has issued. -/
def bothReady : State :=
  let s := placed (0xA0000000 + 2 ^ 14 + 2 ^ 10)
  { (s.modSlot (fwSlot 0) fun _ => { (s.slot 0) with state := .running }) with focus := .unit 0 .v }
theorem witness_StepRunsDecoded_firmware : let s := bothReady
    nextTurn s = (.unit 0 .v, s) ∧ s.unitUsed 0 .v = false ∧ readyBundle (ageUnit s 0 .v) ⟨fwSlot 0, .a⟩ = true ∧ fwMay (ageUnit s 0 .v) 0 = true := by
  decide +kernel
/-- Both A streams of core 0 may run: one at an ADD, the other at a TASKGET, which waits; `f` says whether that is slot 0's. -/
def oneWaits (f : Bool) : State :=
  let s := placed 0xA1208232
  let w : Slot := { s.slot 0 with a := { (s.slot 0).a with x := (s.slot 0).a.x.setIfInBounds 3 9 } }
  let add : Slot := { s.slot 0 with a := { (s.slot 0).a with blk := (s.slot 0).a.blk.map (fun b => { b with body := [0xA000, 0x4210] }) } }
  (s.setSlot 0 (if f then w else add)).setSlot 1 (if f then add else w)
theorem witness_StepRunsDecoded_waits : (upTo 0 2).all (fun k => let s := oneWaits (k == 0)
    runnable s ⟨0, .a⟩ && runnable s ⟨1, .a⟩ && (waits (issueAgent s ⟨0, .a⟩) == (k == 0)) && (waits (issueAgent s ⟨1, .a⟩) == (k == 1))) = true := by decide +kernel
/-- A context of the scalar profile stands at a word `i` of its block. -/
def contextAt (n : Nat) (i : Instr) : State :=
  let s := placed 0xA0000000
  let a := (s.slot 0).a
  let b := { a with x := a.x.setIfInBounds 3 9, blk := a.blk.map fun b => { b with body := encode i } }
  { (s.setSlot n { (s.slot 0) with state := .running, a := b }) with focus := .context n }
theorem witness_StepRunsDecoded_contexts : let s := contextAt (ctlSlot 2) (.nop ⟨true, 0⟩)
    let t := contextAt (fwSlot 2) (.wfe ⟨true, 0⟩)
    nextTurn s = (.context (ctlSlot 2), s) ∧ runnable s ⟨ctlSlot 2, .a⟩ = true ∧ waits (issueAgent s ⟨ctlSlot 2, .a⟩) = false ∧
    (s.slot (ctlSlot 2)).issuedAt ≠ some s.tick ∧ 4608 ≤ ctlSlot 2 ∧ runnable t ⟨fwSlot 2, .a⟩ = true ∧ waits (issueAgent t ⟨fwSlot 2, .a⟩) = true := by
  decide +kernel
theorem witness_StepRunsDecoded_context : let s := { ((placed 0xA0000000).modSlot (fwSlot 3) fun t => { t with state := .running }) with focus := .context (fwSlot 3) }
    nextTurn s = (.context (fwSlot 3), s) ∧ runnable s ⟨fwSlot 3, .a⟩ = true ∧ s.unitUsed 3 .v = false ∧ fwMay s 3 = true := by decide +kernel
theorem witness_StepRunsDecoded_two : let s := placed 0x80000000
    (match (s.stream ⟨0, .a⟩).blk with
     | some b =>
       let r := gather s ⟨0, .a⟩ b 3 b.pos b.body []
       r.fault.isNone && (bundleFault ⟨0, .a⟩ r).isNone && (match r.words with
         | [w, v] => (match exec w.instr ((begun s ⟨0, .a⟩ (viewOf s ⟨0, .a⟩ [w, v])).modMyStream ({ · with blk := some { b with body := r.parcels } })) with
           | .next t => t.issue.outcome == .issued && (match exec v.instr t with | .next u => u.issue.outcome == .issued | _ => false)
           | _ => false)
         | _ => false)
     | none => false) = true := by decide +kernel

theorem witness_RoundTrip : (Instr.vcord ⟨true, 3⟩ 1 2 26 0).wf = true ∧ encode (.compactSaddi 3 1) ≠ [] ∧ (Instr.compactSaddi 3 1).wf = true := by decide +kernel

theorem witness_MemoryKept : Memory.wf (placed 0xA0000000).mem = true ∧ (nextTurn (placed 0xA0000000)).1 = .unit 0 .a ∧
    (match step (placed 0xA0000000) with | .next t => Memory.wf t.mem | _ => false) = true := by decide +kernel

theorem witness_MemoryKeptByEvents : let s := { (fwState 4 .trapped) with focus := .event (.report 0) }
    Memory.wf s.mem = true ∧ (nextTurn s).1 = .event (.report 0) ∧ (match step s with | .next t => Memory.wf t.mem | _ => false) = true := by decide +kernel

theorem witness_TakingFaults : let s := atA State.reset
    let t := ({ s with launches := [(0, oneLaunch)] } : State).modSlot 0 ({ · with state := .trapped })
    s.issue.agent.slot < 3072 ∧ (s.slot 0).state ≠ .trapped ∧ (t.slot 0).state = .trapped ∧ (t.launch (t.slot 0).launch).isSome = true ∧
    (atFw s).issue.agent.slot = 3072 ∧ ({ s with powered := false, focus := .unit 0 .a } : State).powered = false := by decide +kernel

/-! ## One meaning: movement, matrix, events -/

/-- The A stream with a part; register 2 the control word, 1 the part's first byte, 3 its byte 128. -/
def cmdAt (cw : Word) : State := partAt cw 0x8000000000000080
/-- R160, R161: CPY.LIN enters CQ with its registers' values; R162: a reserved bit raises BAD_CONTROL (0x0A), another space SPACE. -/
theorem test_cpy_issue :
    (nx (.cpyLin hd0 2 1 3) (cmdAt 64)).mySlot.cq.map (fun c => (c.cw, c.opa, c.opb, c.op, c.fn)) = [(64, 0x8000000000000000, 0x8000000000000080, 0x25, 0)] ∧
    trapped (nx (.cpyLin hd0 2 1 3) (cmdAt 0x10000000000)) = some (0x01, 0x0A) ∧
    (trapped (nx (.cpyLin hd0 2 1 4) (withX (cmdAt 64) 4 0xC000000000000000))).map (·.1) = some 0x0A := by decide +kernel
/-- R160: GATH, SEGDET and FSIG: the first two enter CQ, the third FQ. -/
theorem test_queues_of_commands :
    (nx (.segdet hd0 2 1) (cmdAt 0)).mySlot.cq.length = 1 ∧ (nx (.fsig hd0 2 4 3) (withX (cmdAt 0) 4 0xC000000000000000)).mySlot.fq.length = 1 ∧
    waitsAs (nx (.cpyLin hd0 2 1 3) ((cmdAt 64).modMySlot fun t => { t with cq := List.replicate 32 copyCmd })) = some (10, 0) := by decide +kernel
/-- R166, R168: a unit of a copy lands: the bytes stand at the destination. -/
theorem test_copy_lands :
    let u : Unit4k := { parts := [{ run := ⟨0x8000000000000000, 0x8000000000000080, 4⟩, data := [1, 2, 3, 4] }] }
    readBytes (nx (.commandUnitLand 0 false 0 0) (engineState { copyCmd with started := true, units := [u] })).mem (padKey 0 128) 4 = [1, 2, 3, 4] := by decide +kernel
/-- R166, R178: a command completes: it leaves its queue, and DONE = 1 adds 1 to its semaphore. -/
theorem test_copy_completes : let t := nx (.commandComplete 0 false 0) (engineState { copyCmd with started := true, cw := 64 ||| 2 ^ 58 ||| 5 * 2 ^ 52 })
    (t.slot 0).cq = [] ∧ (t.slot 0).semAt 5 = 1 := by decide +kernel
/-- R174, R175: the A stream sets up ring 0: OFFSET 128, one line a slot, two slots, itself producer and consumer, ENABLE. -/
def ringAt : State :=
  let s := (partAt 0 0).modMySlot ({ · with ringMask := 1 })
  nx (.csrw hd0 2 0x302) (withX (nx (.csrw hd0 2 0x301) (withX (nx (.csrw hd0 2 0x300) (withX s 2 128)) 2 0x102)) 2 0x100)
/-- R174 to R176: RACQ.P gives slot 0's address, and RREL.P counts it into FILLED: STAT reads ENABLE, PROD 1, FREE 1, FILLED 1. -/
theorem test_ring :
    r3 (nx (.rstat hd0 3 0) ringAt) = 0x8000000000000200 ∧ r3 (nx (.racq hd0 3 0 0) ringAt) = 0x8000000000000080 ∧
    r3 (nx (.rstat hd0 3 0) (nx (.rrel hd0 0 0) (nx (.racq hd0 3 0 0) ringAt))) = 0x8000000100000101 ∧
    r3 (nx (.rstat hd0 3 0) (nx (.rcan hd0 0 0) (nx (.racq hd0 3 0 0) ringAt))) = 0x8000000000000200 := by decide +kernel
/-- R177: a ring that is not declared raises RING_PROTOCOL (0x10), DISABLED (1); R146, R176: RACQ.C of an empty ring waits with KIND 5. -/
theorem test_ring_faults : trapped (nx (.racq hd0 3 5 0) (partAt 0 0)) = some (0x10, 1) ∧ waitsAs (nx (.racq hd0 3 0 1) ringAt) = some (5, 0) := by decide +kernel
/-- R188, R192: an unknown tarn reads 0 with SEGQRY, and SEGATT of it raises ATTACH_MISS (0x18). -/
theorem test_segqry : r3 (nx (.segqry hd0 3 1) (partAt 0 7)) = 0 ∧ (trapped (nx (.segatt hd0 3 1 0 0) (partAt 0 7))).map (·.1) = some 0x18 := by decide +kernel
/-- R179: FTEST of an address outside spaces 0x8 and 0x9 raises SPACE. -/
theorem test_ftest_space : (trapped (nx (.ftest hd0 3 2) (partAt 0xA000000000000000 0))).map (·.1) = some 0x0A := by decide +kernel
/-- R154: TASKADD of no record makes no access and gives 0; a misaligned record address raises MISALIGN. -/
theorem test_taskadd :
    r3 (nx (.taskadd hd0 3 1 2) (partAt 0 9)) = 0 ∧ (trapped (nx (.taskadd hd0 3 2 1) (partAt 0x8000000000000020 0))).map (·.1) = some 0x08 := by decide +kernel

/-- R250, R254: MCFG stages a register, and MMA's entry latches it; R87: MFMT writes an entry unchecked. -/
theorem test_mcfg :
    sget (nx (.mcfg hd0 0x32 2) (withX mState 2 3)).mySlot.mregs 0 0x32 = 3 ∧ (nx (.mfmt hd0 15 2) (withX mState 2 0x1FFFFFFFF)).mySlot.fmtEntry 15 = 0xFFFFFFFF := by decide +kernel
/-- R255, R266: ZERO enters the nest queue; R273: MSTAT counts it in QUEUED (15:12). -/
theorem test_zero_queued :
    (nx (.zero hd0 3) mState).mySlot.nests.map (fun e => (e.kind, e.td)) = [(.zero, 3)] ∧ r3 (nx (.mstat hd0 0 3) (nx (.zero hd0 3) mState)) = 0x1000 := by decide +kernel
/-- R95's worked case: SatINT32 clamps at 2^31 − 1, and the next group moves the accumulator back inside. -/
theorem test_sat_int32 :
    let clamp (v : Int) : Int := max (-2 ^ 31) (min (2 ^ 31 - 1) v)
    clamp (clamp (2147483392 + 129032) - 129032) = 2147354615 := by decide +kernel
/-- R104 to R107's worked case: 0.1 and −0.25 at S = 20: entries, residues, and the sum back. -/
theorem test_exr :
    toExr 0x3DCCCCCD 20 = (104858, false, false) ∧ toExr 0xBE800000 20 = (-262144, false, false) ∧ exrRes 104858 = 53 ∧ exrRes (-262144) = 251 ∧ exrRes (-157286) = 49 ∧
    exrRes (-1) = 254 ∧ fromExr (-157286) false 20 = 0xBE199980 ∧ fromExr 0 true 20 = 0x7FC00000 ∧ (toExr 0x7FC00000 20).2.1 = true ∧ (toExr 0x7F800000 20) = (2 ^ 44, false, true) := by
  decide +kernel
/-- R102, R103: a generator's step, and its seed, which is never 0. -/
theorem test_lfsr : lfsrStep 1 = 0x80200003 ∧ lfsrStep 2 = 1 ∧ genOf 0 0 = 1 ∧ genOf 5 1 = 0x9E3779BC := by decide +kernel
/-- R404's worked case (F = 588.234 mW, here in 1/1024 mW): after cycle t + 1 entry a keeps 323.5 mW, and at t + 2 the rest of F goes to b. -/
theorem test_ballast :
    (spendOldest State.reset.gov.fallStep [(0, 1024 * 1500)]).map (fun e => (e.1, e.2 * 10 / 1024)) = [(0, 9117)] ∧
    (spendOldest State.reset.gov.fallStep [(0, 1024 * 3235 / 10), (1, 1024 * 1500)]).map (fun e => (e.1, e.2 / 1024)) = [(1, 1235)] := by decide +kernel
/-- R395: an idle core is estimated at 100 mW; a cycle advances TICK. -/
theorem test_cycle : (nx .ballastStep State.reset).tick = 1 ∧ (State.reset.core 7).estimate 0 = 100 := by decide +kernel

/-- R31, R36: a notify of an enabled queue wakes it. -/
theorem test_notify : ((nx (.notify 0 1) { State.reset with hedge := barAll, queues := [(1, { enabled := true, slot := some 3 })] }).queue 1).awake = true := by decide +kernel
/-- R25, R27: NOP starts and is done at once; R29: a reserved TYPE stops the queue with ILLEGAL_OP (0x01). -/
theorem test_packets :
    ((nx (.nopPacket 3) (packetState [0, 0])).queue 1).packets.map (·.done) = [true] ∧
    ((nx (.packetComplete 3 0) (nx (.nopPacket 3) (packetState [0, 0]))).queue 1).packets = [] := by decide +kernel
/-- R26: WRITE's 8 bytes stand at its address. -/
theorem test_write_packet :
    memNat (nx (.writePacket 3) (packetState ([0, 3, 0, 0, 0, 0, 0, 0] ++ natBytes 8 0x30000 ++ natBytes 16 8 ++ natBytes 8 0x1122334455667788))) 0x30000 8 = 0x1122334455667788 := by decide +kernel
/-- R538's worked case: a masked vector's message becomes pending, and its unmasking sends exactly one. -/
theorem test_msix : let s := { State.reset with hedge := { tables := [(22, { windows := [(0, (0, 0xFFFF))], perms := [(6, 3)] })] } }
    let t := nx (.msixMaskWrite 6 5 false) { s with msix := [(5, { pending := true })] }
    (sget t.msix {} 5).pending = false ∧ t.outbox = [.msix 5] := by decide +kernel
/-- R393, R394: GOV.LIMITS outside 50 to 2000 mA/ns sets REJECT and changes nothing. -/
theorem test_gov_limits : let t := nx (.govLimitsWrite 15 0x6400031) flatState
    t.gov.reject = true ∧ t.gov.fall = State.reset.gov.fall := by decide +kernel
/-- R331's worked case: with 512 KiB of share, offset 0x61234 is byte 0x1234 of the share of core 1. -/
theorem test_shared_granule : let s := { (State.reset.modSlot 0 ({ · with state := .running })) with shares := [(0, { share := 1 })] }
    (resolveShared s (slotReq s 0) .r 0 0x61234 1).toOption.map (fun p => (padCore p.key, padOff p.key % 2 ^ 19)) = some (1, 0x1234) := by decide +kernel
/-- R531: a boot ROM that finds no verified image of the management controller fails stage 0, and the attempt counts. -/
theorem test_boot : let t := nx (.boot []) State.reset
    t.boot.ready = false ∧ t.boot.attempts = 1 := by decide +kernel
/-- R413, R416: a HEAD flit in sequence is taken, and the next is expected. -/
theorem test_flit : ((nx (.dataFlit 3 (mkFlit 0 1 FType.head 7 (headPayload 16))) (linkState id)).port 3).rxNext = 1 := by decide +kernel
/-- R463: REPORT of a trapped job ends it: its slot is empty, and BUSY clears. -/
theorem test_report : let t := nx (.report 0) (fwState 4 .trapped)
    (t.slot 0).state = .free ∧ ((nx (.fwCommandComplete 0) t).fw 0).busy = false := by decide +kernel
/-- R459: FW.SEL takes a core of the cluster. -/
theorem test_fw_sel : ((nx (.fwSelWrite 0 5) State.reset).fw 0).sel = 5 := by decide +kernel

end Sys2Proof.Tests
end

/-! # Memory keeps its canonical form

The invariant is that of `Memory.wf`. Each function of the model that yields a state, or an outcome with a state in it, has one
lemma, `<function>_wf`: from a state whose memory is in canonical form it yields one again. The lemmas follow the model's order and its
sections; `exec_wf` collects the instructions and events, `step_wf` the turns.

Some definitions match on a call whose evaluation is long. There the callee is generalized, with what the proof knows of it, and the
rest is an auxiliary lemma over any such function: two matches are compared by what they match on, and a variable has no value.
-/

section

namespace Sys2Proof.Machine

/-! ## The invariant, of a state and of what yields one -/

/-- A state whose memory is in canonical form. -/
abbrev Canon (s : State) : Prop := Memory.wf s.mem = true

/-- An outcome that leaves memory in canonical form, where it is a next state. -/
def CanonNext (o : Host.Outcome State Fault Refusal) : Prop := ∀ t, o = .next t → Canon t

/-- An optional state whose memory is in canonical form, where there is one. -/
def CanonSome (o : Option State) : Prop := ∀ t, o = some t → Canon t

/-- A result whose memory is in canonical form, where it is a state. -/
def CanonOk (r : Except Trap State) : Prop := ∀ t, r = .ok t → Canon t

theorem CanonNext.next {s : State} (w : Canon s) : CanonNext (.next s) := fun _ h => by cases h; exact w
theorem CanonNext.fault (r : Fault) : CanonNext (.fault r) := fun _ h => by cases h
theorem CanonSome.some {s : State} (w : Canon s) : CanonSome (.some s) := fun _ h => by cases h; exact w
theorem CanonSome.none : CanonSome .none := fun _ h => by cases h
theorem CanonOk.ok {s : State} (w : Canon s) : CanonOk (.ok s) := fun _ h => by cases h; exact w
theorem CanonOk.error (t : Trap) : CanonOk (.error t) := fun _ h => by cases h

theorem Canon.of_mem {s t : State} (h : t.mem = s.mem) (w : Canon s) : Canon t := by rw [Canon, h]; exact w

/-! The state that an equation names. -/

theorem canon_next {o : Host.Outcome State Fault Refusal} {s : State} (h : o = .next s) (k : CanonNext o) : Canon s := k s h
theorem canon_some {o : Option State} {s : State} (h : o = some s) (k : CanonSome o) : Canon s := k s h
theorem canon_ok {r : Except Trap State} {s : State} (h : r = .ok s) (k : CanonOk r) : Canon s := k s h

theorem canon_fst {α : Type} {p : State × α} {s : State} {x : α} (h : p = (s, x)) (w : Canon p.1) : Canon s := by subst h; exact w
theorem canon_snd {α : Type} {p : α × State} {s : State} {x : α} (h : p = (x, s)) (w : Canon p.2) : Canon s := by subst h; exact w

/-- What coming to an attachment may leave. -/
def Att.KeepsMemory : Att → Prop
  | .done s _ => Canon s
  | .wait s => Canon s
  | .fail _ => True

theorem Att.canon_done {r : Att} {s : State} {b : Word} (h : r = .done s b) (k : r.KeepsMemory) : Canon s := by subst h; exact k
theorem Att.canon_wait {r : Att} {s : State} (h : r = .wait s) (k : r.KeepsMemory) : Canon s := by subst h; exact k

/-- What a creation may leave. -/
def New.KeepsMemory : New → Prop
  | .made s _ => Canon s
  | .wait s => Canon s
  | .fail _ s => Canon s

theorem New.canon_made {r : New} {s : State} {t : Tarn} (h : r = .made s t) (k : r.KeepsMemory) : Canon s := by subst h; exact k
theorem New.canon_wait {r : New} {s : State} (h : r = .wait s) (k : r.KeepsMemory) : Canon s := by subst h; exact k
theorem New.canon_fail {r : New} {f : Trap} {s : State} (h : r = .fail f s) (k : r.KeepsMemory) : Canon s := by subst h; exact k

/-- What a step of an admission may leave. -/
def Adm.KeepsMemory : Adm → Prop
  | .go s _ => Canon s
  | .wait s _ => Canon s
  | .fail s _ => Canon s

theorem Adm.canon_go {r : Adm} {s : State} {l : Launch} (h : r = .go s l) (k : r.KeepsMemory) : Canon s := by subst h; exact k
theorem Adm.canon_wait {r : Adm} {s : State} {l : Launch} (h : r = .wait s l) (k : r.KeepsMemory) : Canon s := by subst h; exact k
theorem Adm.canon_fail {r : Adm} {s : State} {f : Trap} (h : r = .fail s f) (k : r.KeepsMemory) : Canon s := by subst h; exact k

/-- What the start of a ring-coupled or slot copy may leave. -/
def Got.KeepsMemory : Got → Prop
  | .ok s _ => Canon s
  | _ => True

theorem Got.canon_ok {r : Got} {s : State} {c : Cmd} (h : r = .ok s c) (k : r.KeepsMemory) : Canon s := by subst h; exact k

/-- What an operation on a tarn may leave. -/
def Seg.KeepsMemory : Seg → Prop
  | .done s => Canon s
  | .wait s => Canon s
  | .fail _ => True

theorem Seg.canon_done {r : Seg} {s : State} (h : r = .done s) (k : r.KeepsMemory) : Canon s := by subst h; exact k
theorem Seg.canon_wait {r : Seg} {s : State} (h : r = .wait s) (k : r.KeepsMemory) : Canon s := by subst h; exact k

/-- What a job's start may leave. -/
def Begin.KeepsMemory : Begin → Prop
  | .go s => Canon s
  | .wait s => Canon s
  | .fail s _ => Canon s

theorem Begin.canon_go {r : Begin} {s : State} (h : r = .go s) (k : r.KeepsMemory) : Canon s := by subst h; exact k
theorem Begin.canon_wait {r : Begin} {s : State} (h : r = .wait s) (k : r.KeepsMemory) : Canon s := by subst h; exact k
theorem Begin.canon_fail {r : Begin} {s : State} {f : Trap} (h : r = .fail s f) (k : r.KeepsMemory) : Canon s := by subst h; exact k

/-- A result of a state and more, with the state's memory in canonical form. -/
def CanonOkFst {α : Type} (r : Except Trap (State × α)) : Prop := ∀ t x, r = .ok (t, x) → Canon t

/-- An optional result with a state, its memory in canonical form. -/
def CanonSomeSnd {α : Type} (r : Option (α × State)) : Prop := ∀ x t, r = some (x, t) → Canon t

theorem canon_ok_fst {α : Type} {r : Except Trap (State × α)} {s : State} {x : α} (h : r = .ok (s, x)) (k : CanonOkFst r) : Canon s := k s x h
theorem canon_some_snd {α : Type} {r : Option (α × State)} {s : State} {x : α} (h : r = some (x, s)) (k : CanonSomeSnd r) : Canon s := k x s h
theorem CanonOkFst.ok {α : Type} {s : State} {x : α} (w : Canon s) : CanonOkFst (.ok (s, x)) := fun _ _ h => by cases h; exact w
theorem CanonOkFst.error {α : Type} (t : Trap) : CanonOkFst (α := α) (.error t) := fun _ _ h => by cases h
theorem CanonSomeSnd.some {α : Type} {s : State} {x : α} (w : Canon s) : CanonSomeSnd (.some (x, s)) := fun _ _ h => by cases h; exact w
theorem CanonSomeSnd.none {α : Type} : CanonSomeSnd (α := α) .none := fun _ _ h => by cases h

/-! ## What takes a state apart or runs a word -/

theorem CanonSome.getD {o : Option State} {s : State} (k : CanonSome o) (w : Canon s) : Canon (o.getD s) := by
  cases o with
  | none => exact w
  | some t => exact k t rfl

theorem canon_ite {c : Prop} [Decidable c] {s t : State} (ws : Canon s) (wt : Canon t) : Canon (if c then s else t) := by
  split
  · exact ws
  · exact wt

/-- What each step of a fold keeps, the fold keeps. -/
theorem foldl_wf {α : Type} (f : State → α → State) (as : List α) {s : State} (h : ∀ t a, Canon t → Canon (f t a)) (w : Canon s) :
    Canon (as.foldl f s) := by
  induction as generalizing s with
  | nil => exact w
  | cons a as ih => exact ih (h s a w)

theorem foldl_fst_wf {α β : Type} (f : State × β → α → State × β) (as : List α) {p : State × β} (h : ∀ q a, Canon q.1 → Canon (f q a).1)
    (w : Canon p.1) : Canon (as.foldl f p).1 := by
  induction as generalizing p with
  | nil => exact w
  | cons a as ih => exact ih (h p a w)

theorem conclude_canon {s : State} {e : Eff} (k : e.KeepsMemory) (w : Canon s) : CanonNext (conclude s e) := fun t h => conclude_wf s t e h k w

theorem runWord_canon {s : State} {i : Instr} {e : State → Eff} (k : ∀ s, Canon s → (e s).KeepsMemory) (w : Canon s) :
    CanonNext (runWord s i e) :=
  fun t h => runWord_wf s t i e h (k s w) w

theorem runGuarded_canon {s : State} {i : Instr} {e : State → Eff} (k : ∀ s, Canon s → (e s).KeepsMemory) (w : Canon s) :
    CanonNext (runGuarded s i e) :=
  fun t h => runGuarded_wf s t i e h (k s w) w

theorem storeAll_canon (s : State) (r : Req) (a : Word) (bs : List Byte) (w : Canon s) : CanonOk (storeAll s r a bs) :=
  fun t h => storeAll_wf s t r a bs h w

/-! ## Updates that leave memory as it is -/

@[simp] theorem cleanSectors_mem (s : State) (p : Nat → Bool) : (cleanSectors s p).mem = s.mem := rfl
@[simp] theorem noteEngine_mem (s : State) (slot : Nat) (fq : Bool) : (noteEngine s slot fq).mem = s.mem := rfl
@[simp] theorem modSig_mem (s : State) (n : Nat) (f : UpdSig → UpdSig) : (modSig s n f).mem = s.mem := rfl
@[simp] theorem wakePending_mem (s : State) : (wakePending s).mem = s.mem := rfl
@[simp] theorem State.modFw_mem (s : State) (core : Nat) (f : Fw → Fw) : (s.modFw core f).mem = s.mem := rfl
@[simp] theorem inject_mem (s : State) (p : FPkt) : (inject s p).mem = s.mem := rfl
@[simp] theorem putTarn_mem (s : State) (t : Tarn) : (putTarn s t).mem = s.mem := rfl
@[simp] theorem State.modNest_mem (s : State) (n id : Nat) (f : Nest → Nest) : (s.modNest n id f).mem = s.mem := rfl
@[simp] theorem freePort_mem (s : State) (core : Nat) : (freePort s core).mem = s.mem := rfl
@[simp] theorem dropRec_mem (s : State) (id : Nat) : (dropRec s id).mem = s.mem := rfl
@[simp] theorem clearStop_mem (s : State) (n : Nat) : (clearStop s n).mem = s.mem := rfl
@[simp] theorem clearTiles_mem (s : State) (core mask : Nat) : (clearTiles s core mask).mem = s.mem := rfl
@[simp] theorem markJob_mem (s : State) (n : Nat) : (markJob s n).mem = s.mem := rfl
@[simp] theorem dropPending_mem (s : State) (n : Nat) : (dropPending s n).mem = s.mem := rfl
@[simp] theorem modPacket_mem (s : State) (q idx : Nat) (f : Packet → Packet) : (modPacket s q idx f).mem = s.mem := rfl
@[simp] theorem complete_mem (s : State) (c : Completion) : (complete s c).mem = s.mem := rfl
@[simp] theorem fwEnd_mem (s : State) (core code : Nat) : (fwEnd s core code).mem = s.mem := rfl
@[simp] theorem State.modPort_mem (s : State) (n : Nat) (f : FPort → FPort) : (s.modPort n f).mem = s.mem := rfl
@[simp] theorem liftRoutes_mem (s : State) (n : Nat) : (liftRoutes s n).mem = s.mem := rfl
@[simp] theorem answer_mem (s : State) (p : FPkt) (op status sub : Nat) (data : List Byte) (poison : List
    (Nat × Nat)) : (answer s p op status sub data poison).mem = s.mem := rfl
@[simp] theorem sendColl_mem (s : State) (prio addr status sub : Nat) (data : List Byte) : (sendColl s prio addr status sub data).mem = s.mem := rfl
@[simp] theorem State.modCxl_mem (s : State) (p : Nat) (f : CxlPort → CxlPort) : (s.modCxl p f).mem = s.mem := rfl
@[simp] theorem readyDue_mem (s : State) : (readyDue s).mem = s.mem := rfl

/-! ### Translation (R333, R334, R340) -/

theorem fillTlb_wf (s : State) (cluster : Bool) (unit index cls ctx va : Nat) (w : Canon s) : Canon (fillTlb s cluster unit index cls ctx va) := by
  unfold fillTlb
  split
  · exact w
  · extract_lets -underBinder
    split
    · exact w
    · split
      · split <;> exact w
      · split <;> exact w

/-! ### The L2 (R335, R343, R344) -/

theorem readUses_wf (s : State) (r : Req) (addr n : Nat) (ps : List Piece) (w : Canon s) : Canon (readUses s r addr n ps) :=
  Canon.of_mem (l2Uses_mem ..) (Canon.of_mem (walked_mem ..) w)

/-! ### Hints (R341) -/

theorem countHint_wf (s : State) (cluster slice : Nat) (hint : Option Nat) (w : Canon s) : Canon (countHint s cluster slice hint) := by
  unfold countHint
  split
  · split <;> exact w
  · exact w

theorem hintLines_wf (s : State) (cluster : Nat) (p : Piece) (w : Canon s) : Canon (hintLines s cluster p) := by
  unfold hintLines
  split
  · exact w
  · refine foldl_wf _ _ (fun _ _ w1 => ?_) w
    extract_lets -underBinder
    exact countHint_wf _ _ _ _ w1

theorem hinted_wf (s : State) (cluster : Nat) (ps : List Piece) (w : Canon s) : Canon (hinted s cluster ps) :=
  foldl_wf _ _ (fun _ _ w1 => hintLines_wf _ _ _ w1) w

/-! ### Writing -/

theorem spreadRuns_wf (s : State) (bad : List (Nat × Nat)) (o : Nat) (ps : List Piece) (w : Canon s) : Canon (spreadRuns s bad o ps) := by
  induction ps generalizing s o with
  | nil => exact w
  | cons p ps ih =>
    refine ih _ _ (foldl_wf _ _ (fun t b wt => ?_) w)
    dsimp only
    split
    · exact wt
    · exact Canon.of_mem (spreadPoison_mem ..) wt

theorem fetchAll_wf (s : State) (r : Req) (addr : Word) (n : Nat) (w : Canon s) : CanonOkFst (fetchAll s r addr n) := by
  intro t x h
  unfold fetchAll at h
  cases e : loadAll s r addr n <;> rw [e] at h <;> cases h
  exact Canon.of_mem (readied_mem ..) w

/-! ### Stored sectors (R502, R497) -/

theorem sectorRead_wf (s : State) (sector : Nat) (w : Canon s) : Canon (sectorRead s sector) := by
  unfold sectorRead
  split
  · exact w
  · split
    · exact w
    · split
      · exact w
      · extract_lets -underBinder
        split
        · exact w
        · extract_lets -underBinder s2
          have w_s2 : Canon s2 := writeBytes_wf _ _ _ w
          split <;> exact w_s2

theorem cellError_wf (s : State) (unit pos : Nat) (e : Byte) (w : Canon s) : Canon (cellError s unit pos e) := by
  unfold cellError
  extract_lets -underBinder
  split
  · split <;> exact w
  · split
    · exact w
    · split <;> exact w

/-! ### Time -/

theorem ageTick_wf (s : State) (k : Nat) (f : State → State) (w : Canon s) (hf : ∀ (t : State), Canon t → Canon (f t)) : Canon (ageTick s k f) := by
  unfold ageTick
  split
  · exact hf _ w
  · exact w

/-! ### How a word's effect ends -/

theorem State.drawFree_wf (s : State) (w : Canon s) : Canon s.drawFree.2 := w

/-! ### Dirty sectors (R193) -/

theorem dropSector_wf (s : State) (u : Nat) (w : Canon s) : Canon (dropSector s u) := by
  unfold dropSector
  split
  · exact w
  · exact writeBytes_wf _ _ _ w

/-! ### Requests (R341, R343) -/

theorem l2Access_wf (s : State) (cluster : Nat) (ctx : Option Nat) (addr : Nat) (hint : Option Nat) (w : Canon s) :
    Canon (l2Access s cluster ctx addr hint) := by
  unfold l2Access
  split
  · exact w
  · split
    · exact w
    · extract_lets -underBinder _ s1
      have w_s1 : Canon s1 := countHint_wf _ _ _ _ w
      split <;> exact w_s1

/-! ### Running a word (R61, R62, R67, R109) -/

theorem alu_wf (s : State) (i : Instr) (d a b : BitVec 5) (lat : Nat) (f : Word → Word → Word) (w : Canon s) : CanonNext (alu s i d a b lat f) :=
  runGuarded_canon (fun _ w1 => Canon.of_mem (writeX_mem ..) w1) w

theorem alu1_wf (s : State) (i : Instr) (d a : BitVec 5) (f : Word → Word) (w : Canon s) : CanonNext (alu1 s i d a f) :=
  runGuarded_canon (fun _ w1 => Canon.of_mem (writeX_mem ..) w1) w

theorem compare_wf (s : State) (i : Instr) (p : BitVec 3) (k : BitVec 2) (c : State → Bool) (w : Canon s) : CanonNext (compare s i p k c) := by
  unfold compare
  refine runGuarded_canon (fun _ w1 => ?_) w
  extract_lets -underBinder
  exact Canon.of_mem (writeP_mem ..) (Canon.of_mem (writeP_mem ..) w1)

theorem plog_wf (s : State) (i : Instr) (d : BitVec 4) (f : State → BitVec 256) (w : Canon s) : CanonNext (plog s i d f) :=
  runWord_canon (fun _ w1 => Canon.of_mem (writeP_mem ..) w1) w

theorem execAdd_wf (h : Hd) (d a b : BitVec 5) (s : State) (w : Canon s) : CanonNext (execAdd h d a b s) := alu_wf _ _ _ _ _ _ _ w
theorem execSub_wf (h : Hd) (d a b : BitVec 5) (s : State) (w : Canon s) : CanonNext (execSub h d a b s) := alu_wf _ _ _ _ _ _ _ w
theorem execAnd_wf (h : Hd) (d a b : BitVec 5) (s : State) (w : Canon s) : CanonNext (execAnd h d a b s) := alu_wf _ _ _ _ _ _ _ w
theorem execOr_wf (h : Hd) (d a b : BitVec 5) (s : State) (w : Canon s) : CanonNext (execOr h d a b s) := alu_wf _ _ _ _ _ _ _ w
theorem execXor_wf (h : Hd) (d a b : BitVec 5) (s : State) (w : Canon s) : CanonNext (execXor h d a b s) := alu_wf _ _ _ _ _ _ _ w
theorem execShl_wf (h : Hd) (d a b : BitVec 5) (s : State) (w : Canon s) : CanonNext (execShl h d a b s) := alu_wf _ _ _ _ _ _ _ w
theorem execShr_wf (h : Hd) (d a b : BitVec 5) (s : State) (w : Canon s) : CanonNext (execShr h d a b s) := alu_wf _ _ _ _ _ _ _ w
theorem execSar_wf (h : Hd) (d a b : BitVec 5) (s : State) (w : Canon s) : CanonNext (execSar h d a b s) := alu_wf _ _ _ _ _ _ _ w
theorem execMin_wf (h : Hd) (d a b : BitVec 5) (s : State) (w : Canon s) : CanonNext (execMin h d a b s) := alu_wf _ _ _ _ _ _ _ w
theorem execMax_wf (h : Hd) (d a b : BitVec 5) (s : State) (w : Canon s) : CanonNext (execMax h d a b s) := alu_wf _ _ _ _ _ _ _ w
theorem execUmin_wf (h : Hd) (d a b : BitVec 5) (s : State) (w : Canon s) : CanonNext (execUmin h d a b s) := alu_wf _ _ _ _ _ _ _ w
theorem execUmax_wf (h : Hd) (d a b : BitVec 5) (s : State) (w : Canon s) : CanonNext (execUmax h d a b s) := alu_wf _ _ _ _ _ _ _ w
theorem execMul_wf (h : Hd) (d a b : BitVec 5) (s : State) (w : Canon s) : CanonNext (execMul h d a b s) := alu_wf _ _ _ _ _ _ _ w
theorem execMulh_wf (h : Hd) (d a b : BitVec 5) (s : State) (w : Canon s) : CanonNext (execMulh h d a b s) := alu_wf _ _ _ _ _ _ _ w
theorem execUmulh_wf (h : Hd) (d a b : BitVec 5) (s : State) (w : Canon s) : CanonNext (execUmulh h d a b s) := alu_wf _ _ _ _ _ _ _ w
theorem execDiv_wf (h : Hd) (d a b : BitVec 5) (s : State) (w : Canon s) : CanonNext (execDiv h d a b s) := alu_wf _ _ _ _ _ _ _ w
theorem execUdiv_wf (h : Hd) (d a b : BitVec 5) (s : State) (w : Canon s) : CanonNext (execUdiv h d a b s) := alu_wf _ _ _ _ _ _ _ w
theorem execRem_wf (h : Hd) (d a b : BitVec 5) (s : State) (w : Canon s) : CanonNext (execRem h d a b s) := alu_wf _ _ _ _ _ _ _ w
theorem execUrem_wf (h : Hd) (d a b : BitVec 5) (s : State) (w : Canon s) : CanonNext (execUrem h d a b s) := alu_wf _ _ _ _ _ _ _ w
theorem execSlt_wf (h : Hd) (d a b : BitVec 5) (s : State) (w : Canon s) : CanonNext (execSlt h d a b s) := alu_wf _ _ _ _ _ _ _ w
theorem execUslt_wf (h : Hd) (d a b : BitVec 5) (s : State) (w : Canon s) : CanonNext (execUslt h d a b s) := alu_wf _ _ _ _ _ _ _ w
theorem execClz_wf (h : Hd) (d a : BitVec 5) (s : State) (w : Canon s) : CanonNext (execClz h d a s) := alu1_wf _ _ _ _ _ w
theorem execPopc_wf (h : Hd) (d a : BitVec 5) (s : State) (w : Canon s) : CanonNext (execPopc h d a s) := alu1_wf _ _ _ _ _ w
theorem execBrev_wf (h : Hd) (d a : BitVec 5) (s : State) (w : Canon s) : CanonNext (execBrev h d a s) := alu1_wf _ _ _ _ _ w
theorem execSextb_wf (h : Hd) (d a : BitVec 5) (s : State) (w : Canon s) : CanonNext (execSextb h d a s) := alu1_wf _ _ _ _ _ w
theorem execSexth_wf (h : Hd) (d a : BitVec 5) (s : State) (w : Canon s) : CanonNext (execSexth h d a s) := alu1_wf _ _ _ _ _ w
theorem execSextw_wf (h : Hd) (d a : BitVec 5) (s : State) (w : Canon s) : CanonNext (execSextw h d a s) := alu1_wf _ _ _ _ _ w
theorem execZextw_wf (h : Hd) (d a : BitVec 5) (s : State) (w : Canon s) : CanonNext (execZextw h d a s) := alu1_wf _ _ _ _ _ w
theorem execAddi_wf (h : Hd) (d a : BitVec 5) (i : BitVec 9) (s : State) (w : Canon s) : CanonNext (execAddi h d a i s) := alu1_wf _ _ _ _ _ w
theorem execAndi_wf (h : Hd) (d a : BitVec 5) (i : BitVec 9) (s : State) (w : Canon s) : CanonNext (execAndi h d a i s) := alu1_wf _ _ _ _ _ w
theorem execOri_wf (h : Hd) (d a : BitVec 5) (i : BitVec 9) (s : State) (w : Canon s) : CanonNext (execOri h d a i s) := alu1_wf _ _ _ _ _ w
theorem execXori_wf (h : Hd) (d a : BitVec 5) (i : BitVec 9) (s : State) (w : Canon s) : CanonNext (execXori h d a i s) := alu1_wf _ _ _ _ _ w
theorem execShli_wf (h : Hd) (d a : BitVec 5) (n : BitVec 6) (s : State) (w : Canon s) : CanonNext (execShli h d a n s) := alu1_wf _ _ _ _ _ w
theorem execShri_wf (h : Hd) (d a : BitVec 5) (n : BitVec 6) (s : State) (w : Canon s) : CanonNext (execShri h d a n s) := alu1_wf _ _ _ _ _ w
theorem execSari_wf (h : Hd) (d a : BitVec 5) (n : BitVec 6) (s : State) (w : Canon s) : CanonNext (execSari h d a n s) := alu1_wf _ _ _ _ _ w

theorem execMovi_wf (h : Hd) (d : BitVec 5) (i : BitVec 14) (s : State) (w : Canon s) : CanonNext (execMovi h d i s) :=
  runGuarded_canon (fun _ w1 => Canon.of_mem (writeX_mem ..) w1) w

theorem execSetlc_wf (h : Hd) (a : BitVec 5) (i : BitVec 9) (s : State) (w : Canon s) : CanonNext (execSetlc h a i s) :=
  runGuarded_canon (fun _ w1 => w1) w

theorem execCmp_wf (h : Hd) (p : BitVec 3) (a b : BitVec 5) (c : BitVec 4) (k : BitVec 2) (s : State) (w : Canon s) :
    CanonNext (execCmp h p a b c k s) :=
  compare_wf _ _ _ _ _ w

theorem execCmpi_wf (h : Hd) (p : BitVec 3) (a i : BitVec 5) (c : BitVec 4) (k : BitVec 2) (s : State) (w : Canon s) :
    CanonNext (execCmpi h p a i c k s) :=
  compare_wf _ _ _ _ _ w

theorem execPand_wf (h : Hd) (d a b : BitVec 4) (s : State) (w : Canon s) : CanonNext (execPand h d a b s) := plog_wf _ _ _ _ w
theorem execPor_wf (h : Hd) (d a b : BitVec 4) (s : State) (w : Canon s) : CanonNext (execPor h d a b s) := plog_wf _ _ _ _ w
theorem execPxor_wf (h : Hd) (d a b : BitVec 4) (s : State) (w : Canon s) : CanonNext (execPxor h d a b s) := plog_wf _ _ _ _ w
theorem execPandn_wf (h : Hd) (d a b : BitVec 4) (s : State) (w : Canon s) : CanonNext (execPandn h d a b s) := plog_wf _ _ _ _ w
theorem execPnot_wf (h : Hd) (d a : BitVec 4) (s : State) (w : Canon s) : CanonNext (execPnot h d a s) := plog_wf _ _ _ _ w
theorem execPmov_wf (h : Hd) (d a : BitVec 4) (s : State) (w : Canon s) : CanonNext (execPmov h d a s) := plog_wf _ _ _ _ w
theorem execPbcast_wf (h : Hd) (d a : BitVec 4) (s : State) (w : Canon s) : CanonNext (execPbcast h d a s) := plog_wf _ _ _ _ w

theorem execPcnt_wf (h : Hd) (d : BitVec 5) (a : BitVec 4) (s : State) (w : Canon s) : CanonNext (execPcnt h d a s) :=
  runGuarded_canon (fun _ w1 => Canon.of_mem (writeX_mem ..) w1) w

/-! ### Compact forms (R44, R45) -/

theorem execCompactAddX0_wf (a b : BitVec 5) (s : State) (w : Canon s) : CanonNext (execCompactAddX0 a b s) := alu_wf _ _ _ _ _ _ _ w
theorem execCompactAdd_wf (a b : BitVec 5) (s : State) (w : Canon s) : CanonNext (execCompactAdd a b s) := alu_wf _ _ _ _ _ _ _ w
theorem execCompactSub_wf (a b : BitVec 5) (s : State) (w : Canon s) : CanonNext (execCompactSub a b s) := alu_wf _ _ _ _ _ _ _ w
theorem execCompactAnd_wf (a b : BitVec 5) (s : State) (w : Canon s) : CanonNext (execCompactAnd a b s) := alu_wf _ _ _ _ _ _ _ w
theorem execCompactOr_wf (a b : BitVec 5) (s : State) (w : Canon s) : CanonNext (execCompactOr a b s) := alu_wf _ _ _ _ _ _ _ w
theorem execCompactXor_wf (a b : BitVec 5) (s : State) (w : Canon s) : CanonNext (execCompactXor a b s) := alu_wf _ _ _ _ _ _ _ w
theorem execCompactAddi_wf (a i : BitVec 5) (s : State) (w : Canon s) : CanonNext (execCompactAddi a i s) := alu1_wf _ _ _ _ _ w

theorem execCompactMovi_wf (a i : BitVec 5) (s : State) (w : Canon s) : CanonNext (execCompactMovi a i s) :=
  runGuarded_canon (fun _ w1 => Canon.of_mem (writeX_mem ..) w1) w

theorem execCompactShli_wf (a n : BitVec 5) (s : State) (w : Canon s) : CanonNext (execCompactShli a n s) := alu1_wf _ _ _ _ _ w
theorem execCompactShri_wf (a n : BitVec 5) (s : State) (w : Canon s) : CanonNext (execCompactShri a n s) := alu1_wf _ _ _ _ _ w
theorem execCompactSari_wf (a n : BitVec 5) (s : State) (w : Canon s) : CanonNext (execCompactSari a n s) := alu1_wf _ _ _ _ _ w

/-! ### Rows of tiles, and results landing (R54, R55, R205) -/

theorem landOne_wf (s : State) (p : Pend) (w : Canon s) : Canon (landOne s p) := by
  unfold landOne
  extract_lets -underBinder s1
  have w_s1 : Canon s1 := by
    unfold s1
    split <;> exact w
  split <;> exact w_s1

theorem landList_wf (s : State) (ps : List Pend) (w : Canon s) : Canon (landList s ps) := by
  induction ps generalizing s with
  | nil => exact w
  | cons p ps ih => exact ih _ (landOne_wf _ _ w)

theorem drainPending_wf (s : State) (w : Canon s) : Canon (drainPending s) := by
  unfold drainPending
  split
  · exact w
  · exact Canon.of_mem (State.modMyStream_mem ..) (landList_wf _ _ w)

theorem countPending_wf (s : State) (w : Canon s) : Canon (countPending s) := by
  unfold countPending
  split
  · exact w
  · extract_lets -underBinder
    exact Canon.of_mem (State.modMyStream_mem ..) (landList_wf _ _ w)

/-! ### Fetching and blocks (R46 to R52) -/

theorem fetched_wf (s : State) (g : Agent) (addr : Word) (n : Nat) (w : Canon s) : Canon (fetched s g addr n) := by
  unfold fetched
  split
  · exact w
  · exact readUses_wf _ _ _ _ _ w

theorem execBlockHeader_wf (r e t : BitVec 1) (k : BitVec 3) (l : BitVec 10) (n : BitVec 12) (s : State) (w : Canon s) :
    CanonNext (execBlockHeader r e t k l n s) := by
  unfold execBlockHeader
  extract_lets -underBinder _ _ s1
  have w_s1 : Canon s1 := by
    unfold s1
    split
    · exact w
    · exact drainPending_wf _ w
  split
  · exact conclude_canon trivial w
  · split
    · exact .next w
    · exact .next w_s1

/-! ### Transfers (R123 to R126) -/

theorem transfer_wf (s : State) (target : Word) (w : Canon s) : (transfer s target).KeepsMemory := w

theorem execBr_wf (h : Hd) (o : BitVec 19) (s : State) (w : Canon s) : CanonNext (execBr h o s) :=
  runGuarded_canon (fun _ w1 => transfer_wf _ _ w1) w

theorem execCall_wf (h : Hd) (o : BitVec 19) (s : State) (w : Canon s) : CanonNext (execCall h o s) :=
  runGuarded_canon (fun _ w1 => transfer_wf _ _ (Canon.of_mem (writeX_mem ..) w1)) w

theorem execJmp_wf (h : Hd) (a : BitVec 5) (s : State) (w : Canon s) : CanonNext (execJmp h a s) :=
  runGuarded_canon (fun _ w1 => transfer_wf _ _ w1) w

theorem execCallr_wf (h : Hd) (a : BitVec 5) (s : State) (w : Canon s) : CanonNext (execCallr h a s) :=
  runGuarded_canon (fun _ w1 => transfer_wf _ _ (Canon.of_mem (writeX_mem ..) w1)) w

theorem execRet_wf (h : Hd) (s : State) (w : Canon s) : CanonNext (execRet h s) := runGuarded_canon (fun _ w1 => transfer_wf _ _ w1) w

/-! ### Fences (R135) -/

theorem execFence_wf (h : Hd) (m : BitVec 16) (e : BitVec 3) (s : State) (w : Canon s) : CanonNext (execFence h m e s) := by
  unfold execFence
  refine runGuarded_canon (fun _ w1 => ?_) w
  split <;> exact w1

/-! ### Semaphores (R136 to R138) -/

theorem semAdd_wf (s : State) (n v : Nat) (w : Canon s) : (semAdd s n v).KeepsMemory := by
  unfold semAdd
  split
  · exact w
  · exact trivial

theorem execSadd_wf (h : Hd) (n : BitVec 6) (a : BitVec 5) (s : State) (w : Canon s) : CanonNext (execSadd h n a s) :=
  runGuarded_canon (fun _ w1 => semAdd_wf _ _ _ w1) w

theorem execSaddi_wf (h : Hd) (n : BitVec 6) (i : BitVec 5) (s : State) (w : Canon s) : CanonNext (execSaddi h n i s) :=
  runGuarded_canon (fun _ w1 => semAdd_wf _ _ _ w1) w

theorem execCompactSaddi_wf (n i : BitVec 5) (s : State) (w : Canon s) : CanonNext (execCompactSaddi n i s) :=
  runGuarded_canon (fun _ w1 => semAdd_wf _ _ _ w1) w

theorem execSwait_wf (h : Hd) (n : BitVec 6) (a : BitVec 5) (s : State) (w : Canon s) : CanonNext (execSwait h n a s) := by
  unfold execSwait
  refine runGuarded_canon (fun _ w1 => ?_) w
  extract_lets -underBinder
  split
  · exact w1
  · exact trivial

theorem execSread_wf (h : Hd) (d : BitVec 5) (n : BitVec 6) (s : State) (w : Canon s) : CanonNext (execSread h d n s) :=
  runGuarded_canon (fun _ w1 => Canon.of_mem (writeX_mem ..) w1) w

theorem execSset_wf (h : Hd) (n : BitVec 6) (a : BitVec 5) (s : State) (w : Canon s) : CanonNext (execSset h n a s) :=
  runGuarded_canon (fun _ w1 => w1) w

/-! ### Architectural queues (R139 to R142) -/

theorem queuePut_wf (s : State) (q : Nat) (v : Word) (w : Canon s) : (queuePut s q v).KeepsMemory := by
  unfold queuePut
  extract_lets -underBinder
  split
  · exact trivial
  · exact w

theorem queueGet_wf (s : State) (q : Nat) (k : State → Word → Eff) (w : Canon s)
    (hk : ∀ (t : State) (b : Word), Canon t → (k t b).KeepsMemory) : (queueGet s q k).KeepsMemory := by
  unfold queueGet
  split
  · exact trivial
  · exact hk _ _ w

theorem execQput_wf (h : Hd) (q : BitVec 3) (a : BitVec 5) (s : State) (w : Canon s) : CanonNext (execQput h q a s) :=
  runGuarded_canon (fun _ w1 => queuePut_wf _ _ _ w1) w

theorem execCompactQput_wf (q : BitVec 3) (b : BitVec 5) (s : State) (w : Canon s) : CanonNext (execCompactQput q b s) :=
  runGuarded_canon (fun _ w1 => queuePut_wf _ _ _ w1) w

theorem execQget_wf (h : Hd) (d : BitVec 5) (q : BitVec 3) (s : State) (w : Canon s) : CanonNext (execQget h d q s) :=
  runGuarded_canon (fun _ w1 => queueGet_wf _ _ _ w1 (fun _ _ w2 => Canon.of_mem (writeX_mem ..) w2)) w

theorem execCompactQget_wf (a : BitVec 5) (q : BitVec 3) (s : State) (w : Canon s) : CanonNext (execCompactQget a q s) :=
  runGuarded_canon (fun _ w1 => queueGet_wf _ _ _ w1 (fun _ _ w2 => Canon.of_mem (writeX_mem ..) w2)) w

theorem execQcount_wf (h : Hd) (d : BitVec 5) (q : BitVec 3) (s : State) (w : Canon s) : CanonNext (execQcount h d q s) :=
  runGuarded_canon (fun _ w1 => Canon.of_mem (writeX_mem ..) w1) w

theorem execQflush_wf (h : Hd) (q : BitVec 3) (s : State) (w : Canon s) : CanonNext (execQflush h q s) := runGuarded_canon (fun _ w1 => w1) w

theorem execBrq_wf (h : Hd) (q : BitVec 3) (o : BitVec 16) (s : State) (w : Canon s) : CanonNext (execBrq h q o s) := by
  unfold execBrq
  refine runGuarded_canon (fun _ w1 => queueGet_wf _ _ _ w1 (fun _ _ w2 => ?_)) w
  split
  · exact w2
  · exact transfer_wf _ _ w2

/-! ### System operations (R148 to R152) -/

theorem execNop_wf (h : Hd) (s : State) (w : Canon s) : CanonNext (execNop h s) := runGuarded_canon (fun _ w1 => w1) w
theorem execCompactNop_wf (s : State) (w : Canon s) : CanonNext (execCompactNop s) := runGuarded_canon (fun _ w1 => w1) w

theorem endStream_wf (s : State) (w : Canon s) : (endStream s).KeepsMemory := by
  unfold endStream
  extract_lets -underBinder s1
  have w_s1 : Canon s1 := Canon.of_mem (State.modMyStream_mem ..) (drainPending_wf _ w)
  exact w_s1

theorem execSysEnd_wf (h : Hd) (s : State) (w : Canon s) : CanonNext (execSysEnd h s) := runGuarded_canon (fun _ w1 => endStream_wf _ w1) w
theorem execCompactEnd_wf (s : State) (w : Canon s) : CanonNext (execCompactEnd s) := runGuarded_canon (fun _ w1 => endStream_wf _ w1) w
theorem execTrap_wf (h : Hd) (c : BitVec 14) (s : State) (w : Canon s) : CanonNext (execTrap h c s) := runGuarded_canon (fun _ _ => trivial) w
theorem execBkpt_wf (h : Hd) (s : State) (w : Canon s) : CanonNext (execBkpt h s) := runGuarded_canon (fun _ _ => trivial) w

theorem execRdv_wf (h : Hd) (m : BitVec 3) (s : State) (w : Canon s) : CanonNext (execRdv h m s) := by
  unfold execRdv
  refine runGuarded_canon (fun _ w1 => ?_) w
  extract_lets -underBinder
  split
  · exact w1
  · exact trivial

theorem keepArrivals_wf (s : State) (slot : Nat) (w : Canon s) : Canon (keepArrivals s slot) := by
  unfold keepArrivals
  extract_lets -underBinder
  split
  · exact w
  · split <;> exact w

theorem dropArrivals_wf (s : State) (slot : Nat) (w : Canon s) : Canon (dropArrivals s slot) := by
  unfold dropArrivals
  extract_lets -underBinder
  split
  · exact w
  · extract_lets -underBinder
    exact w

theorem execLbar_wf (h : Hd) (k : BitVec 3) (s : State) (w : Canon s) : CanonNext (execLbar h k s) := by
  unfold execLbar
  refine runGuarded_canon (fun _ w1 => ?_) w
  extract_lets -underBinder
  split
  · exact trivial
  · split
    · exact trivial
    · extract_lets -underBinder
      split
      · exact w1
      · exact trivial

theorem execMwait_wf (h : Hd) (a : BitVec 5) (s : State) (w : Canon s) : CanonNext (execMwait h a s) := by
  unfold execMwait
  refine runGuarded_canon (fun _ w1 => ?_) w
  extract_lets -underBinder
  split
  · exact trivial
  · extract_lets -underBinder
    split
    · exact trivial
    · exact w1

theorem execMwaitTimeout_wf (slot : Nat) (st : StreamId) (s : State) (w : Canon s) : CanonNext (execMwaitTimeout slot st s) := by
  unfold execMwaitTimeout
  extract_lets -underBinder
  split
  · split <;> exact .next w
  · exact .next w

/-! ### Contexts of a controller (R511, R523) -/

theorem startCtl_wf (s : State) (cn : Nat) (im : Option Image) (w : Canon s) : Canon (startCtl s cn im) := by
  unfold startCtl
  split
  · exact w
  · extract_lets -underBinder s1
    have w_s1 : Canon s1 := writeBytes_wf _ _ _ w
    exact w_s1

/-! ### The update in progress (R522 to R526) -/

theorem forCtls_wf (f : State → Nat → State) (s : State) (ns : List Nat) (hf : ∀ (t : State) (n : Nat), Canon t → Canon (f t n))
    (w : Canon s) : Canon (forCtls f s ns) :=
  foldl_wf _ _ (fun _ _ w1 => hf _ _ w1) w

theorem sigReady_wf (s : State) (n : Nat) (w : Canon s) : Canon (sigReady s n) := by
  unfold sigReady
  split
  · extract_lets -underBinder s1
    have w_s1 : Canon s1 := w
    split
    · exact forCtls_wf _ _ _ (fun _ _ w1 => w1) w_s1
    · exact w_s1
  · exact w

theorem sigHanded_wf (s : State) (n : Nat) (w : Canon s) : Canon (sigHanded s n) := by
  unfold sigHanded
  extract_lets c s1 at_ from_ len
  clear_value len
  split
  · exact writeBytes_wf _ _ _ w
  · exact w

theorem markRecord_wf (s : State) (key h : Nat) (w : Canon s) : Canon (markRecord s key h) := by
  unfold markRecord
  extract_lets -underBinder
  split
  · exact w
  · exact writeBytes_wf _ _ _ (memWrite_wf _ _ _ w)

theorem notePending_wf (s : State) (h : Nat) (w : Canon s) : Canon (notePending s h) := by
  unfold notePending
  extract_lets -underBinder mark
  have w_mark : ∀ (s : State) (n : Nat), Canon s → Canon (mark s n) := by
    unfold mark
    intro _ _ w1
    extract_lets -underBinder
    split
    · exact markRecord_wf _ _ _ (markRecord_wf _ _ _ w1)
    · exact w1
  exact forCtls_wf _ _ _ (fun _ _ w1 => w_mark _ _ w1) w

theorem endUpdate_wf (s : State) (result phase : Nat) (w : Canon s) : Canon (endUpdate s result phase) := by
  unfold endUpdate
  extract_lets -underBinder s1
  have w_s1 : Canon s1 := Canon.of_mem (wakePending_mem ..) (forCtls_wf _ _ _ (fun _ _ w1 => w1) w)
  exact w_s1

theorem finishUpdate_wf (s : State) (w : Canon s) : Canon (finishUpdate s) := by
  unfold finishUpdate
  extract_lets -underBinder swap s1
  have w_swap : ∀ (s : State) (n : Nat), Canon s → Canon (swap s n) := by
    unfold swap
    intro _ _ w1
    extract_lets -underBinder _ s11
    have w_s11 : Canon s11 := w1
    exact w_s11
  have w_s1 : Canon s1 := forCtls_wf _ _ _ (fun _ _ w1 => w_swap _ _ w1) w
  exact endUpdate_wf _ _ _ w_s1

theorem sigHealthy_wf (s : State) (n : Nat) (w : Canon s) : Canon (sigHealthy s n) := by
  unfold sigHealthy
  extract_lets -underBinder _ s1
  have w_s1 : Canon s1 := w
  split
  · split
    · exact finishUpdate_wf _ w_s1
    · exact w_s1
  · exact w

theorem restartCtl_wf (s : State) (cn : Nat) (im : Option Image) (w : Canon s) : Canon (restartCtl s cn im) := by
  unfold restartCtl
  split <;> exact w

theorem failUpdate_wf (s : State) (result : Nat) (w : Canon s) : Canon (failUpdate s result) := by
  unfold failUpdate
  extract_lets -underBinder undo
  have w_undo : ∀ (s : State) (n : Nat), Canon s → Canon (undo s n) := by
    unfold undo
    intro _ _ w1
    extract_lets -underBinder _ s11
    have w_s11 : Canon s11 := w1
    split
    · exact restartCtl_wf _ _ _ w_s11
    · exact w_s11
  exact endUpdate_wf _ _ _ (forCtls_wf _ _ _ (fun _ _ w1 => w_undo _ _ w1) w)

/-! ### The per-core firmware contexts (R458, R530) -/

theorem startFw_wf (s : State) (core : Nat) (im : Option Image) (w : Canon s) : Canon (startFw s core im) := by
  unfold startFw
  split <;> exact w

theorem fwHealthWrite_wf (s : State) (core : Nat) (d : Word) (w : Canon s) : Canon (fwHealthWrite s core d) := by
  unfold fwHealthWrite
  split
  · extract_lets -underBinder s1 _ s2
    have w_s1 : Canon s1 := w
    have w_s2 : Canon s2 := w_s1
    split
    · exact endUpdate_wf _ _ _ w_s2
    · exact w_s1
  · exact w

/-! ### UPDSIG (R524) -/

theorem writeSig_wf (s : State) (cn : Nat) (d : Word) (w : Canon s) : Canon (writeSig s cn d) := by
  unfold writeSig
  extract_lets -underBinder _ s1 s11
  have w_s1 : Canon s1 := by
    unfold s1
    split
    · exact sigReady_wf _ _ w
    · exact w
  have w_s11 : Canon s11 := w
  split
  · split
    · exact sigHealthy_wf _ _ w_s1
    · exact w_s1
  · split
    · exact sigHanded_wf _ _ w_s11
    · exact w_s11

/-! ### Channel registers (R514 to R518) -/

theorem hostWrite_wf (s : State) (a : Nat) (bs : List Byte) (w : Canon s) : Canon (hostWrite s a bs) := by
  unfold hostWrite
  split
  · exact writePiece_wf _ _ _ _ w
  · exact w

theorem chanWrite_wf (s : State) (c off : Nat) (d : Word) (w : Canon s) : Canon (chanWrite s c off d) := by
  rw [chanWrite]
  exact canon_ite w <| canon_ite w <| canon_ite w <| canon_ite w <| canon_ite w <| canon_ite w <| canon_ite w <| canon_ite w w

/-! ### Local maps (R513) -/

theorem writeLocal_wf (s : State) (cn : Nat) (r : LocalReg) (d : Word) (w : Canon s) : Canon (writeLocal s cn r d) := by
  unfold writeLocal
  split
  · exact writeSig_wf _ _ _ w
  · exact chanWrite_wf _ _ _ _ w

/-! ### The scalar accesses of a stream -/

theorem ctlWrite_wf (s : State) (cn : Nat) (addr : Word) (bs : List Byte) (w : Canon s) : CanonOk (ctlWrite s cn addr bs) := by
  unfold ctlWrite
  split
  · exact .error _
  · split
    · exact .error _
    · refine .ok (Canon.of_mem (breakLines_mem ..) ?_)
      split
      · exact writeLocal_wf _ _ _ _ w
      · exact writeBytes_wf _ _ _ w

theorem piecesEff_wf (s : State) (addr : Word) (k : List Piece → List Byte → Eff) (a : Except Trap (List Piece))
    (hk : ∀ (l : List Piece) (l1 : List Byte), (k l l1).KeepsMemory) : (piecesEff s addr k a).KeepsMemory := by
  unfold piecesEff
  split
  · exact trivial
  · split
    · exact trivial
    · split
      · exact trivial
      · exact hk _ _

theorem readEff_wf (s : State) (r : Req) (addr : Word) (n : Nat) (acc : Acc) (k : List Piece → List Byte → Eff)
    (hk : ∀ (l : List Piece) (l1 : List Byte), (k l l1).KeepsMemory) : (readEff s r addr n acc k).KeepsMemory := by
  unfold readEff
  split
  · split
    · exact hk _ _
    · exact trivial
    · exact trivial
  · exact piecesEff_wf _ _ _ _ (fun _ _ => hk _ _)

theorem armMonitor_wf (s : State) (ps : List Piece) (w : Canon s) : Canon (armMonitor s ps) := by
  unfold armMonitor
  split <;> exact w

theorem loadEff_wf (s : State) (d : BitVec 5) (addr : Word) (n : Nat) (w : Canon s) : (loadEff s d addr n).KeepsMemory := by
  unfold loadEff
  extract_lets -underBinder
  exact readEff_wf _ _ _ _ _ _ (fun _ _ => Canon.of_mem (writeX_mem ..) (armMonitor_wf _ _ (readUses_wf _ _ _ _ _ w)))

theorem storeEff_wf (s : State) (addr : Word) (bs : List Byte) (w : Canon s) : (storeEff s addr bs).KeepsMemory := by
  unfold storeEff
  extract_lets -underBinder
  split
  · split
    · next x2 h1 =>
        have w_x2 : Canon x2 := canon_ok h1 (ctlWrite_wf _ _ _ _ w)
        exact w_x2
    · exact trivial
  · split
    · exact trivial
    · exact writePieces_wf _ _ _ _ (Canon.of_mem (walked_mem ..) w)

theorem execLdb_wf (h : Hd) (d a : BitVec 5) (c : BitVec 4) (o : BitVec 5) (s : State) (w : Canon s) : CanonNext (execLdb h d a c o s) :=
  runGuarded_canon (fun _ w1 => loadEff_wf _ _ _ _ w1) w

theorem execLdh_wf (h : Hd) (d a : BitVec 5) (c : BitVec 4) (o : BitVec 5) (s : State) (w : Canon s) : CanonNext (execLdh h d a c o s) :=
  runGuarded_canon (fun _ w1 => loadEff_wf _ _ _ _ w1) w

theorem execLdw_wf (h : Hd) (d a : BitVec 5) (c : BitVec 4) (o : BitVec 5) (s : State) (w : Canon s) : CanonNext (execLdw h d a c o s) :=
  runGuarded_canon (fun _ w1 => loadEff_wf _ _ _ _ w1) w

theorem execLdd_wf (h : Hd) (d a : BitVec 5) (c : BitVec 4) (o : BitVec 5) (s : State) (w : Canon s) : CanonNext (execLdd h d a c o s) :=
  runGuarded_canon (fun _ w1 => loadEff_wf _ _ _ _ w1) w

theorem execCompactLdd_wf (a b : BitVec 5) (s : State) (w : Canon s) : CanonNext (execCompactLdd a b s) :=
  runGuarded_canon (fun _ w1 => loadEff_wf _ _ _ _ w1) w

theorem execStb_wf (h : Hd) (d a : BitVec 5) (c : BitVec 4) (o : BitVec 5) (s : State) (w : Canon s) : CanonNext (execStb h d a c o s) :=
  runGuarded_canon (fun _ w1 => storeEff_wf _ _ _ w1) w

theorem execSth_wf (h : Hd) (d a : BitVec 5) (c : BitVec 4) (o : BitVec 5) (s : State) (w : Canon s) : CanonNext (execSth h d a c o s) :=
  runGuarded_canon (fun _ w1 => storeEff_wf _ _ _ w1) w

theorem execStw_wf (h : Hd) (d a : BitVec 5) (c : BitVec 4) (o : BitVec 5) (s : State) (w : Canon s) : CanonNext (execStw h d a c o s) :=
  runGuarded_canon (fun _ w1 => storeEff_wf _ _ _ w1) w

theorem execStd_wf (h : Hd) (d a : BitVec 5) (c : BitVec 4) (o : BitVec 5) (s : State) (w : Canon s) : CanonNext (execStd h d a c o s) :=
  runGuarded_canon (fun _ w1 => storeEff_wf _ _ _ w1) w

theorem execCompactStd_wf (a b : BitVec 5) (s : State) (w : Canon s) : CanonNext (execCompactStd a b s) :=
  runGuarded_canon (fun _ w1 => storeEff_wf _ _ _ w1) w

theorem execLdlit_wf (h : Hd) (d : BitVec 5) (i : BitVec 14) (s : State) (w : Canon s) : CanonNext (execLdlit h d i s) := by
  unfold execLdlit
  refine runGuarded_canon (fun _ w1 => ?_) w
  extract_lets -underBinder
  split
  · exact trivial
  · exact readEff_wf _ _ _ _ _ _ (fun _ _ => Canon.of_mem (writeX_mem ..) (readUses_wf _ _ _ _ _ w1))

/-! ### Atomics (R130 to R134) -/

theorem atomicEff_wf (s : State) (addr : Word) (n : Nat) (spaces : List Nat) (f : Nat → Option Nat × (State → State))
    (hf : ∀ (m : Nat) (t : State), Canon t → Canon ((f m).2 t)) (w : Canon s) : (atomicEff s addr n spaces f).KeepsMemory := by
  unfold atomicEff
  extract_lets r
  split
  · trivial
  · split
    · trivial
    · refine readEff_wf _ _ _ _ _ _ fun ps bs => ?_
      have k := hf (bytesNat bs)
      split
      next v post e =>
        rw [e] at k
        split
        · exact k _ (readUses_wf _ _ _ _ _ w)
        · split
          · split
            · next s1 h => exact k _ (ctlWrite_wf _ _ _ _ w s1 h)
            · trivial
          · exact k _ (writePieces_wf _ _ _ _ (Canon.of_mem (walked_mem ..) w))

theorem amo64_wf (s : State) (d a b : BitVec 5) (f : Nat) (spaces : List Nat) (post : State → State) (w : Canon s)
    (hpost : ∀ (t : State), Canon t → Canon (post t)) : (amo64 s d a b f spaces post).KeepsMemory :=
  atomicEff_wf _ _ _ _ _ (fun _ _ w1 => hpost _ (Canon.of_mem (writeX_mem ..) w1)) w

theorem amo32_wf (s : State) (d a b : BitVec 5) (f : Nat) (w : Canon s) : (amo32 s d a b f).KeepsMemory :=
  atomicEff_wf _ _ _ _ _ (fun _ _ w1 => Canon.of_mem (writeX_mem ..) w1) w

theorem casEff_wf (s : State) (d a b : BitVec 5) (n : Nat) (spaces : List Nat) (post : State → State) (w : Canon s)
    (hpost : ∀ (t : State), Canon t → Canon (post t)) : (casEff s d a b n spaces post).KeepsMemory :=
  atomicEff_wf _ _ _ _ _ (fun _ _ w1 => hpost _ (Canon.of_mem (writeX_mem ..) w1)) w

theorem execAmo_wf (h : Hd) (d a b : BitVec 5) (f : BitVec 4) (s : State) (w : Canon s) : CanonNext (execAmo h d a b f s) :=
  runGuarded_canon (fun _ w1 => amo64_wf _ _ _ _ _ _ _ w1 (fun _ w2 => w2)) w

theorem execAmow_wf (h : Hd) (d a b : BitVec 5) (f : BitVec 4) (s : State) (w : Canon s) : CanonNext (execAmow h d a b f s) :=
  runGuarded_canon (fun _ w1 => amo32_wf _ _ _ _ _ w1) w

theorem execAmon_wf (h : Hd) (a b : BitVec 5) (f : BitVec 4) (s : State) (w : Canon s) : CanonNext (execAmon h a b f s) := by
  unfold execAmon
  refine runGuarded_canon (fun _ w1 => ?_) w
  split
  · exact atomicEff_wf _ _ _ _ _ (fun _ _ w2 => w2) w1
  · split <;> exact atomicEff_wf _ _ _ _ _ (fun _ _ w2 => w2) w1

theorem execCas_wf (h : Hd) (d a b : BitVec 5) (s : State) (w : Canon s) : CanonNext (execCas h d a b s) :=
  runGuarded_canon (fun _ w1 => casEff_wf _ _ _ _ _ _ _ w1 (fun _ w2 => w2)) w

theorem execCasw_wf (h : Hd) (d a b : BitVec 5) (s : State) (w : Canon s) : CanonNext (execCasw h d a b s) :=
  runGuarded_canon (fun _ w1 => casEff_wf _ _ _ _ _ _ _ w1 (fun _ w2 => w2)) w

theorem execAsc_wf (h : Hd) (d a b : BitVec 5) (f : BitVec 4) (s : State) (w : Canon s) : CanonNext (execAsc h d a b f s) :=
  runGuarded_canon (fun _ w1 => amo64_wf _ _ _ _ _ _ _ w1 (fun _ w2 => w2)) w

theorem execAscCas_wf (h : Hd) (d a b : BitVec 5) (s : State) (w : Canon s) : CanonNext (execAscCas h d a b s) :=
  runGuarded_canon (fun _ w1 => casEff_wf _ _ _ _ _ _ _ w1 (fun _ w2 => w2)) w

/-! ### Rings (R174, R175) -/

theorem writeRing_wf (s : State) (slotNo n f : Nat) (v : Word) (w : Canon s) : Canon (writeRing s slotNo n f v) := by
  unfold writeRing
  extract_lets -underBinder _ r put
  have w_put : ∀ (r : Ring), Canon (put r) := fun _ => w
  split
  · split
    · exact w
    · exact w_put _
  · split
    · exact w
    · exact w_put _
  · extract_lets -underBinder
    split
    · split
      · exact w
      · split <;> exact w_put _
    · split
      · split
        · exact w
        · exact w_put _
      · exact w_put _
  · exact w

/-! ### Writing a job's CSR -/

theorem csrSet_wf (s : State) (slotNo : Nat) (k : StreamId) (n : Nat) (v : Word) (w : Canon s) : Canon (csrSet s slotNo k n v) := by
  unfold csrSet
  split
  · exact w
  · exact w
  · exact w
  · exact w
  · exact w
  · exact w
  · exact w
  · split
    · exact w
    · split
      · exact writeRing_wf _ _ _ _ _ w
      · exact w

/-! ### Firmware registers (R459 to R466) -/

theorem fwSelWrite_wf (s : State) (core : Nat) (d : Word) (w : Canon s) : Canon (fwSelWrite s core d) := by
  unfold fwSelWrite
  split <;> exact w

theorem fwJcsrWrite_wf (s : State) (core : Nat) (d : Word) (w : Canon s) : Canon (fwJcsrWrite s core d) := by
  unfold fwJcsrWrite
  extract_lets -underBinder
  split
  · exact csrSet_wf _ _ _ _ _ w
  · exact w

theorem fwCmdWrite_wf (s : State) (core : Nat) (d : Word) (w : Canon s) : Canon (fwCmdWrite s core d) := by
  unfold fwCmdWrite
  extract_lets -underBinder _ _ _ begin_ kill
  have w_begin_ : ∀ (s : State), Canon s → Canon (begin_ s) := fun _ w1 => w1
  have w_kill : ∀ (s : State), Canon s → Canon (kill s) := by
    unfold kill
    intro _ w1
    split
    · exact w1
    · exact w_begin_ _ w1
  split
  · exact w
  · split
    · exact w_begin_ _ w
    · exact w_begin_ _ w
    · split
      · exact w
      · exact w_begin_ _ w
    · split
      · exact w_kill _ w
      · exact w_begin_ _ w
    · exact w_kill _ w
    · split
      · exact w_kill _ w
      · exact w_begin_ _ w
    · split
      · exact w_kill _ w
      · exact w_begin_ _ w
    · exact w_begin_ _ w
    · exact w

theorem fwCsrWrite_wf (s : State) (core n : Nat) (v : Word) (w : Canon s) : Canon (fwCsrWrite s core n v) := by
  unfold fwCsrWrite
  split
  · exact fwSelWrite_wf _ _ _ w
  · exact fwJcsrWrite_wf _ _ _ w
  · exact fwCmdWrite_wf _ _ _ w
  · split <;> exact w
  · exact w
  · exact w
  · exact w
  · exact w
  · exact w
  · exact fwHealthWrite_wf _ _ _ w
  · exact w

/-! ### CSRR and CSRW (R143) -/

theorem csrWriteMine_wf (s : State) (n : Nat) (v : Word) (w : Canon s) : (csrWriteMine s n v).KeepsMemory := by
  unfold csrWriteMine
  extract_lets -underBinder
  split
  · exact fwCsrWrite_wf _ _ _ _ w
  · split
    · exact w
    · split
      · exact trivial
      · exact csrSet_wf _ _ _ _ _ w

theorem execCsrr_wf (h : Hd) (d : BitVec 5) (c : BitVec 12) (s : State) (w : Canon s) : CanonNext (execCsrr h d c s) :=
  runGuarded_canon (fun _ w1 => Canon.of_mem (writeX_mem ..) w1) w

theorem execCsrw_wf (h : Hd) (a : BitVec 5) (c : BitVec 12) (s : State) (w : Canon s) : CanonNext (execCsrw h a c s) :=
  runGuarded_canon (fun _ w1 => csrWriteMine_wf _ _ _ w1) w

theorem execCsrwSet_wf (h : Hd) (a : BitVec 5) (c : BitVec 12) (s : State) (w : Canon s) : CanonNext (execCsrwSet h a c s) :=
  runGuarded_canon (fun _ w1 => csrWriteMine_wf _ _ _ w1) w

theorem execCsrwClr_wf (h : Hd) (a : BitVec 5) (c : BitVec 12) (s : State) (w : Canon s) : CanonNext (execCsrwClr h a c s) :=
  runGuarded_canon (fun _ w1 => csrWriteMine_wf _ _ _ w1) w

/-! ### Command issue (R160 to R163) -/

theorem queueCmd_wf (s : State) (c : Cmd) (w : Canon s) : (queueCmd s c).KeepsMemory := by
  unfold queueCmd
  extract_lets -underBinder
  split
  · exact trivial
  · exact w

theorem issueCmd_wf (s : State) (i : Instr) (op fn : Nat) (d a b : BitVec 5) (w : Canon s) : CanonNext (issueCmd s i op fn d a b) := by
  unfold issueCmd
  refine runGuarded_canon (fun _ w1 => ?_) w
  extract_lets -underBinder
  split
  · exact trivial
  · exact queueCmd_wf _ _ w1

theorem execCpyLin_wf (h : Hd) (d a b : BitVec 5) (s : State) (w : Canon s) : CanonNext (execCpyLin h d a b s) := issueCmd_wf _ _ _ _ _ _ _ w
theorem execCpyShp_wf (h : Hd) (d a b : BitVec 5) (s : State) (w : Canon s) : CanonNext (execCpyShp h d a b s) := issueCmd_wf _ _ _ _ _ _ _ w
theorem execCpySlot_wf (h : Hd) (d a b : BitVec 5) (s : State) (w : Canon s) : CanonNext (execCpySlot h d a b s) := issueCmd_wf _ _ _ _ _ _ _ w
theorem execCpyFill_wf (h : Hd) (d a b : BitVec 5) (s : State) (w : Canon s) : CanonNext (execCpyFill h d a b s) := issueCmd_wf _ _ _ _ _ _ _ w
theorem execCpyCirc_wf (h : Hd) (d a b : BitVec 5) (s : State) (w : Canon s) : CanonNext (execCpyCirc h d a b s) := issueCmd_wf _ _ _ _ _ _ _ w
theorem execGath_wf (h : Hd) (d a b : BitVec 5) (s : State) (w : Canon s) : CanonNext (execGath h d a b s) := issueCmd_wf _ _ _ _ _ _ _ w
theorem execScat_wf (h : Hd) (d a b : BitVec 5) (s : State) (w : Canon s) : CanonNext (execScat h d a b s) := issueCmd_wf _ _ _ _ _ _ _ w
theorem execFput_wf (h : Hd) (d a b : BitVec 5) (s : State) (w : Canon s) : CanonNext (execFput h d a b s) := issueCmd_wf _ _ _ _ _ _ _ w
theorem execFget_wf (h : Hd) (d a b : BitVec 5) (s : State) (w : Canon s) : CanonNext (execFget h d a b s) := issueCmd_wf _ _ _ _ _ _ _ w

theorem execFred_wf (h : Hd) (d a b : BitVec 5) (f : BitVec 4) (s : State) (w : Canon s) : CanonNext (execFred h d a b f s) :=
  issueCmd_wf _ _ _ _ _ _ _ w

theorem execFsig_wf (h : Hd) (d a b : BitVec 5) (s : State) (w : Canon s) : CanonNext (execFsig h d a b s) := issueCmd_wf _ _ _ _ _ _ _ w
theorem execFcoll_wf (h : Hd) (d a b : BitVec 5) (s : State) (w : Canon s) : CanonNext (execFcoll h d a b s) := issueCmd_wf _ _ _ _ _ _ _ w
theorem execSegdet_wf (h : Hd) (d a : BitVec 5) (s : State) (w : Canon s) : CanonNext (execSegdet h d a s) := issueCmd_wf _ _ _ _ _ _ _ w
theorem execSegevict_wf (h : Hd) (d a : BitVec 5) (s : State) (w : Canon s) : CanonNext (execSegevict h d a s) := issueCmd_wf _ _ _ _ _ _ _ w
theorem execSegdrop_wf (h : Hd) (d a : BitVec 5) (s : State) (w : Canon s) : CanonNext (execSegdrop h d a s) := issueCmd_wf _ _ _ _ _ _ _ w
theorem execCflush_wf (h : Hd) (d a b : BitVec 5) (s : State) (w : Canon s) : CanonNext (execCflush h d a b s) := issueCmd_wf _ _ _ _ _ _ _ w
theorem execCclean_wf (h : Hd) (d a b : BitVec 5) (s : State) (w : Canon s) : CanonNext (execCclean h d a b s) := issueCmd_wf _ _ _ _ _ _ _ w
theorem execCinv_wf (h : Hd) (d a b : BitVec 5) (s : State) (w : Canon s) : CanonNext (execCinv h d a b s) := issueCmd_wf _ _ _ _ _ _ _ w
theorem execCpref_wf (h : Hd) (d a b : BitVec 5) (s : State) (w : Canon s) : CanonNext (execCpref h d a b s) := issueCmd_wf _ _ _ _ _ _ _ w

/-! ### Rings (R176, R177) -/

theorem releaseSlot_wf (s : State) (slotNo n : Nat) (cons : Bool) (slot : Nat) (w : Canon s) : Canon (releaseSlot s slotNo n cons slot) := by
  unfold releaseSlot
  extract_lets -underBinder
  split
  · extract_lets -underBinder _ s1
    have w_s1 : Canon s1 := w
    split <;> exact w_s1

theorem acquireC_wf (s : State) (d : BitVec 5) (n : Nat) (r : Ring) (slot : Nat) (w : Canon s) : Canon (acquireC s d n r slot) := by
  unfold acquireC
  extract_lets -underBinder
  exact Canon.of_mem (writeX_mem ..) w

theorem racqEff_wf (s : State) (d : BitVec 5) (n : Nat) (cons : Bool) (w : Canon s) : (racqEff s d n cons).KeepsMemory := by
  unfold racqEff
  extract_lets -underBinder
  split
  · exact trivial
  · split
    · split
      · exact Canon.of_mem (writeX_mem ..) w
      · exact trivial
    · split
      · exact trivial
      · split
        · exact acquireC_wf _ _ _ _ _ w
        · exact Canon.of_mem (writeX_mem ..) w

theorem execRacq_wf (h : Hd) (d n : BitVec 5) (r : BitVec 1) (s : State) (w : Canon s) : CanonNext (execRacq h d n r s) :=
  runGuarded_canon (fun _ w1 => racqEff_wf _ _ _ _ w1) w

theorem rrelEff_wf (s : State) (n : Nat) (cons : Bool) (w : Canon s) : (rrelEff s n cons).KeepsMemory := by
  unfold rrelEff
  split
  · exact trivial
  · split
    · exact trivial
    · extract_lets -underBinder s1
      have w_s1 : Canon s1 := releaseSlot_wf _ _ _ _ _ w
      split <;> exact w_s1

theorem execRrel_wf (h : Hd) (n : BitVec 5) (r : BitVec 1) (s : State) (w : Canon s) : CanonNext (execRrel h n r s) :=
  runGuarded_canon (fun _ w1 => rrelEff_wf _ _ _ w1) w

theorem rcanEff_wf (s : State) (n : Nat) (cons : Bool) (w : Canon s) : (rcanEff s n cons).KeepsMemory := by
  unfold rcanEff
  split
  · exact trivial
  · split
    · exact trivial
    · extract_lets -underBinder s1
      have w_s1 : Canon s1 := w
      split <;> exact w_s1

theorem execRcan_wf (h : Hd) (n : BitVec 5) (r : BitVec 1) (s : State) (w : Canon s) : CanonNext (execRcan h n r s) :=
  runGuarded_canon (fun _ w1 => rcanEff_wf _ _ _ w1) w

theorem execRstat_wf (h : Hd) (d n : BitVec 5) (s : State) (w : Canon s) : CanonNext (execRstat h d n s) := by
  unfold execRstat
  refine runGuarded_canon (fun _ w1 => ?_) w
  split
  · exact Canon.of_mem (writeX_mem ..) w1
  · exact trivial

/-! ### Full and empty lines (R179) -/

theorem emptyPieces_wf (s : State) (ps : List Piece) (w : Canon s) : Canon (emptyPieces s ps) := by
  induction ps generalizing s with
  | nil => exact w
  | cons p ps ih => exact ih _ w

theorem execFempty_wf (h : Hd) (a b : BitVec 5) (s : State) (w : Canon s) : CanonNext (execFempty h a b s) := by
  unfold execFempty
  refine runGuarded_canon (fun _ w1 => ?_) w
  extract_lets -underBinder
  split
  · exact w1
  · split
    · exact trivial
    · split
      · exact trivial
      · split
        · exact trivial
        · split
          · exact trivial
          · exact emptyPieces_wf _ _ w1

theorem execFtest_wf (h : Hd) (d a : BitVec 5) (s : State) (w : Canon s) : CanonNext (execFtest h d a s) := by
  unfold execFtest
  refine runGuarded_canon (fun _ w1 => ?_) w
  extract_lets -underBinder
  split
  · exact trivial
  · split
    · exact trivial
    · exact Canon.of_mem (writeX_mem ..) w1

/-! ### FLL and FSC (R183) -/

theorem remoteEff_wf (s : State) (op : Nat) (kind : XKind) (a : Word) (data : List Byte) (k : State → Word → Eff) (w : Canon s)
    (hk : ∀ (t : State) (b : Word), Canon t → (k t b).KeepsMemory) : (remoteEff s op kind a data k).KeepsMemory := by
  unfold remoteEff
  extract_lets -underBinder
  split
  · exact trivial
  · split
    · exact trivial
    · split
      · exact trivial
      · split
        · exact hk _ _ w
        · exact trivial
        · exact w
        · exact w

theorem execFll_wf (h : Hd) (d a : BitVec 5) (s : State) (w : Canon s) : CanonNext (execFll h d a s) :=
  runGuarded_canon (fun _ w1 => remoteEff_wf _ _ _ _ _ _ w1 (fun _ _ w2 => Canon.of_mem (writeX_mem ..) w2)) w

theorem execFsc_wf (h : Hd) (d a b : BitVec 5) (s : State) (w : Canon s) : CanonNext (execFsc h d a b s) :=
  runGuarded_canon (fun _ w1 => remoteEff_wf _ _ _ _ _ _ w1 (fun _ _ w2 => Canon.of_mem (writeX_mem ..) w2)) w

/-! ### Asynchronous faults (R201, R473) -/

theorem asyncFault_wf (s : State) (n launch : Nat) (r : TrapRec) (w : Canon s) : Canon (asyncFault s n launch r) := by
  unfold asyncFault
  extract_lets -underBinder
  split
  · exact reportFault_wf _ _ _ w
  · exact Canon.of_mem (jobTrap_mem ..) w

/-! ### Commands by number -/

theorem failCmd_wf (s : State) (n : Nat) (fq : Bool) (id : Nat) (t : Trap) (w : Canon s) : Canon (failCmd s n fq id t) := by
  unfold failCmd
  split
  · exact w
  · extract_lets -underBinder s1
    have w_s1 : Canon s1 := w
    exact asyncFault_wf _ _ _ _ w_s1

/-! ### Completion (R166, R178) -/

theorem engineAdd_wf (s : State) (n : Nat) (fq : Bool) (id v : Nat) (w : Canon s) : Canon (engineAdd s n fq id v) := by
  unfold engineAdd
  split
  · exact w
  · split
    · exact w
    · split
      · exact w
      · exact failCmd_wf _ _ _ _ _ w

theorem releaseCmd_wf (s : State) (n : Nat) (c : Cmd) (w : Canon s) : Canon (releaseCmd s n c) := by
  unfold releaseCmd
  split
  · split
    · exact releaseSlot_wf _ _ _ _ _ w
    · exact w
  · exact w

theorem finishCmd_wf (s : State) (n : Nat) (fq : Bool) (id : Nat) (w : Canon s) : Canon (finishCmd s n fq id) := by
  unfold finishCmd
  split
  · exact w
  · split
    · exact w
    · split
      · split
        · exact failCmd_wf _ _ _ _ _ w
        · exact releaseCmd_wf _ _ _ w
      · exact releaseCmd_wf _ _ _ w

/-! ### Storage (R373, R374) -/

theorem clearRun_wf (s : State) (level home start len : Nat) (w : Canon s) : Canon (clearRun s level home start len) := by
  unfold clearRun
  extract_lets -underBinder
  exact filter_wf _ _ w

theorem freeStorage_wf (s : State) (t : Tarn) (w : Canon s) : Canon (freeStorage s t) := by
  unfold freeStorage
  extract_lets -underBinder s1
  have w_s1 : Canon s1 := clearRun_wf _ _ _ _ _ w
  split
  · exact clearRun_wf _ _ _ _ _ w_s1
  · exact w_s1

/-! ### Writing back and filling (R377 to R379) -/

/-- A unit is written, the poison of its bytes goes with them, and the next units follow (R378). -/
theorem writeBackUnits_cons (s : State) (t : Tarn) (u : Nat) (us : List Nat) : writeBackUnits s t (u :: us) =
    (match storeAll s (tarnReq t) (t.backingVa u) (piecesBytes s (unitPieces s t.level t.home t.run u)) with
    | .error f => .error f
    | .ok s1 =>
      writeBackUnits (if badRuns s 0 (unitPieces s t.level t.home t.run u) = [] then s1 else
        (match resolve s1 (tarnReq t) .w (t.backingVa u) (t.backingVa u) 65536 with
        | .ok qs => spreadRuns s1 (badRuns s 0 (unitPieces s t.level t.home t.run u)) 0 qs
        | .error _ => s1)) t us) := rfl

theorem writeBackUnits_wf (s : State) (t : Tarn) (us : List Nat) (w : Canon s) : CanonOk (writeBackUnits s t us) := by
  induction us generalizing s with
  | nil => exact .ok w
  | cons u us ih =>
    rw [writeBackUnits_cons]
    split
    · exact .error _
    · next s1 h =>
        have w1 : Canon s1 := canon_ok h (storeAll_canon _ _ _ _ w)
        refine ih _ ?_
        split
        · exact w1
        · split
          · exact spreadRuns_wf _ _ _ _ w1
          · exact w1

theorem rawWrite_wf (s : State) (ps : List Piece) (bs : List Byte) (w : Canon s) : Canon (rawWrite s ps bs) := by
  induction ps generalizing s bs with
  | nil => exact w
  | cons p ps ih => exact ih _ _ (writeBytes_wf _ _ _ w)

/-- A unit is read whole, then written with its poison, and the next units follow (R377). -/
theorem fillUnits_cons (s : State) (t : Tarn) (u : Nat) (us : List Nat) : fillUnits s t (u :: us) =
    (match fetchAll s (tarnReq t) (t.backingVa u) 65536 with
    | .error f => .error f
    | .ok (s0, bs, poison) =>
      fillUnits (spreadRuns (rawWrite s0 (unitPieces s t.level t.home t.run u) bs) poison 0 (unitPieces s t.level t.home t.run u)) t us) := rfl

theorem fillUnits_wf (s : State) (t : Tarn) (us : List Nat) (w : Canon s) : CanonOk (fillUnits s t us) := by
  induction us generalizing s with
  | nil => exact .ok w
  | cons u us ih =>
    rw [fillUnits_cons]
    split
    · exact .error _
    · next h =>
        have w0 := canon_ok_fst h (fetchAll_wf _ _ _ _ w)
        exact ih _ (spreadRuns_wf _ _ _ _ (rawWrite_wf _ _ _ w0))

/-! ### Operations that the directory has accepted (R191, R391) -/

theorem postAdmin_wf (s : State) (q idx : Nat) (f : Nat × Nat) (w : Canon s) : Canon (postAdmin s q idx f) := by
  unfold postAdmin
  extract_lets -underBinder
  split <;> exact w

theorem finishAsker_wf (s : State) (a : Asker) (w : Canon s) : Canon (finishAsker s a) := by
  unfold finishAsker
  split
  · exact finishCmd_wf _ _ _ _ w
  · exact postAdmin_wf _ _ _ _ w
  · exact w

theorem failAsker_wf (s : State) (f : Trap) (a : Asker) (w : Canon s) : Canon (failAsker s f a) := by
  unfold failAsker
  split
  · exact failCmd_wf _ _ _ _ _ w
  · exact postAdmin_wf _ _ _ _ w
  · exact w

/-! ### Ending (R376, R377) -/

theorem removeTarn_wf (s : State) (t : Tarn) (w : Canon s) : Canon (removeTarn s t) :=
  foldl_wf _ _ (fun _ _ w1 => finishAsker_wf _ _ w1) (foldl_wf _ _ (fun _ _ w1 => failAsker_wf _ _ _ w1) w)

theorem dropTarn_wf (s : State) (t : Tarn) (w : Canon s) : Canon (dropTarn s t) := by
  unfold dropTarn
  refine removeTarn_wf _ _ ?_
  split
  · exact freeStorage_wf _ _ w
  · exact w

theorem settleEnd_wf (s : State) (t : Tarn) (w : Canon s) : Canon (settleEnd s t) := by
  unfold settleEnd
  split
  · exact dropTarn_wf _ _ w
  · exact w

theorem settleTarns_wf (s : State) (w : Canon s) : Canon (settleTarns s) := foldl_wf _ _ (fun _ _ w1 => settleEnd_wf _ _ w1) w

theorem endTarns_wf (s : State) (p : Tarn → Bool) (w : Canon s) : Canon (endTarns s p) := by
  unfold endTarns
  extract_lets -underBinder
  exact foldl_wf _ _ (fun _ _ w1 => settleEnd_wf _ _ w1) w

theorem settleContext_wf (s : State) (ctx : Nat) (w : Canon s) : Canon (settleContext s ctx) := by
  unfold settleContext
  split
  · exact w
  · exact endTarns_wf _ _ w

/-! ### Eviction and allocation (R377, R383) -/

theorem evicted_wf (s : State) (t : Tarn) (w : Canon s) : Canon (evicted s t) := by
  unfold evicted
  extract_lets -underBinder
  exact settleEnd_wf _ _ (foldl_wf _ _ (fun _ _ w1 => finishAsker_wf _ _ w1) (Canon.of_mem (putTarn_mem ..) (freeStorage_wf _ _ w)))

theorem evictTarn_wf (s : State) (t : Tarn) (who : Asker) (w : Canon s) : Canon (evictTarn s t who) := by
  unfold evictTarn
  split
  · exact evicted_wf _ _ w
  · exact w

theorem allocate_wf (s : State) (level home size : Nat) (who : Asker) (fuel : Nat) (w : Canon s) : Canon (allocate s level home size who fuel).2 := by
  induction fuel generalizing s with
  | zero => exact w
  | succ fuel ih =>
    unfold allocate
    split
    · exact w
    · split
      · exact w
      · split
        · exact w
        · split
          · exact w
          · exact ih _ (evictTarn_wf _ _ _ w)

theorem allocRun_wf (s : State) (level home size : Nat) (who : Asker) (w : Canon s) : Canon (allocRun s level home size who).2 :=
  allocate_wf _ _ _ _ _ _ w

/-! ### Attachments (R188, R380, R190) -/

theorem withdrawSlot_wf (s : State) (n : Nat) (w : Canon s) : Canon (withdrawSlot s n) := by
  unfold withdrawSlot
  refine foldl_wf _ _ (fun _ _ w1 => ?_) w
  split
  · exact dropTarn_wf _ _ w1
  · extract_lets -underBinder
    exact settleEnd_wf _ _ w1

theorem wipe_wf (s : State) (t : Tarn) (w : Canon s) : Canon (wipe s t) := clearRun_wf _ _ _ _ _ w

theorem beginRefill_wf (s : State) (t : Tarn) (who : Asker) (w : Canon s) : Canon (beginRefill s t who).2 := by
  rw [beginRefill]
  split
  · next s1 h =>
      have w_s1 : Canon s1 := canon_snd h (allocRun_wf _ _ _ _ _ w)
      split
      · extract_lets -underBinder
        exact Canon.of_mem (putTarn_mem ..) (wipe_wf _ _ w_s1)
      · exact w_s1

theorem noteAttach_wf (s : State) (launch : Nat) (t : Tarn) (w : Canon s) : Canon (noteAttach s launch t) := by
  unfold noteAttach
  split
  · exact w
  · extract_lets -underBinder _ s1
    have w_s1 : Canon s1 := Canon.of_mem (State.modLaunch_mem ..) w
    split
    · exact settleTarns_wf _ w_s1
    · exact w_s1

theorem takeAttach_wf (s : State) (g : Agent) (t : Tarn) (v : Bool) (w : Canon s) : (takeAttach s g t v).KeepsMemory := by
  unfold takeAttach
  extract_lets -underBinder _ s1 s2
  have w_s1 : Canon s1 := w
  have w_s2 : Canon s2 := w_s1
  exact w_s2

/-- Of the refill the proof uses `beginRefill_wf` alone. -/
theorem goOnAttach_wf (s : State) (g : Agent) (t : Tarn) (v : Bool) (w : Canon s) : (goOnAttach s g t v).KeepsMemory := by
  have keeps := beginRefill_wf
  rw [goOnAttach]
  generalize beginRefill = refill at keeps ⊢
  as_aux_lemma =>
    split
    · exact w
    · split
      · exact takeAttach_wf _ _ _ _ w
      · split
        · next s1 h2 =>
            have w_s1 : Canon s1 := canon_snd h2 (keeps _ _ _ w)
            split
            · exact trivial
            · exact w_s1
        · next s1 _ h3 =>
            have w_s1 : Canon s1 := canon_snd h3 (keeps _ _ _ w)
            exact w_s1
      · exact w

theorem attachStep_wf (s : State) (g : Agent) (name : Nat) (v lazy : Bool) (w : Canon s) : (attachStep s g name v lazy).KeepsMemory := by
  unfold attachStep
  extract_lets -underBinder
  split
  · exact trivial
  · exact trivial
  · split
    · exact goOnAttach_wf _ _ _ _ w
    · split
      · exact w
      · split
        · exact trivial
        · split
          · exact trivial
          · extract_lets -underBinder
            exact goOnAttach_wf _ _ _ _ w

theorem detach_wf (s : State) (n name : Nat) (w : Canon s) : CanonSome (detach s n name) := by
  unfold detach
  extract_lets -underBinder
  split
  · extract_lets -underBinder _ _ s1
    have w_s1 : Canon s1 := w
    exact .some (settleEnd_wf _ _ w_s1)
  · exact .none

theorem detachAll_wf (s : State) (n : Nat) (w : Canon s) : Canon (detachAll s n) :=
  foldl_wf _ _ (fun _ _ w1 => CanonSome.getD (detach_wf _ _ _ w1) w1) w

/-! ### Creation (R187) -/

theorem newTarn_wf (s : State) (ctx name home : Nat) (v : Word) (who : Asker) (w : Canon s) : (newTarn s ctx name home v who).KeepsMemory := by
  unfold newTarn
  split
  · exact w
  · split
    · exact w
    · split
      · next s1 h2 =>
          have w_s1 : Canon s1 := canon_snd h2 (allocRun_wf _ _ _ _ _ w)
          extract_lets -underBinder
          exact wipe_wf _ _ w_s1
      · next s1 h2 =>
          have w_s1 : Canon s1 := canon_snd h2 (allocRun_wf _ _ _ _ _ w)
          exact w_s1
      · next s1 h2 =>
          have w_s1 : Canon s1 := canon_snd h2 (allocRun_wf _ _ _ _ _ w)
          exact w_s1

theorem holdTarn_wf (s : State) (name : Nat) (w : Canon s) : (holdTarn s name).KeepsMemory := w

theorem execSegnew_wf (h : Hd) (d a b : BitVec 5) (s : State) (w : Canon s) : CanonNext (execSegnew h d a b s) := by
  unfold execSegnew
  refine runGuarded_canon (fun _ w1 => ?_) w
  extract_lets -underBinder
  split
  · exact trivial
  · split
    · exact trivial
    · split
      · next s11 _ h4 =>
          have w_s11 : Canon s11 := Att.canon_done h4 (goOnAttach_wf _ _ _ _ w1)
          exact Canon.of_mem (writeX_mem ..) w_s11
      · next s11 h4 =>
          have w_s11 : Canon s11 := Att.canon_wait h4 (goOnAttach_wf _ _ _ _ w1)
          exact holdTarn_wf _ _ w_s11
      · exact trivial
    · split
      · exact trivial
      · split
        · next s11 _ h5 =>
            have w_s11 : Canon s11 := New.canon_made h5 (newTarn_wf _ _ _ _ _ _ w1)
            extract_lets -underBinder
            exact holdTarn_wf _ _ w_s11
        · next s11 h5 =>
            have w_s11 : Canon s11 := New.canon_wait h5 (newTarn_wf _ _ _ _ _ _ w1)
            exact holdTarn_wf _ _ w_s11
        · next s11 h5 =>
            have w_s11 : Canon s11 := New.canon_fail h5 (newTarn_wf _ _ _ _ _ _ w1)
            split
            · exact trivial
            · exact holdTarn_wf _ _ w_s11

theorem execSegatt_wf (h : Hd) (d a : BitVec 5) (l v : BitVec 1) (s : State) (w : Canon s) : CanonNext (execSegatt h d a l v s) := by
  unfold execSegatt
  refine runGuarded_canon (fun _ w1 => ?_) w
  extract_lets -underBinder
  split
  · next s11 _ h1 =>
      have w_s11 : Canon s11 := Att.canon_done h1 (attachStep_wf _ _ _ _ _ w1)
      exact Canon.of_mem (writeX_mem ..) w_s11
  · next s11 h1 =>
      have w_s11 : Canon s11 := Att.canon_wait h1 (attachStep_wf _ _ _ _ _ w1)
      exact holdTarn_wf _ _ w_s11
  · exact trivial

theorem execSegqry_wf (h : Hd) (d a : BitVec 5) (s : State) (w : Canon s) : CanonNext (execSegqry h d a s) :=
  runGuarded_canon (fun _ w1 => Canon.of_mem (writeX_mem ..) w1) w

/-! ### The queued operations (R190, R191) -/

theorem segEvict_wf (s : State) (ctx name : Nat) (who : Asker) (w : Canon s) : (segEvict s ctx name who).KeepsMemory := by
  unfold segEvict
  split
  · exact trivial
  · split
    · exact w
    · split
      · exact trivial
      · split
        · exact trivial
        · split
          · exact trivial
          · split
            · exact w
            · extract_lets -underBinder
              split
              · exact w
              · split
                · exact evicted_wf _ _ w
                · exact evictTarn_wf _ _ _ w
              · exact w

theorem segDrop_wf (s : State) (ctx name : Nat) (who : Asker) (w : Canon s) : (segDrop s ctx name who).KeepsMemory := by
  unfold segDrop
  split
  · exact trivial
  · split
    · exact w
    · split
      · exact trivial
      · split
        · exact trivial
        · split
          · exact w
          · split
            · exact w
            · exact dropTarn_wf _ _ w

theorem segDet_wf (s : State) (n name : Nat) (w : Canon s) : (segDet s n name).KeepsMemory := by
  unfold segDet
  split
  · next s1 h =>
      have w_s1 : Canon s1 := canon_some h (detach_wf _ _ _ w)
      exact w_s1
  · exact trivial

/-! ### Directory events (R377, R379, R382) -/

theorem failWaiting_wf (s : State) (t : Tarn) (f : Trap) (w : Canon s) : Canon (failWaiting s t f) := foldl_wf _ _ (fun _ _ w1 => w1) w

theorem fillDone_wf (s : State) (t : Tarn) (w : Canon s) : Canon (fillDone s t) := by
  unfold fillDone
  extract_lets -underBinder _ s1
  have w_s1 : Canon s1 := by
    unfold s1
    split
    · exact finishAsker_wf _ _ w
    · exact w
  split
  · exact settleEnd_wf _ _ w_s1
  · exact evictTarn_wf _ _ _ w_s1

theorem fillFault_wf (s : State) (t : Tarn) (f : Trap) (w : Canon s) : Canon (fillFault s t f) := by
  unfold fillFault
  extract_lets -underBinder s0 s1
  have w_s0 : Canon s0 := failWaiting_wf _ _ _ w
  have w_s1 : Canon s1 := by
    unfold s1
    split
    · exact failAsker_wf _ _ _ w_s0
    · exact w_s0
  split
  · exact dropTarn_wf _ _ w_s1
  · exact evicted_wf _ _ w_s1

theorem moveCopy_wf (s : State) (t : Tarn) (home run : Nat) (w : Canon s) : Canon (moveCopy s t home run) := by
  unfold moveCopy
  extract_lets -underBinder s1
  have w_s1 : Canon s1 := by
    unfold s1
    refine foldl_wf _ _ (fun _ _ w1 => ?_) w
    extract_lets -underBinder
    exact spreadRuns_wf _ _ _ _ (rawWrite_wf _ _ _ w1)
  exact clearRun_wf _ _ _ _ _ w_s1

theorem execTarnFillComplete_wf (ctx name : Nat) (s : State) (w : Canon s) : CanonNext (execTarnFillComplete ctx name s) := by
  unfold execTarnFillComplete
  split
  · exact .next w
  · split
    · exact .next w
    · split
      · exact .next (fillDone_wf _ _ (moveCopy_wf _ _ _ _ w))
      · split
        · exact .next (fillDone_wf _ _ w)
        · split
          · next x3 h4 =>
              have w_x3 : Canon x3 := canon_ok h4 (fillUnits_wf _ _ _ w)
              exact .next (fillDone_wf _ _ w_x3)
          · split
            · exact .next w
            · exact .next (fillFault_wf _ _ _ w)

theorem writeBackFault_wf (s : State) (t : Tarn) (f : Trap) (w : Canon s) : Canon (writeBackFault s t f) := by
  unfold writeBackFault
  split
  · exact reportFault_wf _ _ _ w
  · exact failAsker_wf _ _ _ w
  · exact w

theorem writeBackOver_wf (s : State) (t : Tarn) (f : Trap) (w : Canon s) : Canon (writeBackOver s t f) := by
  unfold writeBackOver
  extract_lets -underBinder _ s1
  have w_s1 : Canon s1 := writeBackFault_wf _ _ _ w
  split
  · exact settleEnd_wf _ _ w_s1
  · exact evictTarn_wf _ _ _ w_s1

theorem execTarnWritebackComplete_wf (ctx name : Nat) (s : State) (w : Canon s) : CanonNext (execTarnWritebackComplete ctx name s) := by
  unfold execTarnWritebackComplete
  split
  · exact .next w
  · split
    · exact .next w
    · split
      · next x2 h2 =>
          have w_x2 : Canon x2 := canon_ok h2 (writeBackUnits_wf _ _ _ w)
          exact .next (evicted_wf _ _ w_x2)
      · split
        · exact .next w
        · exact .next (writeBackOver_wf _ _ _ w)

theorem execTarnMigration_wf (ctx name : Nat) (s : State) (w : Canon s) : CanonNext (execTarnMigration ctx name s) := by
  unfold execTarnMigration
  split
  · exact .next w
  · split
    · exact .next w
    · extract_lets -underBinder
      split
      · exact .next w
      · split
        · next s1 h3 =>
            have w_s1 : Canon s1 := canon_snd h3 (allocRun_wf _ _ _ _ _ w)
            exact .next w_s1
        · next s1 h3 =>
            have w_s1 : Canon s1 := canon_snd h3 (allocRun_wf _ _ _ _ _ w)
            exact .next w_s1
        · next s1 h3 =>
            have w_s1 : Canon s1 := canon_snd h3 (allocRun_wf _ _ _ _ _ w)
            extract_lets -underBinder
            exact .next (Canon.of_mem (putTarn_mem ..) (wipe_wf _ _ w_s1))

/-! ### Units (R166) -/

theorem noteReads_wf (s : State) (r : Req) (u v : Unit4k) (w : Canon s) : Canon (noteReads s r u v) := by
  unfold noteReads
  refine foldl_wf _ _ (fun _ _ w1 => ?_) w
  split
  · split
    · exact hinted_wf _ _ _ (readUses_wf _ _ _ _ _ w1)
    · exact w1
  · exact w1

theorem readUnits_wf (s : State) (r : Req) (us : List Unit4k) (w : Canon s) : Canon (readUnits s r us).1 := by
  unfold readUnits
  extract_lets -underBinder
  exact foldl_wf _ _ (fun _ _ w1 => noteReads_wf _ _ _ _ w1) w

/-! ### Starting (R165, R170, R172, R178) -/

theorem ringStart_wf (s : State) (n : Nat) (fq : Bool) (c : Cmd) (w : Canon s) : (ringStart s n fq c).KeepsMemory := by
  unfold ringStart
  split
  · exact w
  · extract_lets -underBinder
    split
    · exact trivial
    · split
      · split
        · exact trivial
        · split
          · exact trivial
          · extract_lets -underBinder
            exact w
      · split
        · exact trivial
        · split
          · exact trivial
          · extract_lets -underBinder
            exact w

theorem slotStart_wf (s : State) (n : Nat) (c : Cmd) (w : Canon s) : (slotStart s n c).KeepsMemory := by
  unfold slotStart
  extract_lets -underBinder
  split
  · exact w
  · split
    · exact trivial
    · split
      · exact trivial
      · exact w

theorem sendUnits_wf (s : State) (n : Nat) (fq : Bool) (c : Cmd) (mk : Unit4k → State → FPkt) (kind : Unit4k → XKind)
    (us done : List Unit4k) (w : Canon s) : Canon (sendUnits s n fq c mk kind us done).1 := by
  induction us generalizing s done with
  | nil => exact w
  | cons u us ih =>
    unfold sendUnits
    split
    · exact w
    · exact ih _ _ w

theorem fabricStart_wf (s : State) (n : Nat) (c : Cmd) (us : List Unit4k) (w : Canon s) : Canon (fabricStart s n c us) := by
  unfold fabricStart
  extract_lets -underBinder _ finish
  have w_finish : ∀ (p : State × List Unit4k), Canon p.1 → Canon (finish p) := by
    unfold finish
    intro _ w1
    extract_lets -underBinder s1
    have w_s1 : Canon s1 := w1
    split
    · exact failCmd_wf _ _ _ _ _ w_s1
    · exact w_s1
  split
  · exact w_finish _ (sendUnits_wf _ _ _ _ _ _ _ _ w)
  · exact w_finish _ (sendUnits_wf _ _ _ _ _ _ _ _ w)
  · extract_lets -underBinder
    exact w_finish _ (sendUnits_wf _ _ _ _ _ _ _ _ w)

theorem beginUnits_wf (s : State) (n : Nat) (fq : Bool) (c : Cmd) (rs : List Run3) (w : Canon s) : Canon (beginUnits s n fq c rs) := by
  unfold beginUnits
  extract_lets -underBinder
  split
  · exact w
  · exact fabricStart_wf _ _ _ _ w
  · split
    · next s1 _ h2 =>
        have w_s1 : Canon s1 := canon_fst h2 (readUnits_wf _ _ _ w)
        exact fabricStart_wf _ _ _ _ w_s1
  · split
    · next s1 _ h3 =>
        have w_s1 : Canon s1 := canon_fst h3 (readUnits_wf _ _ _ w)
        exact w_s1

theorem launchCmd_wf (s : State) (n : Nat) (fq : Bool) (c : Cmd) (w : Canon s) : CanonSome (launchCmd s n fq c) := by
  unfold launchCmd
  extract_lets -underBinder _ s1 fail
  have w_s1 : Canon s1 := w
  have w_fail : ∀ (f : Trap), Canon (fail f) := fun _ => failCmd_wf _ _ _ _ _ w_s1
  split
  · exact .some (fabricStart_wf _ _ _ _ w_s1)
  · exact .some (fabricStart_wf _ _ _ _ w_s1)
  · exact .some w_s1
  · exact .some w_s1
  · refine .some ?_
    split
    · exact failCmd_wf _ _ _ _ _ w_s1
    · exact w_s1
  · extract_lets -underBinder
    split
    · exact .none
    · split
      · split
        · exact .none
        · exact .some (w_fail _)
      · split
        · exact .some (w_fail _)
        · split
          · exact .none
          · exact .some (beginUnits_wf _ _ _ _ _ w_s1)

theorem execCommandStart_wf (slot : Nat) (fq : Bool) (s : State) (w : Canon s) : CanonNext (execCommandStart slot fq s) := by
  unfold execCommandStart
  split
  · exact .next w
  · split
    · exact .next w
    · split
      · exact .next w
      · exact .next (failCmd_wf _ _ _ _ _ w)
      · next s2 _ h2 =>
          have w_s2 : Canon s2 := Got.canon_ok h2 (ringStart_wf _ _ _ _ w)
          split
          · exact .next w
          · exact .next (failCmd_wf _ _ _ _ _ w_s2)
          · next s21 _ h3 =>
              have w_s21 : Canon s21 := Got.canon_ok h3 (slotStart_wf _ _ _ w_s2)
              refine .next ?_
              split
              · next s1 h4 =>
                  have w_s1 : Canon s1 := canon_some h4 (launchCmd_wf _ _ _ _ w_s21)
                  exact w_s1
              · exact w

/-! ### Landing (R166, R167, R194) -/

theorem fillLines_wf (s : State) (r : Req) (as : List Word) (w : Canon s) : Canon (fillLines s r as) := by
  induction as generalizing s with
  | nil => exact w
  | cons a as ih =>
    unfold fillLines
    split
    · exact ih _ (foldl_wf _ _ (fun _ _ wt => wt) w)
    · exact ih _ w

theorem writePart_wf (s : State) (n : Nat) (c : Cmd) (p : Part) (ps : List Piece) (w : Canon s) : Canon (writePart s n c p ps) := by
  unfold writePart
  extract_lets -underBinder _ s1
  have w_s1 : Canon s1 := by
    unfold s1
    split
    · exact rawWrite_wf _ _ _ (foldl_wf _ _ (fun _ _ w1 => Canon.of_mem (healPoison_mem ..) w1) w)
    · exact hinted_wf _ _ _ (writePieces_wf _ _ _ _ (Canon.of_mem (walked_mem ..) w))
  exact spreadRuns_wf _ _ _ _ w_s1

theorem writeUnit_wf (s : State) (n : Nat) (c : Cmd) (u : Unit4k) (w : Canon s) : CanonOk (writeUnit s n c u) := by
  intro t h
  unfold writeUnit at h
  cases e : unitDest s n c u.parts <;> rw [e] at h <;> cases h
  exact foldl_wf _ _ (fun _ _ wt => writePart_wf _ _ _ _ _ wt) w

theorem unitLanded_wf (s : State) (n : Nat) (fq : Bool) (id i : Nat) (w : Canon s) : Canon (unitLanded s n fq id i) := by
  unfold unitLanded
  split
  · exact w
  · split
    · exact w
    · extract_lets -underBinder _ s1 s2
      have w_s1 : Canon s1 := w
      have w_s2 : Canon s2 := by
        unfold s2
        split
        · exact fillLines_wf _ _ _ w_s1
        · exact w_s1
      split
      · exact engineAdd_wf _ _ _ _ _ w_s2
      · exact w_s2

theorem execCommandUnitLand_wf (slot : Nat) (fq : Bool) (idx unit : Nat) (s : State) (w : Canon s) :
    CanonNext (execCommandUnitLand slot fq idx unit s) := by
  unfold execCommandUnitLand
  split
  · exact .next w
  · split
    · exact .next w
    · split
      · exact .next w
      · split
        · next s1 _ h3 =>
            have w_s1 : Canon s1 := canon_fst h3 (readUnits_wf _ _ _ w)
            extract_lets -underBinder _ held fail
            have w_held : Canon held := w_s1
            have w_fail : ∀ (f : Trap), CanonNext (fail f) := by
              unfold fail
              refine fun _ => .next ?_
              split
              · exact w_held
              · exact failCmd_wf _ _ _ _ _ w
            split
            · exact .next w_held
            · split
              · exact w_fail _
              · exact w_fail _
              · split
                · exact .next w_held
                · exact .next (Canon.of_mem (noteEngine_mem ..) (unitLanded_wf _ _ _ _ _ (foldl_wf _ _ (fun _ _ w1 => writePart_wf _ _ _ _
                      _ w1) w_held)))

/-! ### Cache maintenance (R193, R339) -/

theorem prefetchLines_wf (s : State) (r : Req) (a : BitVec 64) (len : Nat) (w : Canon s) : Canon (prefetchLines s r a len) := by
  unfold prefetchLines
  refine foldl_wf _ _ (fun _ _ w1 => ?_) w
  extract_lets -underBinder
  split
  · exact w1
  · exact hinted_wf _ _ _ (readUses_wf _ _ _ _ _ w1)

theorem cacheEffect_wf (s : State) (n : Nat) (c : Cmd) (w : Canon s) : CanonOk (cacheEffect s n c) := by
  unfold cacheEffect
  extract_lets -underBinder
  split
  · exact .ok w
  · split
    · exact .ok (prefetchLines_wf _ _ _ _ w)
    · split
      · exact .error _
      · extract_lets -underBinder _ s1
        have w_s1 : Canon s1 := by
          unfold s1
          split
          · exact foldl_wf _ _ (fun _ _ w1 => dropSector_wf _ _ w1) w
          · exact w
        refine .ok ?_
        split <;> exact w_s1

theorem cacheStep_wf (s : State) (n : Nat) (fq : Bool) (c : Cmd) (w : Canon s) : Canon (cacheStep s n fq c) := by
  unfold cacheStep
  extract_lets -underBinder
  split
  · exact w
  · split
    · split
      · exact w
      · exact failCmd_wf _ _ _ _ _ w
    · next s1 h1 =>
        have w_s1 : Canon s1 := canon_ok h1 (cacheEffect_wf _ _ _ w)
        split
        · exact finishCmd_wf _ _ _ _ w_s1
        · exact w_s1

/-! ### Completing (R166) -/

theorem fillSlot_wf (s : State) (n : Nat) (c : Cmd) (w : Canon s) : Canon (fillSlot s n c) := by
  unfold fillSlot
  split <;> exact w

theorem segEffect_wf (s : State) (n : Nat) (c : Cmd) (w : Canon s) : (segEffect s n c).KeepsMemory := by
  unfold segEffect
  extract_lets -underBinder
  split
  · exact segDet_wf _ _ _ w
  · exact segEvict_wf _ _ _ _ w
  · exact segDrop_wf _ _ _ _ w

theorem execCommandComplete_wf (slot : Nat) (fq : Bool) (idx : Nat) (s : State) (w : Canon s) : CanonNext (execCommandComplete slot fq idx s) := by
  unfold execCommandComplete
  split
  · exact .next w
  · split
    · exact .next w
    · split
      · split
        · next s1 h3 =>
            have w_s1 : Canon s1 := Seg.canon_done h3 (segEffect_wf _ _ _ w)
            exact .next (finishCmd_wf _ _ _ _ w_s1)
        · next s1 h3 =>
            have w_s1 : Canon s1 := Seg.canon_wait h3 (segEffect_wf _ _ _ w)
            exact .next w_s1
        · exact .next (failCmd_wf _ _ _ _ _ w)
      · exact .next (cacheStep_wf _ _ _ _ w)
      · split
        · exact .next (finishCmd_wf _ _ _ _ w)
        · exact .next w
      · split
        · exact .next (finishCmd_wf _ _ _ _ (fillSlot_wf _ _ _ w))
        · exact .next w

/-! ### Circuits (R172, R348) -/

theorem circLine_wf (s : State) (n : Nat) (c : Cmd) (w : Canon s) : Canon (circLine s n c) := by
  unfold circLine
  split
  · extract_lets -underBinder
    split
    · exact failCmd_wf _ _ _ _ _ w
    · split
      · exact failCmd_wf _ _ _ _ _ w
      · split
        · exact w
        · extract_lets -underBinder
          split
          · exact failCmd_wf _ _ _ _ _ w
          · extract_lets -underBinder _ s1 s2 s3
            have w_s1 : Canon s1 := fillLines_wf _ _ _ (writePieces_wf _ _ _ _ (Canon.of_mem (l2Uses_mem ..) w))
            have w_s2 : Canon s2 := spreadRuns_wf _ _ _ _ w_s1
            have w_s3 : Canon s3 := w_s2
            split
            · exact engineAdd_wf _ _ _ _ _ w_s3
            · exact w_s3

theorem execCircuitSlot_wf (cluster : Nat) (s : State) (w : Canon s) : CanonNext (execCircuitSlot cluster s) := by
  unfold execCircuitSlot
  split
  · exact .next w
  · split
    · exact .next w
    · split
      · exact .next w
      · extract_lets -underBinder
        split
        · exact .next w
        · exact .next (circLine_wf _ _ _ w)

/-! ### Transactions (R183, R186) -/

theorem execReservationExpire_wf (s : State) (w : Canon s) : CanonNext (execReservationExpire s) := .next w

theorem xactFault_wf (s : State) (tag : Nat) (f : Trap) (w : Canon s) : Canon (xactFault s tag f) := by
  unfold xactFault
  split
  · exact w
  · split
    · exact w
    · extract_lets -underBinder
      exact failCmd_wf _ _ _ _ _ w

theorem execFabricTimeout_wf (tag : Nat) (s : State) (w : Canon s) : CanonNext (execFabricTimeout tag s) := by
  unfold execFabricTimeout
  split
  · exact .next w
  · split
    · exact .next (xactFault_wf _ _ _ w)
    · exact .next w

/-! ### The window (R202, R203) -/

theorem State.writeRow_wf (s : State) (n : Nat) (v en : Row) (lat : Nat) (flags : VFlags) (w : Canon s) : Canon (s.writeRow n v en lat flags) := by
  unfold State.writeRow
  extract_lets -underBinder _ s1
  have w_s1 : Canon s1 := w
  split
  · exact w
  · split <;> exact w_s1

theorem runVector_wf (s : State) (i : Instr) (k : Need) (always : Bool) (e : State → BitVec 256 → TType → Eff) (w : Canon s)
    (he : ∀ (t : State) (b : BitVec 256) (t1 : TType), Canon t → (e t b t1).KeepsMemory) : CanonNext (runVector s i k always e) := by
  unfold runVector
  refine runWord_canon (fun _ w1 => ?_) w
  extract_lets -underBinder
  split
  · exact w1
  · split
    · exact trivial
    · split
      · exact trivial
      · exact he _ _ _ w1

/-! ### Ports (R212 to R217) -/

theorem State.tookUse_wf (s : State) (n : Nat) (p : Port) (w : Canon s) : Canon (s.tookUse n p) := by
  unfold State.tookUse
  extract_lets -underBinder
  split
  · exact w
  · extract_lets -underBinder s1
    have w_s1 : Canon s1 := by
      unfold s1
      split <;> exact w
    exact w_s1

theorem State.wentPort_wf (s : State) (n : Nat) (w : Canon s) : Canon (s.wentPort n) := by
  unfold State.wentPort
  split <;> exact w

theorem portUse_wf (s : State) (n : Nat) (ty : TType) (k : State → Row → Eff) (w : Canon s)
    (hk : ∀ (t : State) (b : Row), Canon t → (k t b).KeepsMemory) : (portUse s n ty k).KeepsMemory := by
  unfold portUse
  extract_lets -underBinder _ _ take
  have w_take : ∀ (s : State) (v : Row) (rest : List Prefetch), Canon s → (take s v rest).KeepsMemory := fun _ _ _ w1 => hk _ _ (State.tookUse_wf
      _ _ _ w1)
  split
  · exact trivial
  · split
    · exact trivial
    · split
      · exact trivial
      · split
        · exact trivial
        · split
          · split
            · exact trivial
            · exact w_take _ _ _ w
          · extract_lets -underBinder
            exact readEff_wf _ _ _ _ _ _ (fun _ _ => w_take _ _ _ (hinted_wf _ _ _ (readUses_wf _ _ _ _ _ w)))

theorem execPortPrefetch_wf (slot port : Nat) (s : State) (w : Canon s) : CanonNext (execPortPrefetch slot port s) := by
  unfold execPortPrefetch
  extract_lets -underBinder _ _ _ _ put
  have w_put : ∀ (s : State) (f : Prefetch), Canon s → CanonNext (put s f) := fun _ _ w1 => .next w1
  split
  · exact .next w
  · split
    · split
      · exact .next w
      · exact w_put _ _ w
    · split
      · exact .next w
      · exact w_put _ _ (hinted_wf _ _ _ (readUses_wf _ _ _ _ _ w))

theorem execPgo_wf (h : Hd) (p : BitVec 3) (s : State) (w : Canon s) : CanonNext (execPgo h p s) := by
  unfold execPgo
  refine runGuarded_canon (fun _ w1 => ?_) w
  split
  · exact trivial
  · exact State.wentPort_wf _ _ w1

theorem execPstop_wf (h : Hd) (p : BitVec 3) (s : State) (w : Canon s) : CanonNext (execPstop h p s) := by
  unfold execPstop
  refine runGuarded_canon (fun _ w1 => ?_) w
  split
  · exact trivial
  · exact w1

theorem execVstp_wf (h : Hd) (d : BitVec 5) (p : BitVec 3) (s : State) (w : Canon s) : CanonNext (execVstp h d p s) := by
  unfold execVstp
  refine runGuarded_canon (fun _ w1 => ?_) w
  split
  · exact trivial
  · exact Canon.of_mem (writeX_mem ..) w1

theorem operandB_wf (s : State) (b : BitVec 5) (m : BitVec 1) (ty : TType) (k : State → Row → Eff) (w : Canon s)
    (hk : ∀ (t : State) (b1 : Row), Canon t → (k t b1).KeepsMemory) : (operandB s b m ty k).KeepsMemory := by
  unfold operandB
  split
  · exact hk _ _ w
  · exact portUse_wf _ _ _ _ w (fun _ _ w1 => hk _ _ w1)

/-! ### Element operations (R210) -/

theorem writeElems_wf (s : State) (d : BitVec 5) (g : BitVec 256) (v lat : Nat) (f : Nat → ElemOp) (w : Canon s) :
    (writeElems s d g v lat f).KeepsMemory :=
  State.writeRow_wf _ _ _ _ _ _ w

theorem vec3_wf (s : State) (i : Instr) (k : Need) (lat : Nat) (d a b : BitVec 5) (m : BitVec 1)
    (op : TType → Nat → Nat → Nat → State → Nat → ElemOp) (w : Canon s) : CanonNext (vec3 s i k lat d a b m op) := by
  unfold vec3
  refine runVector_wf _ _ _ _ _ w (fun _ _ _ w1 => ?_)
  extract_lets -underBinder
  exact operandB_wf _ _ _ _ _ w1 (fun _ _ w3 => writeElems_wf _ _ _ _ _ _ w3)

theorem vec1_wf (s : State) (i : Instr) (k : Need) (lat : Nat) (d a : BitVec 5) (op : TType → Nat → State → ElemOp) (w : Canon s) :
    CanonNext (vec1 s i k lat d a op) := by
  unfold vec1
  refine runVector_wf _ _ _ _ _ w (fun _ _ _ w1 => ?_)
  extract_lets -underBinder
  exact writeElems_wf _ _ _ _ _ _ w1

/-! ### Floating point (R219, R220) -/

theorem execVadd_wf (h : Hd) (d a b : BitVec 5) (m : BitVec 1) (s : State) (w : Canon s) : CanonNext (execVadd h d a b m s) :=
  vec3_wf _ _ _ _ _ _ _ _ _ w

theorem execVsub_wf (h : Hd) (d a b : BitVec 5) (m : BitVec 1) (s : State) (w : Canon s) : CanonNext (execVsub h d a b m s) :=
  vec3_wf _ _ _ _ _ _ _ _ _ w

theorem execVmul_wf (h : Hd) (d a b : BitVec 5) (m : BitVec 1) (s : State) (w : Canon s) : CanonNext (execVmul h d a b m s) :=
  vec3_wf _ _ _ _ _ _ _ _ _ w

theorem execVfma_wf (h : Hd) (d a b : BitVec 5) (m : BitVec 1) (s : State) (w : Canon s) : CanonNext (execVfma h d a b m s) :=
  vec3_wf _ _ _ _ _ _ _ _ _ w

theorem execVfms_wf (h : Hd) (d a b : BitVec 5) (m : BitVec 1) (s : State) (w : Canon s) : CanonNext (execVfms h d a b m s) :=
  vec3_wf _ _ _ _ _ _ _ _ _ w

theorem execVfnma_wf (h : Hd) (d a b : BitVec 5) (m : BitVec 1) (s : State) (w : Canon s) : CanonNext (execVfnma h d a b m s) :=
  vec3_wf _ _ _ _ _ _ _ _ _ w

theorem execVmax_wf (h : Hd) (d a b : BitVec 5) (m : BitVec 1) (s : State) (w : Canon s) : CanonNext (execVmax h d a b m s) :=
  vec3_wf _ _ _ _ _ _ _ _ _ w

theorem execVmin_wf (h : Hd) (d a b : BitVec 5) (m : BitVec 1) (s : State) (w : Canon s) : CanonNext (execVmin h d a b m s) :=
  vec3_wf _ _ _ _ _ _ _ _ _ w

theorem execVabs_wf (h : Hd) (d a : BitVec 5) (s : State) (w : Canon s) : CanonNext (execVabs h d a s) := vec1_wf _ _ _ _ _ _ _ w
theorem execVneg_wf (h : Hd) (d a : BitVec 5) (s : State) (w : Canon s) : CanonNext (execVneg h d a s) := vec1_wf _ _ _ _ _ _ _ w
theorem execVrcpe_wf (h : Hd) (d a : BitVec 5) (s : State) (w : Canon s) : CanonNext (execVrcpe h d a s) := vec1_wf _ _ _ _ _ _ _ w
theorem execVrsqe_wf (h : Hd) (d a : BitVec 5) (s : State) (w : Canon s) : CanonNext (execVrsqe h d a s) := vec1_wf _ _ _ _ _ _ _ w
theorem execVfloor_wf (h : Hd) (d a : BitVec 5) (s : State) (w : Canon s) : CanonNext (execVfloor h d a s) := vec1_wf _ _ _ _ _ _ _ w
theorem execVrnd_wf (h : Hd) (d a : BitVec 5) (s : State) (w : Canon s) : CanonNext (execVrnd h d a s) := vec1_wf _ _ _ _ _ _ _ w

theorem execVscale_wf (h : Hd) (d a b : BitVec 5) (m : BitVec 1) (s : State) (w : Canon s) : CanonNext (execVscale h d a b m s) :=
  vec3_wf _ _ _ _ _ _ _ _ _ w

/-! ### Integers and moves (R221, R222) -/

theorem execViadd_wf (h : Hd) (d a b : BitVec 5) (m : BitVec 1) (s : State) (w : Canon s) : CanonNext (execViadd h d a b m s) :=
  vec3_wf _ _ _ _ _ _ _ _ _ w

theorem execVisub_wf (h : Hd) (d a b : BitVec 5) (m : BitVec 1) (s : State) (w : Canon s) : CanonNext (execVisub h d a b m s) :=
  vec3_wf _ _ _ _ _ _ _ _ _ w

theorem execVimul_wf (h : Hd) (d a b : BitVec 5) (m : BitVec 1) (s : State) (w : Canon s) : CanonNext (execVimul h d a b m s) :=
  vec3_wf _ _ _ _ _ _ _ _ _ w

theorem execVand_wf (h : Hd) (d a b : BitVec 5) (m : BitVec 1) (s : State) (w : Canon s) : CanonNext (execVand h d a b m s) :=
  vec3_wf _ _ _ _ _ _ _ _ _ w

theorem execVor_wf (h : Hd) (d a b : BitVec 5) (m : BitVec 1) (s : State) (w : Canon s) : CanonNext (execVor h d a b m s) :=
  vec3_wf _ _ _ _ _ _ _ _ _ w

theorem execVxor_wf (h : Hd) (d a b : BitVec 5) (m : BitVec 1) (s : State) (w : Canon s) : CanonNext (execVxor h d a b m s) :=
  vec3_wf _ _ _ _ _ _ _ _ _ w

theorem execVshl_wf (h : Hd) (d a b : BitVec 5) (m : BitVec 1) (s : State) (w : Canon s) : CanonNext (execVshl h d a b m s) :=
  vec3_wf _ _ _ _ _ _ _ _ _ w

theorem execVsar_wf (h : Hd) (d a b : BitVec 5) (m : BitVec 1) (s : State) (w : Canon s) : CanonNext (execVsar h d a b m s) :=
  vec3_wf _ _ _ _ _ _ _ _ _ w

theorem execVshr_wf (h : Hd) (d a b : BitVec 5) (m : BitVec 1) (s : State) (w : Canon s) : CanonNext (execVshr h d a b m s) :=
  vec3_wf _ _ _ _ _ _ _ _ _ w

theorem execVmov_wf (h : Hd) (d b : BitVec 5) (m : BitVec 1) (s : State) (w : Canon s) : CanonNext (execVmov h d b m s) :=
  vec3_wf _ _ _ _ _ _ _ _ _ w

theorem execVsel_wf (h : Hd) (d a b : BitVec 5) (m : BitVec 1) (s : State) (w : Canon s) : CanonNext (execVsel h d a b m s) := by
  unfold execVsel
  refine runVector_wf _ _ _ _ _ w (fun _ _ _ w1 => ?_)
  extract_lets -underBinder
  exact operandB_wf _ _ _ _ _ w1 (fun _ _ w3 => writeElems_wf _ _ _ _ _ _ w3)

theorem execVclamp_wf (h : Hd) (d a b : BitVec 5) (m : BitVec 1) (s : State) (w : Canon s) : CanonNext (execVclamp h d a b m s) :=
  vec3_wf _ _ _ _ _ _ _ _ _ w

/-! ### Conversions (R223, R224, R102) -/

theorem execVcvt_wf (h : Hd) (d a : BitVec 5) (t : BitVec 1) (c : BitVec 4) (r : BitVec 3) (s : State) (w : Canon s) :
    CanonNext (execVcvt h d a t c r s) := by
  unfold execVcvt
  refine runVector_wf _ _ _ _ _ w (fun _ _ _ w1 => ?_)
  extract_lets -underBinder _ _ _ nar to32 to16
  have w_nar : ∀ (f : Fmt), (nar f).KeepsMemory := by
    unfold nar
    intro _
    extract_lets -underBinder _ _ _ _ _ s1
    have w_s1 : Canon s1 := State.writeRow_wf _ _ _ _ _ _ w1
    split <;> exact w_s1
  have w_to32 : ∀ (f : Nat → ElemOp), (to32 f).KeepsMemory := fun _ => writeElems_wf _ _ _ _ _ _ w1
  have w_to16 : ∀ (f : Nat → ElemOp), (to16 f).KeepsMemory := fun _ => writeElems_wf _ _ _ _ _ _ w1
  split
  · exact w_nar _
  · exact w_nar _
  · exact w_nar _
  · exact w_nar _
  · exact w_to32 _
  · exact w_to32 _
  · exact w_to32 _
  · exact w_to32 _
  · exact w_to32 _
  · exact w_to32 _
  · exact w_to32 _
  · exact w_to32 _
  · exact w_to16 _
  · exact w_to16 _
  · exact w_to32 _

/-! ### Compares (R225) -/

theorem execVcmp_wf (h : Hd) (p : BitVec 3) (a b : BitVec 5) (c : BitVec 4) (k : BitVec 2) (s : State) (w : Canon s) :
    CanonNext (execVcmp h p a b c k s) := by
  unfold execVcmp
  refine runVector_wf _ _ _ _ _ w (fun _ _ _ w1 => ?_)
  extract_lets -underBinder
  split
  · exact trivial
  · exact Canon.of_mem (writeP_mem ..) (Canon.of_mem (writeP_mem ..) w1)

/-! ### Reductions (R226, R227) -/

theorem reduce_wf (s : State) (i : Instr) (lat : TType → Nat) (d a : BitVec 5) (f : TType → State → BitVec 256 → Row → ElemOp)
    (w : Canon s) : CanonNext (reduce s i lat d a f) := by
  unfold reduce
  refine runVector_wf _ _ _ _ _ w (fun _ _ _ w1 => ?_)
  extract_lets -underBinder
  exact State.writeRow_wf _ _ _ _ _ _ w1

theorem execVradd_wf (h : Hd) (d a : BitVec 5) (s : State) (w : Canon s) : CanonNext (execVradd h d a s) := reduce_wf _ _ _ _ _ _ w
theorem execVrmax_wf (h : Hd) (d a : BitVec 5) (s : State) (w : Canon s) : CanonNext (execVrmax h d a s) := reduce_wf _ _ _ _ _ _ w
theorem execVrmin_wf (h : Hd) (d a : BitVec 5) (s : State) (w : Canon s) : CanonNext (execVrmin h d a s) := reduce_wf _ _ _ _ _ _ w
theorem execVraddx_wf (h : Hd) (d a : BitVec 5) (s : State) (w : Canon s) : CanonNext (execVraddx h d a s) := reduce_wf _ _ _ _ _ _ w

/-! ### Permutations and broadcasts (R228, R229) -/

theorem permute_wf (s : State) (i : Instr) (d a b : BitVec 5) (m : BitVec 1) (f : Nat → Nat → (Nat → Nat) → (Nat → Nat) → Nat → Nat)
    (w : Canon s) : CanonNext (permute s i d a b m f) := by
  unfold permute
  refine runVector_wf _ _ _ _ _ w (fun _ _ _ w1 => ?_)
  extract_lets -underBinder
  exact operandB_wf _ _ _ _ _ w1 (fun _ _ w3 => writeElems_wf _ _ _ _ _ _ w3)

theorem execVperm_wf (h : Hd) (d a b : BitVec 5) (m : BitVec 1) (s : State) (w : Canon s) : CanonNext (execVperm h d a b m s) :=
  permute_wf _ _ _ _ _ _ _ w

theorem execVrot_wf (h : Hd) (d a b : BitVec 5) (m : BitVec 1) (s : State) (w : Canon s) : CanonNext (execVrot h d a b m s) :=
  permute_wf _ _ _ _ _ _ _ w

theorem execVshft_wf (h : Hd) (d a b : BitVec 5) (m : BitVec 1) (s : State) (w : Canon s) : CanonNext (execVshft h d a b m s) :=
  permute_wf _ _ _ _ _ _ _ w

theorem execVdup_wf (h : Hd) (d a b : BitVec 5) (m : BitVec 1) (s : State) (w : Canon s) : CanonNext (execVdup h d a b m s) :=
  permute_wf _ _ _ _ _ _ _ w

theorem execVbc_wf (h : Hd) (d a : BitVec 5) (s : State) (w : Canon s) : CanonNext (execVbc h d a s) :=
  runVector_wf _ _ _ _ _ w (fun _ _ _ w1 => writeElems_wf _ _ _ _ _ _ w1)

theorem execVext_wf (h : Hd) (d a b : BitVec 5) (s : State) (w : Canon s) : CanonNext (execVext h d a b s) := by
  unfold execVext
  refine runGuarded_canon (fun _ w1 => ?_) w
  split
  · exact trivial
  · extract_lets -underBinder
    exact Canon.of_mem (writeX_mem ..) w1

/-! ### Vector memory (R230 to R232) -/

theorem execVld_wf (h : Hd) (d a : BitVec 5) (c : BitVec 4) (o : BitVec 5) (s : State) (w : Canon s) : CanonNext (execVld h d a c o s) := by
  unfold execVld
  refine runVector_wf _ _ _ _ _ w (fun _ _ _ w1 => ?_)
  extract_lets -underBinder
  split
  · exact trivial
  · split
    · exact trivial
    · split
      · exact trivial
      · split
        · exact trivial
        · extract_lets -underBinder _ use
          have w_use : ∀ (s : State) (e : Nat × List Piece), Canon s → Canon (use s e) := fun _ _ w3 => readUses_wf _ _ _ _ _ w3
          exact writeElems_wf _ _ _ _ _ _ (foldl_wf _ _ (fun _ _ w3 => w_use _ _ w3) w1)

theorem execVst_wf (h : Hd) (d a : BitVec 5) (c : BitVec 4) (o : BitVec 5) (s : State) (w : Canon s) : CanonNext (execVst h d a c o s) := by
  unfold execVst
  refine runVector_wf _ _ _ _ _ w (fun _ _ _ w1 => ?_)
  extract_lets -underBinder
  split
  · exact trivial
  · split
    · exact trivial
    · exact foldl_wf _ _ (fun _ _ w3 => writePieces_wf _ _ _ _ (Canon.of_mem (walked_mem ..) w3)) w1

theorem execVldl_wf (h : Hd) (d a : BitVec 5) (o : BitVec 8) (s : State) (w : Canon s) : CanonNext (execVldl h d a o s) := by
  unfold execVldl
  refine runVector_wf _ _ _ _ _ w (fun _ _ _ w1 => ?_)
  split
  · exact trivial
  · exact writeElems_wf _ _ _ _ _ _ w1

theorem execVstl_wf (h : Hd) (d a : BitVec 5) (o : BitVec 8) (s : State) (w : Canon s) : CanonNext (execVstl h d a o s) := by
  unfold execVstl
  refine runVector_wf _ _ _ _ _ w (fun _ _ _ w1 => ?_)
  split
  · exact trivial
  · extract_lets -underBinder
    exact foldl_wf _ _ (fun _ _ w2 => writeBytes_wf _ _ _ w2) w1

/-! ### VCORD (R233, R234) -/

theorem execVcord_wf (h : Hd) (d a n : BitVec 5) (f : BitVec 3) (s : State) (w : Canon s) : CanonNext (execVcord h d a n f s) := by
  unfold execVcord
  refine runVector_wf _ _ _ _ _ w (fun _ _ _ w1 => ?_)
  extract_lets -underBinder
  exact writeElems_wf _ _ _ _ _ _ w1

/-! ### VWIN and VSTAT (R204, R236) -/

theorem execVwin_wf (h : Hd) (t : BitVec 2) (u : BitVec 1) (k : BitVec 3) (s : State) (w : Canon s) : CanonNext (execVwin h t u k s) := by
  unfold execVwin
  refine runGuarded_canon (fun _ w1 => ?_) w
  split
  · exact trivial
  · split
    · exact trivial
    · extract_lets -underBinder s11
      have w_s11 : Canon s11 := w1
      split <;> exact w_s11

theorem execVstat_wf (h : Hd) (d a : BitVec 5) (s : State) (w : Canon s) : CanonNext (execVstat h d a s) := by
  unfold execVstat
  refine runGuarded_canon (fun _ w1 => ?_) w
  extract_lets -underBinder _ s11
  have w_s11 : Canon s11 := w1
  exact Canon.of_mem (writeX_mem ..) w_s11

/-! ### Issue (R250, R258, R271) -/

theorem issueEntry_wf (s : State) (i : Instr) (k : NestKind) (td ts : Nat) (w : Canon s) : CanonNext (issueEntry s i k td ts) := by
  unfold issueEntry
  refine runGuarded_canon (fun _ w1 => ?_) w
  extract_lets -underBinder
  split
  · exact trivial
  · split
    · exact trivial
    · exact w1

theorem execMma_wf (h : Hd) (s : State) (w : Canon s) : CanonNext (execMma h s) := issueEntry_wf _ _ _ _ _ w
theorem execMmac_wf (h : Hd) (s : State) (w : Canon s) : CanonNext (execMmac h s) := issueEntry_wf _ _ _ _ _ w
theorem execTrn_wf (h : Hd) (d t : BitVec 2) (s : State) (w : Canon s) : CanonNext (execTrn h d t s) := issueEntry_wf _ _ _ _ _ w
theorem execPrm_wf (h : Hd) (d t : BitVec 2) (s : State) (w : Canon s) : CanonNext (execPrm h d t s) := issueEntry_wf _ _ _ _ _ w
theorem execRred_wf (h : Hd) (d t : BitVec 2) (s : State) (w : Canon s) : CanonNext (execRred h d t s) := issueEntry_wf _ _ _ _ _ w
theorem execZero_wf (h : Hd) (m : BitVec 4) (s : State) (w : Canon s) : CanonNext (execZero h m s) := issueEntry_wf _ _ _ _ _ w
theorem execMret_wf (h : Hd) (t : BitVec 2) (s : State) (w : Canon s) : CanonNext (execMret h t s) := issueEntry_wf _ _ _ _ _ w

theorem execMcfg_wf (h : Hd) (c : BitVec 8) (a : BitVec 5) (s : State) (w : Canon s) : CanonNext (execMcfg h c a s) :=
  runGuarded_canon (fun _ w1 => w1) w

theorem execMfmt_wf (h : Hd) (e : BitVec 4) (a : BitVec 5) (s : State) (w : Canon s) : CanonNext (execMfmt h e a s) :=
  runGuarded_canon (fun _ w1 => w1) w

theorem execMpri_wf (h : Hd) (a : BitVec 5) (s : State) (w : Canon s) : CanonNext (execMpri h a s) := by
  unfold execMpri
  refine runGuarded_canon (fun _ w1 => ?_) w
  extract_lets -underBinder
  exact w1

/-! ### Operand slots (R245 to R248) -/

theorem oslotEff_wf (s : State) (n : Nat) (k : OSlot → Eff) (hk : ∀ (o : OSlot), (k o).KeepsMemory) : (oslotEff s n k).KeepsMemory := by
  unfold oslotEff
  split
  · exact hk _
  · exact trivial

theorem execMclaim_wf (h : Hd) (n : BitVec 4) (s : State) (w : Canon s) : CanonNext (execMclaim h n s) := by
  unfold execMclaim
  refine runGuarded_canon (fun _ w1 => oslotEff_wf _ _ _ (fun _ => ?_)) w
  split
  · exact w1
  · exact trivial
  · exact trivial

theorem execMrel_wf (h : Hd) (n : BitVec 4) (s : State) (w : Canon s) : CanonNext (execMrel h n s) := by
  unfold execMrel
  refine runGuarded_canon (fun _ w1 => oslotEff_wf _ _ _ (fun _ => ?_)) w
  split
  · exact trivial
  · extract_lets -underBinder
    exact w1

theorem execMwaitn_wf (h : Hd) (a : BitVec 5) (s : State) (w : Canon s) : CanonNext (execMwaitn h a s) := by
  unfold execMwaitn
  refine runGuarded_canon (fun _ w1 => ?_) w
  extract_lets -underBinder
  split
  · exact w1
  · exact trivial

/-! ### MSTAT (R273) -/

theorem execMstat_wf (h : Hd) (c : BitVec 1) (d : BitVec 5) (s : State) (w : Canon s) : CanonNext (execMstat h c d s) := by
  unfold execMstat
  refine runGuarded_canon (fun _ w1 => ?_) w
  extract_lets -underBinder _ s11
  have w_s11 : Canon s11 := by
    unfold s11
    split <;> exact w1
  exact Canon.of_mem (writeX_mem ..) w_s11

/-! ### A k-step (R91 to R95, R252 to R254) -/

theorem kStepTile_wf (s : State) (n : Nat) (e : Nest) (w : Canon s) : Canon (kStepTile s n e) := by
  unfold kStepTile
  extract_lets -underBinder
  split
  · split
    · extract_lets -underBinder _ _ _ _ _ _ _ _ _ _ s1
      have w_s1 : Canon s1 := w
      split <;> exact w_s1

/-! ### Tile operations (R266, R267) -/

theorem tileOp_wf (s : State) (n : Nat) (e : Nest) (w : Canon s) : Canon (tileOp s n e) := by
  unfold tileOp
  extract_lets -underBinder
  split
  · extract_lets -underBinder
    exact w
  · exact w
  · extract_lets -underBinder _ _ _ _ s1
    have w_s1 : Canon s1 := w
    split <;> exact w_s1
  · exact w
  · exact w

/-! ### Starting and arbitration (R255, R256, R269, R270, R275) -/

theorem giveArray_wf (s : State) (core n : Nat) (w : Canon s) : Canon (giveArray s core n) := by
  unfold giveArray
  split
  · exact w
  · extract_lets -underBinder s1
    have w_s1 : Canon s1 := by
      unfold s1
      split <;> exact w
    clear_value s1
    exact w_s1

theorem arbitrate_wf (s : State) (core : Nat) (cur : Option (Nat × Bool)) (w : Canon s) : Canon (arbitrate s core cur) := by
  unfold arbitrate
  split
  · exact w
  · extract_lets -underBinder s1
    have w_s1 : Canon s1 := by
      unfold s1
      split
      · split <;> exact w
      · exact w
    exact giveArray_wf _ _ _ w_s1

theorem startOffArray_wf (s : State) (n : Nat) (e : Nest) (w : Canon s) : Canon (startOffArray s n e) := by
  unfold startOffArray
  extract_lets -underBinder s1
  have w_s1 : Canon s1 := w
  split <;> exact w_s1

theorem execNestStart_wf (core : Nat) (s : State) (w : Canon s) : CanonNext (execNestStart core s) := by
  unfold execNestStart
  extract_lets -underBinder
  split
  · exact .next (startOffArray_wf _ _ _ w)
  · exact .next (startOffArray_wf _ _ _ w)
  · split
    · exact .next (arbitrate_wf _ _ _ w)
    · exact .next w

/-! ### The k-step event (R254, R269, R270, R498) -/

theorem refetchSlot_wf (s : State) (n : Nat) (e : Nest) (k : Nat) (w : Canon s) : Canon (refetchSlot s n e k) := by
  unfold refetchSlot
  extract_lets -underBinder _ _ bad
  have w_bad : ∀ (sub : Nat), Canon (bad sub) := by
    unfold bad
    intro _
    extract_lets -underBinder s1
    have w_s1 : Canon s1 := asyncFault_wf _ _ _ _ w
    exact arbitrate_wf _ _ _ w_s1
  split
  · exact w_bad _
  · split
    · exact w_bad _
    · split
      · exact w_bad _
      · extract_lets -underBinder _ s1
        have w_s1 : Canon s1 := w
        exact reportFault_wf _ _ _ w_s1

theorem afterStep_wf (s : State) (n : Nat) (e : Nest) (w : Canon s) : Canon (afterStep s n e) := by
  unfold afterStep
  extract_lets -underBinder _ _ s1 s2
  have w_s1 : Canon s1 := by
    unfold s1
    split <;> exact w
  have w_s2 : Canon s2 := by
    unfold s2
    split <;> exact w_s1
  exact w_s2

theorem execKstep_wf (core : Nat) (s : State) (w : Canon s) : CanonNext (execKstep core s) := by
  unfold execKstep
  split
  · exact .next w
  · split
    · exact .next w
    · split
      · exact .next w
      · split
        · exact .next w
        · split
          · exact .next w
          · split
            · exact .next (refetchSlot_wf _ _ _ _ w)
            · extract_lets -underBinder s1
              have w_s1 : Canon s1 := afterStep_wf _ _ _ (kStepTile_wf _ _ _ w)
              exact .next (arbitrate_wf _ _ _ w_s1)

theorem execTileOpComplete_wf (core : Nat) (s : State) (w : Canon s) : CanonNext (execTileOpComplete core s) := by
  unfold execTileOpComplete
  split
  · exact .next w
  · split
    · exact .next w
    · split
      · exact .next w
      · exact .next (arbitrate_wf _ _ _ (Canon.of_mem (State.modNest_mem ..) (tileOp_wf _ _ _ w)))

/-! ### Retirement (R259, R263) -/

theorem retireScratch_wf (s : State) (n : Nat) (m : MRegs) (r : Retire) (w : Canon s) : CanonOk (retireScratch s n m r) := by
  unfold retireScratch
  extract_lets -underBinder
  split
  · exact .error _
  · extract_lets -underBinder s1
    have w_s1 : Canon s1 := writePieces_wf _ _ _ _ (Canon.of_mem (walked_mem ..) w)
    refine .ok ?_
    split
    · exact foldl_wf _ _ (fun _ _ w1 => w1) w_s1
    · exact w_s1

theorem retireWindow_wf (s : State) (c : Nat) (m : MRegs) (tile : Nat) (w : Canon s) : Canon (retireWindow s c m tile) := by
  unfold retireWindow
  split
  · exact w
  · extract_lets -underBinder
    exact w

/-- Of the read and the store of the error memory the proof uses that they keep memory. -/
theorem retireBuckets_wf (s : State) (n : Nat) (r : Retire) (d : Desc) (w : Canon s) : CanonOkFst (retireBuckets s n r d) := by
  have kf := fetchAll_wf
  have ks := storeAll_canon
  rw [retireBuckets]
  generalize fetchAll = fetch at kf ⊢
  generalize storeAll = store at ks ⊢
  as_aux_lemma =>
    split
    · exact .ok w
    · exact .ok w
    · extract_lets -underBinder
      split
      · exact .error _
      · split
        · exact .error _
        · split
          · exact .error _
          · next s0 _ _ h3 =>
              have w_s0 : Canon s0 := canon_ok_fst h3 (kf _ _ _ _ w)
              extract_lets -underBinder
              split
              · exact .error _
              · next s1 h4 =>
                  have w_s1 : Canon s1 := canon_ok h4 (ks _ _ _ _ w_s0)
                  exact .ok w_s1
    · exact .ok w

theorem retireSignal_wf (s : State) (n : Nat) (e : Nest) (w : Canon s) : Canon (retireSignal s n e) := by
  unfold retireSignal
  extract_lets -underBinder
  split
  · exact w
  · split
    · exact w
    · exact asyncFault_wf _ _ _ _ w

theorem retireFails_wf (s : State) (n : Nat) (e : Nest) (t : Trap) (w : Canon s) : Canon (retireFails s n e t) := asyncFault_wf _ _ _ _ w

theorem retireReduce_wf (s : State) (core n : Nat) (e : Nest) (r : Retire) (w : Canon s) : Canon (retireReduce s core n e r) := by
  unfold retireReduce
  extract_lets -underBinder
  split
  · exact w
  · split
    · split
      · exact w
      · exact retireFails_wf _ _ _ _ w
    · next s0 _ _ h1 =>
        have w_s0 : Canon s0 := canon_ok_fst h1 (fetchAll_wf _ _ _ _ w)
        split
        · split
          · exact w
          · exact retireFails_wf _ _ _ _ w_s0
        · next s1 _ h2 =>
            have w_s1 : Canon s1 := canon_ok_fst h2 (retireBuckets_wf _ _ _ _ w_s0)
            exact w_s1

theorem execRetirementComplete_wf (core : Nat) (s : State) (w : Canon s) : CanonNext (execRetirementComplete core s) := by
  unfold execRetirementComplete
  split
  · exact .next w
  · split
    · split
      · exact .next w
      · extract_lets -underBinder
        split
        · split
          · split
            · exact .next w
            · exact .next (retireFails_wf _ _ _ _ w)
          · next s1 h5 =>
              have w_s1 : Canon s1 := canon_ok h5 (retireScratch_wf _ _ _ _ w)
              exact .next (retireSignal_wf _ _ _ w_s1)
        · exact .next (retireSignal_wf _ _ _ (Canon.of_mem (freePort_mem ..) (retireWindow_wf _ _ _ _ w)))
        · exact .next (retireReduce_wf _ _ _ _ _ w)
    · exact .next w

theorem endReduce_wf (s : State) (n : Nat) (h : Handoff) (w : Canon s) : Canon (endReduce s n h) := by
  unfold endReduce
  split
  · exact w
  · exact retireSignal_wf _ _ _ w

/-! ### Completion (R247, R255) -/

theorem execNestEntryComplete_wf (slot : Nat) (s : State) (w : Canon s) : CanonNext (execNestEntryComplete slot s) := by
  unfold execNestEntryComplete
  split
  · exact .next w
  · split <;> exact .next w

theorem ageNests_wf (s : State) (w : Canon s) : Canon (ageNests s) := ageTick_wf _ _ _ w (fun _ w1 => w1)
theorem execNestAgeTick_wf (s : State) (w : Canon s) : CanonNext (execNestAgeTick s) := .next (ageNests_wf _ w)

/-! ### Limits (R393, R394) -/

theorem execGovLimitsWrite_wf (m : Master) (d : Word) (s : State) (w : Canon s) : CanonNext (execGovLimitsWrite m d s) := by
  unfold execGovLimitsWrite
  split
  · exact .next w
  · split
    · exact .next w
    · extract_lets -underBinder
      exact .next w

/-! ### Ramp slots (R396 to R399, R403) -/

theorem rampNow_wf (s : State) (p : Nat) (w : Canon s) : Canon (rampNow s p).1 := w

/-! ### Estimates (R395) -/

theorem estimateAll_wf (s : State) (cs : List Nat) (w : Canon s) : Canon (estimateAll s cs) := by
  unfold estimateAll
  refine foldl_wf _ _ (fun _ _ w1 => ?_) w
  extract_lets -underBinder s1
  have w_s1 : Canon s1 := foldl_wf _ _ (fun _ _ w2 => w2) w1
  exact w_s1

/-! ### Ballast (R404) -/

theorem execBallastStep_wf (s : State) (w : Canon s) : CanonNext (execBallastStep s) := by
  unfold execBallastStep
  extract_lets -underBinder _ s1 _ _ _ s3
  have w_s1 : Canon s1 := estimateAll_wf _ _ w
  have w_s3 : Canon s3 := foldl_wf _ _ (fun _ _ w1 => w1) w_s1
  exact .next w_s3

/-! ### Code objects (R76, R78) -/

theorem headerRead_wf (s : State) (cls ctx : Nat) (code : Word) (w : Canon s) : Canon (headerRead s cls ctx code) := Canon.of_mem (readied_mem ..) w

theorem listRead_wf (s : State) (cls ctx : Nat) (a : Word) (n : Nat) (w : Canon s) : Canon (listRead s cls ctx a n) := by
  unfold listRead
  split
  · exact w
  · exact Canon.of_mem (readied_mem ..) w

/-! ### Banks and the spill region (R306, R307) -/

theorem spillWrite_wf (s : State) (r : TaskRec) (i : Nat) (w : Canon s) : Canon (spillWrite s r i) := by
  unfold spillWrite
  extract_lets -underBinder
  split
  · exact w
  · split
    · exact w
    · exact writePieces_wf _ _ _ _ w

theorem enqueue_wf (s : State) (r : TaskRec) (w : Canon s) : CanonSome (enqueue s r) := by
  unfold enqueue
  extract_lets -underBinder _ _ s1
  have w_s1 : Canon s1 := by
    unfold s1
    split
    · exact spillWrite_wf _ _ _ w
    · exact w
  split
  · exact .none
  · exact .some w_s1

theorem State.modRec_wf (s : State) (id : Nat) (f : TaskRec → TaskRec) (w : Canon s) : Canon (s.modRec id f) := by
  unfold State.modRec
  split <;> exact w

theorem readyNow_wf (s : State) (id : Nat) (w : Canon s) : Canon (readyNow s id) := by
  unfold readyNow
  split
  · exact w
  · split
    · exact State.modRec_wf _ _ _ w
    · extract_lets -underBinder
      split
      · next s1 _ _ h2 =>
          have w_s1 : Canon s1 := canon_fst h2 (rampNow_wf _ _ w)
          exact State.modRec_wf _ _ _ w_s1

theorem wakeHeld_wf (s : State) (key : Nat) (w : Canon s) : Canon (wakeHeld s key) := foldl_wf _ _ (fun _ _ w1 => readyNow_wf _ _ w1) w

theorem execSpillRefill_wf (bank : Nat) (s : State) (w : Canon s) : CanonNext (execSpillRefill bank s) := by
  unfold execSpillRefill
  split
  · exact .next w
  · exact .next (State.modRec_wf _ _ _ w)

/-! ### Counters (R155, R303) -/

theorem wokenBy_wf (s : State) (ps : List Piece) (old new : Nat) (w : Canon s) : Canon (wokenBy s ps old new) := by
  unfold wokenBy
  split
  · exact wakeHeld_wf _ _ w
  · exact w

theorem takeFrom_wf (s : State) (r : Req) (ps : List Piece) (old v : Nat) (w : Canon s) : Canon (takeFrom s r ps old v).1 := by
  unfold takeFrom
  split
  · exact Canon.of_mem (l2Uses_mem ..) w
  · exact wokenBy_wf _ _ _ _ (writePieces_wf _ _ _ _ w)

theorem execTaskjoin_wf (h : Hd) (d a b : BitVec 5) (s : State) (w : Canon s) : CanonNext (execTaskjoin h d a b s) := by
  unfold execTaskjoin
  refine runGuarded_canon (fun _ w1 => ?_) w
  extract_lets -underBinder
  split
  · exact trivial
  · refine readEff_wf _ _ _ _ _ _ (fun _ _ => ?_)
    extract_lets -underBinder
    split
    · split
      · next s11 _ h3 =>
          have w_s11 : Canon s11 := canon_fst h3 (takeFrom_wf _ _ _ _ _ (Canon.of_mem (walked_mem ..) w1))
          exact Canon.of_mem (writeX_mem ..) w_s11
    · split
      · exact Canon.of_mem (writeX_mem ..) w1
      · split
        · next x2 h4 =>
            have w_x2 : Canon x2 := canon_ok h4 (ctlWrite_wf _ _ _ _ w1)
            exact Canon.of_mem (writeX_mem ..) (wokenBy_wf _ _ _ _ w_x2)
        · exact trivial

/-! ### TASKADD (R154, R301, R302, R465) -/

theorem addRecs_wf (s : State) (rs : List TaskRec) (w : Canon s) : CanonSome (addRecs s rs) := by
  induction rs generalizing s with
  | nil => exact .some w
  | cons r rs ih =>
    unfold addRecs
    split
    · exact .none
    · next s1 h =>
        have w1 : Canon s1 := enqueue_wf _ _ w _ h
        extract_lets s2
        have w2 : Canon s2 := by
          unfold s2
          split
          · exact w1
          · exact readyNow_wf _ _ w1
        apply ih
        split
        · exact Canon.of_mem (State.modLaunch_mem ..) w2
        · exact w2

theorem recReads_wf (s : State) (rs : List TaskRec) (w : Canon s) : Canon (recReads s rs) := by
  unfold recReads
  refine foldl_wf _ _ (fun _ _ w1 => ?_) w
  extract_lets -underBinder s1
  have w_s1 : Canon s1 := by
    unfold s1
    split
    · exact Canon.of_mem (readied_mem ..) w1
    · exact w1
  split
  · exact Canon.of_mem (readied_mem ..) w_s1
  · exact w_s1

theorem execTaskadd_wf (h : Hd) (d a b : BitVec 5) (s : State) (w : Canon s) : CanonNext (execTaskadd h d a b s) := by
  unfold execTaskadd
  refine runGuarded_canon (fun _ w1 => ?_) w
  extract_lets -underBinder _ _ add
  have w_add : ∀ (ps : List Piece) (bs : List Byte), (add ps bs).KeepsMemory := by
    unfold add
    intro _ _
    split
    · split <;> exact trivial
    · split
      · exact trivial
      · next s11 h2 =>
          have w_s11 : Canon s11 := canon_some h2 (addRecs_wf _ _ (recReads_wf _ _ (readUses_wf _ _ _ _ _ w1)))
          exact Canon.of_mem (writeX_mem ..) w_s11
  split
  · exact Canon.of_mem (writeX_mem ..) w1
  · split
    · exact trivial
    · split
      · exact readEff_wf _ _ _ _ _ _ (fun _ _ => w_add _ _)
      · exact piecesEff_wf _ _ _ _ (fun _ _ => w_add _ _)

/-! ### Eligibility (R309) -/

theorem execAffinityRelax_wf (record : Nat) (s : State) (w : Canon s) : CanonNext (execAffinityRelax record s) := by
  unfold execAffinityRelax
  split
  · exact .next w
  · exact .next (State.modRec_wf _ _ _ w)

/-! ### Pops (R308, R313) -/

theorem admitJob_wf (s : State) (n : Nat) (r : TaskRec) (h : List Byte) (start : Nat) (w : Canon s) : Canon (admitJob s n r h start) := by
  unfold admitJob
  extract_lets -underBinder _ _ s1
  have w_s1 : Canon s1 := clearRun_wf _ _ _ _ _ w
  exact w_s1

theorem execTaskPop_wf (slot pick : Nat) (s : State) (w : Canon s) : CanonNext (execTaskPop slot pick s) := by
  unfold execTaskPop
  split
  · exact .next w
  · extract_lets -underBinder
    split
    · exact .next w
    · split
      · exact .next (admitJob_wf _ _ _ _ _ (Canon.of_mem (dropRec_mem ..) (headerRead_wf _ _ _ _ w)))
      · exact .next w

/-! ### TASKGET (R154, R308) -/

theorem execTaskget_wf (h : Hd) (d a b : BitVec 5) (s : State) (w : Canon s) : CanonNext (execTaskget h d a b s) := by
  unfold execTaskget
  refine runGuarded_canon (fun _ w1 => ?_) w
  extract_lets -underBinder _ _ done
  have w_done : ∀ (s : State) (v : Word), Canon s → (done s v).KeepsMemory := fun _ _ w2 => Canon.of_mem (writeX_mem ..) w2
  split
  · exact trivial
  · split
    · exact trivial
    · extract_lets -underBinder
      split
      · next s11 h3 =>
          have w_s11 : Canon s11 := by
            refine canon_snd h3 ?_
            split
            · exact State.drawFree_wf _ w1
            · exact w1
          split
          · exact w_done _ _ (writePieces_wf _ _ _ _ (Canon.of_mem (walked_mem ..) w_s11))
          · split
            · exact w_done _ _ w1
            · exact trivial

theorem execTaskgetTimeout_wf (slot : Nat) (s : State) (w : Canon s) : CanonNext (execTaskgetTimeout slot s) := by
  unfold execTaskgetTimeout
  extract_lets -underBinder
  split
  · split
    · split <;> exact .next w
    · split <;> exact .next w
  · exact .next w

/-! ### Readiness and ages (R310, R398) -/

theorem execRecordReady_wf (record : Nat) (s : State) (w : Canon s) : CanonNext (execRecordReady record s) := by
  unfold execRecordReady
  split
  · exact .next w
  · split
    · exact .next (State.modRec_wf _ _ _ w)
    · exact .next w

theorem ageRecords_wf (s : State) (w : Canon s) : Canon (ageRecords s) := ageTick_wf _ _ _ w (fun _ w1 => w1)
theorem execRecordAgeTick_wf (s : State) (w : Canon s) : CanonNext (execRecordAgeTick s) := .next (ageRecords_wf _ w)

/-! ### Pre-emption (R315, R316, R474) -/

theorem noteFits_wf (s : State) (w : Canon s) : Canon (noteFits s) := by
  unfold noteFits
  split <;> exact w

theorem execPreemptionRequest_wf (id victim : Nat) (s : State) (w : Canon s) : CanonNext (execPreemptionRequest id victim s) := by
  unfold execPreemptionRequest
  split <;> exact .next w

/-! ### Registers (R311, R317) -/

theorem execTqReprio_wf (m : Master) (d : Word) (s : State) (w : Canon s) : CanonNext (execTqReprio m d s) := by
  unfold execTqReprio
  split
  · exact .next w
  · split <;> exact .next w

theorem writeSpillbase_wf (s : State) (d : Word) (w : Canon s) : Canon (writeSpillbase s d) := by
  unfold writeSpillbase
  split <;> exact w

/-! ### The record (R291, R292, R294) -/

theorem noteStarted_wf (s : State) (l : Launch) (w : Canon s) : Canon (noteStarted s l) := by
  unfold noteStarted
  extract_lets -underBinder
  split
  · exact w
  · exact reportFault_wf _ _ _ w

theorem submitLaunch_wf (s : State) (ctx : Nat) (addr : Word) (o : Origin) (graph : Option Nat) (w : Canon s) :
    CanonOk (submitLaunch s ctx addr o graph) := by
  unfold submitLaunch
  split
  · exact .error _
  · split
    · exact .error _
    · extract_lets -underBinder _ __src
      have w___src : Canon __src := Canon.of_mem (readied_mem ..) w
      exact .ok (noteStarted_wf _ _ w___src)

/-! ### Tarn requests of a code object (R387, R389) -/

theorem objectReads_wf (s : State) (cls ctx : Nat) (code : Word) (h : List Byte) (w : Canon s) : Canon (objectReads s cls ctx code h) :=
  listRead_wf _ _ _ _ _ (headerRead_wf _ _ _ _ w)

/-! ### Completion (R295, R304) -/

theorem endLaunchTarns_wf (s : State) (id : Nat) (w : Canon s) : Canon (endLaunchTarns s id) := by
  unfold endLaunchTarns
  extract_lets -underBinder s1
  have w_s1 : Canon s1 := settleTarns_wf _ w
  exact endTarns_wf _ _ w_s1

theorem completeLaunch_wf (s : State) (id : Nat) (w : Canon s) : Canon (completeLaunch s id) := by
  unfold completeLaunch
  split
  · exact w
  · extract_lets -underBinder s1 s2 _ s3
    have w_s1 : Canon s1 := storeLater_wf _ _ _ _ w
    clear_value s1
    have w_s2 : Canon s2 := endLaunchTarns_wf _ _ w_s1
    clear_value s2
    have w_s3 : Canon s3 := w_s2
    clear_value s3
    split <;> exact w_s3

theorem settleLaunch_wf (s : State) (id : Nat) (w : Canon s) : Canon (settleLaunch s id) := by
  unfold settleLaunch
  split
  · exact w
  · extract_lets -underBinder
    split
    · exact completeLaunch_wf _ _ w
    · exact w

/-! ### Failures at admission (R293, R295, R315) -/

theorem failLaunch_wf (s : State) (id : Nat) (t : Trap) (w : Canon s) : Canon (failLaunch s id t) := by
  unfold failLaunch
  split
  · exact w
  · extract_lets -underBinder
    exact completeLaunch_wf _ _ (reportFault_wf _ _ _ w)

/-! ### The checks (R293, R347, R504) -/

theorem checkReads_wf (s : State) (l : Launch) (w : Canon s) : Canon (checkReads s l) := by
  unfold checkReads
  split
  · exact w
  · exact listRead_wf _ _ _ _ _ (objectReads_wf _ _ _ _ _ w)

/-! ### Tarns (R381) -/

/-- Of the refill the proof uses `beginRefill_wf` alone. -/
theorem admitTarn_wf (s : State) (l : Launch) (e : TarnReq) (w : Canon s) : (admitTarn s l e).KeepsMemory := by
  have keeps := beginRefill_wf
  rw [admitTarn]
  generalize beginRefill = refill at keeps ⊢
  as_aux_lemma =>
    split
    · exact w
    · split
      · exact w
      · split
        · exact w
        · split
          · split
            · exact w
            · split
              · next s1 h => exact canon_snd h (keeps _ _ _ w)
              · next s1 h => exact canon_snd h (keeps _ _ _ w)
              · next s1 h => exact canon_snd (s := s1) h (keeps _ _ _ w)
          · exact w

theorem admitTarns_wf (s : State) (l : Launch) (es : List TarnReq) (w : Canon s) : (admitTarns s l es).KeepsMemory := by
  induction es generalizing s l with
  | nil => exact w
  | cons e es ih =>
    unfold admitTarns
    split
    · next h => exact ih _ _ (Adm.canon_go h (admitTarn_wf _ _ _ w))
    · exact admitTarn_wf _ _ _ w

/-! ### Ramp slots (R398, R403) -/

theorem assignRamp_wf (s : State) (l : Launch) (w : Canon s) : (assignRamp s l).KeepsMemory := by
  unfold assignRamp
  extract_lets -underBinder
  split
  · split
    · extract_lets -underBinder
      split
      · exact Canon.of_mem (State.modLaunch_mem ..) w
      · exact w

/-! ### Expansion (R305) -/

theorem expandLeaves_wf (s : State) (id fuel : Nat) (w : Canon s) : Canon (expandLeaves s id fuel) := by
  induction fuel generalizing s with
  | zero => exact w
  | succ fuel ih =>
    unfold expandLeaves
    split
    · exact w
    · split
      · exact w
      · split
        · exact w
        · next s1 h =>
            have w1 : Canon s1 := enqueue_wf _ _ w _ h
            refine ih _ (Canon.of_mem (State.modLaunch_mem ..) ?_)
            split
            · exact readyNow_wf _ _ w1
            · exact w1

theorem execHierarchyExpansion_wf (launch : Nat) (s : State) (w : Canon s) : CanonNext (execHierarchyExpansion launch s) := by
  unfold execHierarchyExpansion
  split
  · exact .next w
  · split
    · exact .next (expandLeaves_wf _ _ _ w)
    · exact .next w

theorem startLaunch_wf (s : State) (l : Launch) (w : Canon s) : Canon (startLaunch s l) := by
  unfold startLaunch
  extract_lets -underBinder _ s2
  have w_s2 : Canon s2 := by
    unfold s2
    split <;> exact w
  exact expandLeaves_wf _ _ _ w_s2

/-! ### Admission (R314) -/

theorem rampStep_wf (s : State) (l : Launch) (w : Canon s) : Canon (rampStep s l) := by
  unfold rampStep
  split
  · exact w
  · split
    · next s1 _ h1 =>
        have w_s1 : Canon s1 := Adm.canon_fail h1 (assignRamp_wf _ _ w)
        exact failLaunch_wf _ _ _ w_s1
    · next s1 _ h1 =>
        have w_s1 : Canon s1 := Adm.canon_wait h1 (assignRamp_wf _ _ w)
        exact w_s1
    · next s1 _ h1 =>
        have w_s1 : Canon s1 := Adm.canon_go h1 (assignRamp_wf _ _ w)
        split
        · exact startLaunch_wf _ _ w_s1
        · split
          · split
            · exact w
            · exact failLaunch_wf _ _ _ w_s1
          · split
            · exact failLaunch_wf _ _ _ w_s1
            · exact w_s1

theorem tarnStep_wf (s : State) (l : Launch) (w : Canon s) : Canon (tarnStep s l) := by
  unfold tarnStep
  split
  · next s1 _ h =>
      have w_s1 : Canon s1 := Adm.canon_fail h (admitTarns_wf _ _ _ w)
      exact failLaunch_wf _ _ _ w_s1
  · next s1 _ h =>
      have w_s1 : Canon s1 := Adm.canon_wait h (admitTarns_wf _ _ _ w)
      exact w_s1
  · next s1 _ h =>
      have w_s1 : Canon s1 := Adm.canon_go h (admitTarns_wf _ _ _ w)
      exact rampStep_wf _ _ w_s1

theorem execLaunchAdmission_wf (s : State) (w : Canon s) : CanonNext (execLaunchAdmission s) := by
  unfold execLaunchAdmission
  split
  · exact .next w
  · split
    · split
      · split
        · exact .next w
        · exact .next (failLaunch_wf _ _ _ w)
      · exact .next (tarnStep_wf _ _ (checkReads_wf _ _ w))
    · exact .next (tarnStep_wf _ _ w)
    · exact .next w

theorem finishReserve_wf (s : State) (l : Launch) (w : Canon s) : Canon (finishReserve s l) := by
  unfold finishReserve
  extract_lets -underBinder
  split
  · exact w
  · split
    · exact startLaunch_wf _ _ w
    · split
      · next s2 _ h2 =>
          have w_s2 : Canon s2 := Adm.canon_go h2 (assignRamp_wf _ _ w)
          exact startLaunch_wf _ _ w_s2
      · next s2 _ h2 =>
          have w_s2 : Canon s2 := Adm.canon_wait h2 (assignRamp_wf _ _ w)
          exact w_s2
      · next s2 _ h2 =>
          have w_s2 : Canon s2 := Adm.canon_fail h2 (assignRamp_wf _ _ w)
          exact failLaunch_wf _ _ _ w_s2

theorem execCoresidentReserve_wf (launch slot : Nat) (s : State) (w : Canon s) : CanonNext (execCoresidentReserve launch slot s) := by
  unfold execCoresidentReserve
  split
  · exact .next w
  · split
    · exact .next w
    · split
      · exact .next w
      · extract_lets -underBinder s1
        have w_s1 : Canon s1 := by
          unfold s1
          split <;> exact w
        exact .next (finishReserve_wf _ _ w_s1)

theorem execCowaitTimeout_wf (launch : Nat) (s : State) (w : Canon s) : CanonNext (execCowaitTimeout launch s) := by
  unfold execCowaitTimeout
  split
  · exact .next w
  · split
    · exact .next (failLaunch_wf _ _ _ w)
    · exact .next w

/-! ### What a job's start clears (R203, R231, R329) -/

theorem clearLanes_wf (s : State) (n : Nat) (w : Canon s) : Canon (clearLanes s n) := by
  unfold clearLanes
  extract_lets -underBinder
  exact filter_wf _ _ w

/-! ### The end of a job (R303, R304) -/

theorem takeJoin_wf (s : State) (n : Nat) (w : Canon s) : Canon (takeJoin s n) := by
  unfold takeJoin
  extract_lets -underBinder _ s1
  have w_s1 : Canon s1 := Canon.of_mem (State.modLaunch_mem ..) w
  split
  · exact Canon.of_mem (State.modLaunch_mem ..) w
  · split
    · exact w_s1
    · split
      · split <;> exact w_s1
      · split
        · exact w_s1
        · exact takeFrom_wf _ _ _ _ _ w_s1

theorem noteRan_wf (s : State) (n : Nat) (w : Canon s) : Canon (noteRan s n) := by
  unfold noteRan
  split <;> exact w

theorem freeJob_wf (s : State) (n : Nat) (w : Canon s) : Canon (freeJob s n) := by
  unfold freeJob
  extract_lets -underBinder s1 _ s2
  have w_s1 : Canon s1 := detachAll_wf _ _ (withdrawSlot_wf _ _ (noteRan_wf _ _ (Canon.of_mem (markJob_mem ..) (Canon.of_mem (dropPending_mem ..)
      (keepArrivals_wf _ _ w)))))
  clear_value s1
  have w_s2 : Canon s2 := by
    unfold s2
    split
    · exact w_s1
    · exact clearRun_wf _ _ _ _ _ w_s1
  clear_value s2
  exact settleContext_wf _ _ w_s2

theorem endJob_wf (s : State) (n : Nat) (w : Canon s) : Canon (endJob s n) := by
  unfold endJob
  extract_lets -underBinder
  exact settleLaunch_wf _ _ (freeJob_wf _ _ (takeJoin_wf _ _ w))

theorem execJobEnd_wf (slot : Nat) (s : State) (w : Canon s) : CanonNext (execJobEnd slot s) := by
  unfold execJobEnd
  split
  · exact .next (endJob_wf _ _ w)
  · exact .next w

theorem failStart_wf (s : State) (n : Nat) (f : Trap) (w : Canon s) : Canon (failStart s n f) := by
  unfold failStart
  extract_lets -underBinder
  exact endJob_wf _ _ (reportFault_wf _ _ _ w)

/-! ### The attachments of a start (R318, R389) -/

theorem attachOne_wf (s : State) (n : Nat) (e : TarnReq) (w : Canon s) : (attachOne s n e).KeepsMemory := by
  unfold attachOne
  extract_lets -underBinder
  split
  · exact w
  · split
    · next s1 h1 =>
        have w_s1 : Canon s1 := Att.canon_wait h1 (attachStep_wf _ _ _ _ _ w)
        exact w_s1
    · exact w
    · next s1 _ h1 =>
        have w_s1 : Canon s1 := Att.canon_done h1 (attachStep_wf _ _ _ _ _ w)
        extract_lets -underBinder s2 s3
        have w_s2 : Canon s2 := w_s1
        have w_s3 : Canon s3 := by
          unfold s3
          split
          · split
            · exact noteAttach_wf _ _ _ w_s2
            · exact w_s2
          · exact w_s2
        split
        · next x3 h2 =>
            have w_x3 : Canon x3 := canon_ok h2 (storeAll_canon _ _ _ _ w_s3)
            exact w_x3
        · split
          · exact w
          · exact w_s3

theorem attachAll_wf (s : State) (n : Nat) (es : List TarnReq) (w : Canon s) : (attachAll s n es).KeepsMemory := by
  induction es generalizing s with
  | nil => exact w
  | cons e es ih =>
    unfold attachAll
    split
    · next h => exact ih _ (Begin.canon_go h (attachOne_wf _ _ _ w))
    · exact attachOne_wf _ _ _ w

/-! ### The start (R110, R174, R213, R318) -/

theorem loadRings_wf (s : State) (n : Nat) (o : LoadedObj) (w : Canon s) : Canon (loadRings s n o) := by
  unfold loadRings
  extract_lets -underBinder s1
  have w_s1 : Canon s1 := foldl_wf _ _ (fun _ _ w1 => writeRing_wf _ _ _ _ _ (writeRing_wf _ _ _ _ _ (writeRing_wf _ _ _ _ _ w1))) w
  refine foldl_wf _ _ (fun _ _ w1 => ?_) w_s1
  extract_lets -underBinder
  exact w1

theorem startStreams_wf (s : State) (n : Nat) (h : List Byte) (live : Nat) (ranges : List (Nat × Nat)) (w : Canon s) :
    Canon (startStreams s n h live ranges) := by
  unfold startStreams
  extract_lets -underBinder _ s1
  have w_s1 : Canon s1 := Canon.of_mem (clearTiles_mem ..) (clearLanes_wf _ _ (dropArrivals_wf _ _ w))
  exact w_s1

theorem loadStart_wf (s : State) (n : Nat) (w : Canon s) : Canon (loadStart s n) := by
  unfold loadStart
  extract_lets -underBinder
  split
  · exact w
  · split
    · exact loadRings_wf _ _ _ w
    · exact w

theorem startReads_wf (s : State) (n : Nat) (w : Canon s) : Canon (startReads s n) := by
  unfold startReads
  extract_lets -underBinder
  split
  · exact listRead_wf _ _ _ _ _ (objectReads_wf _ _ _ _ _ w)
  · exact w

theorem startNew_wf (s0 : State) (n : Nat) (w : Canon s0) : Canon (startNew s0 n) := by
  unfold startNew
  extract_lets -underBinder s _ stop
  have w_s : Canon s := startReads_wf _ _ (loadStart_wf _ _ w)
  have w_stop : ∀ (f : Trap), Canon (stop f) := by
    unfold stop
    intro _
    split
    · exact w_s
    · exact failStart_wf _ _ _ w_s
  split
  · exact w_stop _
  · split
    · exact w_stop _
    · exact w_stop _
    · split
      · next s1 h4 =>
          have w_s1 : Canon s1 := Begin.canon_wait h4 (attachAll_wf _ _ _ w_s)
          exact w_s1
      · next s1 _ h4 =>
          have w_s1 : Canon s1 := Begin.canon_fail h4 (attachAll_wf _ _ _ w_s)
          split
          · exact w_s1
          · exact failStart_wf _ _ _ w_s1
      · next s1 h4 =>
          have w_s1 : Canon s1 := Begin.canon_go h4 (attachAll_wf _ _ _ w_s)
          exact startStreams_wf _ _ _ _ _ w_s1

/-! ### Restoring a stopped job (R249, R412, R477, R479) -/

theorem rebind_wf (s : State) (n v : Nat) (w : Canon s) : Canon (rebind s n v).1 := by
  unfold rebind
  extract_lets -underBinder
  split
  · exact w
  · refine foldl_fst_wf _ _ (fun _ _ w1 => ?_) w
    split <;> exact w1

theorem placeSaved_wf (s : State) (n start : Nat) (sv : Saved) (w : Canon s) : Canon (placeSaved s n start sv) :=
  foldl_memWrite_wf (fun e : Nat × Byte => (padKey (n / 2) (start + e.1), e.2)) _ _
    (foldl_memWrite_wf (fun e : Nat × Byte => (laneKey (n / 2) (e.1 / 512) (e.1 % 512 + 512 * (n % 2)), e.2)) _ _ w)

theorem restoreJob_wf (s : State) (n : Nat) (r : TaskRec) (sv : Saved) (w : Canon s) : Canon (restoreJob s n r sv) := by
  unfold restoreJob
  extract_lets -underBinder _ _ _ s1 s2 _ _ s4
  have w_s1 : Canon s1 := placeSaved_wf _ _ _ _ (Canon.of_mem (clearTiles_mem ..) (clearLanes_wf _ _ w))
  have w_s2 : Canon s2 := w_s1
  have w_s4 : Canon s4 := w_s2
  split
  · next x1 _ h =>
      have w_x1 : Canon x1 := by
        refine canon_fst h (foldl_fst_wf _ _ (fun _ _ w1 => ?_) w_s4)
        split
        · next x3 _ h1 =>
            have w_x3 : Canon x3 := canon_fst h1 (rebind_wf _ _ _ w1)
            exact w_x3
      extract_lets -underBinder s6
      have w_s6 : Canon s6 := dropArrivals_wf _ _ w_x1
      split
      · exact Canon.of_mem (jobTrap_mem ..) w_s6
      · exact w_s6

theorem finishRestore_wf (s : State) (n : Nat) (w : Canon s) : Canon (finishRestore s n) := by
  unfold finishRestore
  extract_lets -underBinder
  split <;> exact w

theorem execJobStart_wf (slot : Nat) (s : State) (w : Canon s) : CanonNext (execJobStart slot s) := by
  unfold execJobStart
  extract_lets -underBinder
  split
  · exact .next w
  · split
    · exact .next (finishRestore_wf _ _ w)
    · split
      · split
        · exact .next (finishRestore_wf _ _ (restoreJob_wf _ _ _ _ w))
        · exact .next (failStart_wf _ _ _ w)
      · exact .next (startNew_wf _ _ w)

/-! ### MSI-X (R538) -/

theorem sendMsix_wf (s : State) (vec : Nat) (w : Canon s) : Canon (sendMsix s vec) := by
  unfold sendMsix
  extract_lets -underBinder
  split <;> exact w

/-! ### Queues and their records (R17, R18) -/

theorem writeRecord_wf (s : State) (q off : Nat) (bs : List Byte) (w : Canon s) : Canon (writeRecord s q off bs) := storeLater_wf _ _ _ _ w
theorem mirrorFlags_wf (s : State) (q : Nat) (w : Canon s) : Canon (mirrorFlags s q) := writeRecord_wf _ _ _ _ w
theorem mirrorNext_wf (s : State) (q : Nat) (w : Canon s) : Canon (mirrorNext s q) := writeRecord_wf _ _ _ _ w
theorem mirrorRetired_wf (s : State) (q : Nat) (w : Canon s) : Canon (mirrorRetired s q) := writeRecord_wf _ _ _ _ w

/-! ### Unmapping (R34) -/

theorem unmapQueue_wf (s : State) (q : Nat) (pending : Bool) (w : Canon s) : Canon (unmapQueue s q pending) := by
  unfold unmapQueue
  extract_lets -underBinder s1
  have w_s1 : Canon s1 := w
  exact mirrorFlags_wf _ _ (mirrorNext_wf _ _ w_s1)

/-! ### Retiring and errors (R25, R29, R30) -/

theorem retire_wf (s : State) (q : Nat) (w : Canon s) : Canon (retire s q) := by
  unfold retire
  extract_lets -underBinder
  split
  · split
    · exact w
    · exact mirrorRetired_wf _ _ w

theorem settleError_wf (s : State) (q : Nat) (w : Canon s) : Canon (settleError s q) := by
  unfold settleError
  extract_lets -underBinder
  split
  · exact w
  · extract_lets -underBinder _ _ s1 s2 s3
    have w_s1 : Canon s1 := w
    have w_s2 : Canon s2 := writeRecord_wf _ _ _ _ (writeRecord_wf _ _ _ _ w_s1)
    have w_s3 : Canon s3 := mirrorFlags_wf _ _ (mirrorRetired_wf _ _ (mirrorNext_wf _ _ w_s2))
    split
    · exact w
    · split
      · exact sendMsix_wf _ _ w_s3
      · exact w_s3

theorem failPacket_wf (s : State) (q idx : Nat) (f : Trap) (w : Canon s) : Canon (failPacket s q idx f) := by
  unfold failPacket
  extract_lets -underBinder s1
  have w_s1 : Canon s1 := w
  exact settleError_wf _ _ w_s1

theorem donePacket_wf (s : State) (q idx : Nat) (w : Canon s) : Canon (donePacket s q idx) := by
  unfold donePacket
  extract_lets -underBinder s1
  have w_s1 : Canon s1 := w
  exact settleError_wf _ _ w_s1

/-! ### QCMD (R37 to R40) -/

theorem enableQueue_wf (s : State) (q : Nat) (w : Canon s) : Canon (enableQueue s q) := by
  unfold enableQueue
  extract_lets -underBinder _ idle
  have w_idle : Canon idle := Canon.of_mem (readied_mem ..) w
  split
  · split
    · exact w
    · exact w_idle
  · split
    · exact mirrorFlags_wf _ _ w_idle
    · exact w_idle

theorem execEnable_wf (m : Master) (q : Nat) (s : State) (w : Canon s) : CanonNext (execEnable m q s) := by
  unfold execEnable
  split
  · exact .next w
  · split
    · exact .next w
    · split
      · exact .next w
      · exact .next (enableQueue_wf _ _ w)

theorem execDisable_wf (m : Master) (q : Nat) (s : State) (w : Canon s) : CanonNext (execDisable m q s) := by
  unfold execDisable
  split
  · exact .next w
  · split
    · exact .next w
    · split
      · exact .next w
      · extract_lets -underBinder s1
        have w_s1 : Canon s1 := by
          unfold s1
          split
          · exact unmapQueue_wf _ _ _ w
          · exact w
        exact .next (settleError_wf _ _ w_s1)

theorem execDisableComplete_wf (s : State) (w : Canon s) : CanonNext (execDisableComplete s) := by
  unfold execDisableComplete
  split
  · exact .next w
  · extract_lets -underBinder s1 _ s2 s3
    have w_s1 : Canon s1 := retire_wf _ _ w
    have w_s2 : Canon s2 := w_s1
    have w_s3 : Canon s3 := mirrorFlags_wf _ _ (mirrorRetired_wf _ _ (mirrorNext_wf _ _ w_s2))
    split
    · exact .next w_s1
    · exact .next w_s3

/-! ### Mapping (R33 to R35) -/

theorem mapQueue_wf (s : State) (q h : Nat) (u : Queue) (w : Canon s) : Canon (mapQueue s q h u) := by
  unfold mapQueue
  extract_lets -underBinder s1
  have w_s1 : Canon s1 := w
  split
  · exact mirrorFlags_wf _ _ w_s1
  · exact w_s1

theorem schedule_wf (s : State) (w : Canon s) : Canon (schedule s) := by
  unfold schedule
  split
  · exact w
  · split
    · exact w
    · exact mapQueue_wf _ _ _ _ (Canon.of_mem (readied_mem ..) w)
  · split
    · split
      · exact unmapQueue_wf _ _ _ w
      · exact w
    · exact w

theorem execQueueMap_wf (s : State) (w : Canon s) : CanonNext (execQueueMap s) := by
  unfold execQueueMap
  extract_lets -underBinder s1
  have w_s1 : Canon s1 := by
    unfold s1
    split
    · exact enableQueue_wf _ _ w
    · exact w
  refine .next ?_
  split
  · exact w_s1
  · exact schedule_wf _ w_s1

theorem execIdleUnmap_wf (h : Nat) (s : State) (w : Canon s) : CanonNext (execIdleUnmap h s) := by
  unfold execIdleUnmap
  split
  · split
    · exact .next (unmapQueue_wf _ _ _ w)
    · exact .next w
  · exact .next w

theorem execTimesliceUnmap_wf (h : Nat) (s : State) (w : Canon s) : CanonNext (execTimesliceUnmap h s) := by
  unfold execTimesliceUnmap
  split
  · extract_lets -underBinder
    split
    · exact .next (unmapQueue_wf _ _ _ w)
    · exact .next w
  · exact .next w

/-! ### WAIT (R26) -/

theorem waitRead_wf (s : State) (u : Queue) (p : Packet) (w : Canon s) : Canon (waitRead s u p) := Canon.of_mem (readied_mem ..) w

theorem recheck_wf (s : State) (q : Nat) (late : Bool) (w : Canon s) : Canon (recheck s q late) := by
  unfold recheck
  extract_lets -underBinder
  split
  · exact w
  · split
    · split
      · exact w
      · exact failPacket_wf _ _ _ _ w
    · exact donePacket_wf _ _ _ (waitRead_wf _ _ _ w)
    · split
      · exact failPacket_wf _ _ _ _ (waitRead_wf _ _ _ w)
      · exact Canon.of_mem (modPacket_mem ..) (waitRead_wf _ _ _ w)

theorem execWaitRecheck_wf (h : Nat) (s : State) (w : Canon s) : CanonNext (execWaitRecheck h s) := by
  unfold execWaitRecheck
  split
  · split
    · split
      · exact .next (recheck_wf _ _ _ w)
      · exact .next w
    · exact .next w
  · exact .next w

theorem execWaitTimeout_wf (h : Nat) (s : State) (w : Canon s) : CanonNext (execWaitTimeout h s) := by
  unfold execWaitTimeout
  split
  · split
    · extract_lets -underBinder
      split
      · exact .next (recheck_wf _ _ _ w)
      · exact .next w
    · exact .next w
  · exact .next w

/-! ### Notifies (R31, R32, R36, R40, R528) -/

theorem execNotify_wf (m : Master) (q : Nat) (s : State) (w : Canon s) : CanonNext (execNotify m q s) := by
  unfold execNotify
  extract_lets -underBinder
  split
  · exact .next w
  · split
    · exact .next (mirrorFlags_wf _ _ w)
    · split
      · exact .next (notePending_wf _ _ w)
      · exact .next (recheck_wf _ _ _ w)

/-! ### BAR2's ring area (R31) -/

theorem hostAccess_wf (s : State) (a : Nat) (op : HostOp) (w : Canon s) : Canon (hostAccess s a op) := by
  unfold hostAccess
  split
  · split <;> exact w
  · exact hostWrite_wf _ _ _ w

theorem hostDenied_wf (s : State) (a : HostOp) (w : Canon s) : Canon (hostDenied s a) := by
  unfold hostDenied
  split <;> exact w

theorem notifyPage_wf (off : Nat) (op : HostOp) (s : State) (w : Canon s) : CanonNext (notifyPage off op s) := by
  unfold notifyPage
  split
  · exact .next (hostDenied_wf _ _ w)
  · split
    · exact execNotify_wf _ _ _ w
    · exact .next w

theorem execBar2RingAccess_wf (off : Nat) (op : HostOp) (s : State) (w : Canon s) : CanonNext (execBar2RingAccess off op s) := by
  unfold execBar2RingAccess
  extract_lets -underBinder
  split
  · exact .next w
  · split
    · exact notifyPage_wf _ _ _ w
    · split
      · exact .next w
      · split
        · exact .next (hostDenied_wf _ _ w)
        · exact .next (hostAccess_wf _ _ _ w)

/-! ### Fetching (R19 to R22, R32) -/

theorem entryError_wf (s : State) (q : Nat) (f : Trap) (w : Canon s) : Canon (entryError s q f) := by
  unfold entryError
  extract_lets -underBinder
  exact settleError_wf _ _ w

theorem execEntryFetch_wf (h : Nat) (s : State) (w : Canon s) : CanonNext (execEntryFetch h s) := by
  unfold execEntryFetch
  split
  · exact .next w
  · split
    · exact .next w
    · extract_lets -underBinder fail
      have w_fail : ∀ (t : Trap), CanonNext (fail t) := by
        unfold fail
        intro _
        split
        · exact .next w
        · exact .next (entryError_wf _ _ _ w)
      split
      · exact w_fail _
      · split
        · extract_lets -underBinder
          exact .next (Canon.of_mem (State.setQ_mem ..) (Canon.of_mem (readied_mem ..) w))
        · split
          · exact w_fail _
          · exact .next (Canon.of_mem (State.setQ_mem ..) (Canon.of_mem (readied_mem ..) w))

theorem execFetchPoll_wf (h : Nat) (s : State) (w : Canon s) : CanonNext (execFetchPoll h s) := by
  unfold execFetchPoll
  split
  · split
    · split <;> exact .next w
    · exact .next w
  · exact .next w

/-! ### Starting packets (R23 to R25, R29) -/

theorem runPacket_wf (s : State) (h ty : Nat) (f : State → Nat → Queue → Packet → State) (w : Canon s)
    (hf : ∀ (t : State) (n : Nat) (q : Queue) (p : Packet), Canon t → Canon (f t n q p)) : CanonNext (runPacket s h ty f) := by
  unfold runPacket
  split
  · exact .next w
  · split
    · exact .next w
    · split
      · exact .next w
      · split
        · exact .next w
        · split
          · exact .next (failPacket_wf _ _ _ _ w)
          · split
            · exact .next (failPacket_wf _ _ _ _ w)
            · exact .next (hf _ _ _ _ w)

theorem finishPacket_wf (s : State) (q idx : Nat) (a : State × Option Trap) (w : Canon s) (ha : Canon a.1) : Canon (finishPacket s q idx a) := by
  unfold finishPacket
  split
  · exact donePacket_wf _ _ _ ha
  · split
    · exact w
    · exact failPacket_wf _ _ _ _ ha

/-! ### The packets of memory (R26) -/

theorem storeRun_wf (s : State) (r : Req) (fuel : Nat) (a : Word) (bs : List Byte) (w : Canon s) : Canon (storeRun s r fuel a bs).1 := by
  induction fuel generalizing s a bs with
  | zero => exact w
  | succ fuel ih =>
    unfold storeRun
    split
    · exact w
    · dsimp only
      split
      · exact w
      · split
        · exact w
        · next s1 h => exact ih s1 _ _ (storeAll_wf s s1 _ _ _ h w)

theorem storeRunAll_wf (s : State) (r : Req) (a : Word) (bs : List Byte) (w : Canon s) : Canon (storeRunAll s r a bs).1 := storeRun_wf _ _ _ _ _ w

theorem poisonRun_wf (s : State) (r : Req) (a : Word) (n : Nat) (bad : List (Nat × Nat)) (w : Canon s) : Canon (poisonRun s r a n bad) := by
  unfold poisonRun
  split
  · exact w
  · split
    · exact spreadRuns_wf _ _ _ _ w
    · exact w

theorem copyRun_wf (s : State) (r : Req) (src dst : Word) (n : Nat) (w : Canon s) : Canon (copyRun s r src dst n).1 := by
  unfold copyRun
  split
  · exact w
  · split
    · exact w
    · split
      · next s1 h2 =>
          have w_s1 : Canon s1 := canon_fst h2 (storeRunAll_wf _ _ _ _ (Canon.of_mem (readied_mem ..) w))
          exact poisonRun_wf _ _ _ _ _ w_s1
      · exact storeRunAll_wf _ _ _ _ (Canon.of_mem (readied_mem ..) w)

theorem fillRun_wf (s : State) (r : Req) (p : Packet) (w : Canon s) : Canon (fillRun s r p).1 := by
  unfold fillRun
  extract_lets -underBinder
  split
  · exact w
  · exact storeRunAll_wf _ _ _ _ w

theorem signalRun_wf (s : State) (r : Req) (op : Nat) (a v : Word) (msi : Nat) (w : Canon s) : Canon (signalRun s r op a v msi).1 := by
  unfold signalRun
  extract_lets -underBinder send
  have w_send : ∀ (s : State), Canon s → Canon (send s) := by
    unfold send
    intro _ w1
    split
    · exact sendMsix_wf _ _ w1
    · exact w1
  split
  · exact w_send _ w
  · split
    · exact w
    · split
      · exact w
      · extract_lets -underBinder
        exact w_send _ (writePieces_wf _ _ _ _ (Canon.of_mem (walked_mem ..) w))

theorem execNopPacket_wf (h : Nat) (s : State) (w : Canon s) : CanonNext (execNopPacket h s) :=
  runPacket_wf _ _ _ _ w (fun _ _ _ _ w1 => donePacket_wf _ _ _ w1)

theorem execFencePacket_wf (h : Nat) (s : State) (w : Canon s) : CanonNext (execFencePacket h s) :=
  runPacket_wf _ _ _ _ w (fun _ _ _ _ w1 => donePacket_wf _ _ _ w1)

theorem execWritePacket_wf (h : Nat) (s : State) (w : Canon s) : CanonNext (execWritePacket h s) :=
  runPacket_wf _ _ _ _ w (fun _ _ _ _ w1 => finishPacket_wf _ _ _ _ w1 (storeRunAll_wf _ _ _ _ w1))

theorem execFillPacket_wf (h : Nat) (s : State) (w : Canon s) : CanonNext (execFillPacket h s) :=
  runPacket_wf _ _ _ _ w (fun _ _ _ _ w1 => finishPacket_wf _ _ _ _ w1 (fillRun_wf _ _ _ w1))

theorem execCopyPacket_wf (h : Nat) (s : State) (w : Canon s) : CanonNext (execCopyPacket h s) :=
  runPacket_wf _ _ _ _ w (fun _ _ _ _ w1 => finishPacket_wf _ _ _ _ w1 (copyRun_wf _ _ _ _ _ w1))

theorem execSignalPacket_wf (h : Nat) (s : State) (w : Canon s) : CanonNext (execSignalPacket h s) :=
  runPacket_wf _ _ _ _ w (fun _ _ _ _ w1 => finishPacket_wf _ _ _ _ w1 (signalRun_wf _ _ _ _ _ _ w1))

theorem execTimestampPacket_wf (h : Nat) (s : State) (w : Canon s) : CanonNext (execTimestampPacket h s) :=
  runPacket_wf _ _ _ _ w (fun _ _ _ _ w1 => finishPacket_wf _ _ _ _ w1 (signalRun_wf _ _ _ _ _ _ w1))

theorem execWaitPacket_wf (h : Nat) (s : State) (w : Canon s) : CanonNext (execWaitPacket h s) := by
  unfold execWaitPacket
  refine runPacket_wf _ _ _ _ w (fun _ _ _ _ w1 => ?_)
  split
  · split
    · exact w1
    · exact failPacket_wf _ _ _ _ w1
  · exact donePacket_wf _ _ _ (waitRead_wf _ _ _ w1)
  · exact Canon.of_mem (modPacket_mem ..) (waitRead_wf _ _ _ w1)

/-! ### LAUNCH (R27) -/

theorem execLaunchPacket_wf (h : Nat) (s : State) (w : Canon s) : CanonNext (execLaunchPacket h s) := by
  unfold execLaunchPacket
  refine runPacket_wf _ _ _ _ w (fun _ _ _ _ w1 => ?_)
  split
  · exact failPacket_wf _ _ _ _ w1
  · split
    · split
      · exact w1
      · exact failPacket_wf _ _ _ _ w1
    · next s1 h2 =>
        have w_s1 : Canon s1 := canon_ok h2 (submitLaunch_wf _ _ _ _ _ w1)
        exact w_s1

/-! ### SEGADMIN (R390, R391) -/

theorem finishAdmin_wf (s : State) (q : Nat) (u : Queue) (p : Packet) (f : Nat × Nat) (v : Word) (w : Canon s) : Canon (finishAdmin s q u p f v) := by
  unfold finishAdmin
  extract_lets -underBinder
  split
  · split
    · exact w
    · exact failPacket_wf _ _ _ _ w
  · next s1 h =>
      have w_s1 : Canon s1 := canon_ok h (storeAll_canon _ _ _ _ w)
      split
      · split
        · exact w
        · exact failPacket_wf _ _ _ _ w_s1
      · next s11 h1 =>
          have w_s11 : Canon s11 := canon_ok h1 (storeAll_canon _ _ _ _ w_s1)
          exact donePacket_wf _ _ _ w_s11

theorem adminNew_wf (s : State) (q : Nat) (u : Queue) (p : Packet) (r : List Byte) (w : Canon s) : Canon (adminNew s q u p r) := by
  unfold adminNew
  extract_lets -underBinder
  split
  · exact finishAdmin_wf _ _ _ _ _ _ w
  · split
    · next s1 _ h1 =>
        have w_s1 : Canon s1 := New.canon_made h1 (newTarn_wf _ _ _ _ _ _ w)
        exact w_s1
    · next s1 h1 =>
        have w_s1 : Canon s1 := New.canon_wait h1 (newTarn_wf _ _ _ _ _ _ w)
        exact w_s1
    · next s1 h1 =>
        have w_s1 : Canon s1 := New.canon_fail h1 (newTarn_wf _ _ _ _ _ _ w)
        exact finishAdmin_wf _ _ _ _ _ _ w_s1

theorem adminSeg_wf (s : State) (q : Nat) (u : Queue) (p : Packet) (a : Seg) (w : Canon s) (ha : a.KeepsMemory) : Canon (adminSeg s q u p a) := by
  unfold adminSeg
  split
  · exact finishAdmin_wf _ _ _ _ _ _ ha
  · exact ha
  · exact finishAdmin_wf _ _ _ _ _ _ w

theorem adminOp_wf (s : State) (q : Nat) (u : Queue) (p : Packet) (r : List Byte) (w : Canon s) : Canon (adminOp s q u p r) := by
  unfold adminOp
  extract_lets -underBinder
  split
  · exact adminNew_wf _ _ _ _ _ w
  · exact adminSeg_wf _ _ _ _ _ w (segEvict_wf _ _ _ _ w)
  · exact adminSeg_wf _ _ _ _ _ w (segDrop_wf _ _ _ _ w)
  · exact finishAdmin_wf _ _ _ _ _ _ w

theorem adminStep_wf (s : State) (q : Nat) (u : Queue) (p : Packet) (op : Nat) (w : Canon s) : Canon (adminStep s q u p op) := by
  unfold adminStep
  split
  · exact finishAdmin_wf _ _ _ _ _ _ w
  · split
    · exact w
    · split
      · split
        · exact w
        · exact failPacket_wf _ _ _ _ w
      · extract_lets -underBinder s1
        have w_s1 : Canon s1 := Canon.of_mem (readied_mem ..) w
        split
        · exact failPacket_wf _ _ _ _ w_s1
        · split
          · exact adminOp_wf _ _ _ _ _ w_s1
          · exact w

theorem adminGoOn_wf (op : Nat) (s : State) (e : Nat × Nat) (w : Canon s) : Canon (adminGoOn op s e) := by
  unfold adminGoOn
  split
  · exact adminStep_wf _ _ _ _ _ w
  · exact w

theorem adminEvent_wf (s : State) (h op : Nat) (w : Canon s) : CanonNext (adminEvent s h op) := by
  unfold adminEvent
  extract_lets -underBinder s1
  have w_s1 : Canon s1 := foldl_wf _ _ (fun _ _ w1 => adminGoOn_wf _ _ _ w1) w
  refine runPacket_wf _ _ _ _ w_s1 (fun _ _ _ _ w1 => ?_)
  split
  · exact failPacket_wf _ _ _ _ w1
  · exact adminStep_wf _ _ _ _ _ w1

theorem execSegadminNew_wf (h : Nat) (s : State) (w : Canon s) : CanonNext (execSegadminNew h s) := adminEvent_wf _ _ _ w
theorem execSegadminEvict_wf (h : Nat) (s : State) (w : Canon s) : CanonNext (execSegadminEvict h s) := adminEvent_wf _ _ _ w
theorem execSegadminDrop_wf (h : Nat) (s : State) (w : Canon s) : CanonNext (execSegadminDrop h s) := adminEvent_wf _ _ _ w
theorem execSegadminQuery_wf (h : Nat) (s : State) (w : Canon s) : CanonNext (execSegadminQuery h s) := adminEvent_wf _ _ _ w

/-! ### Completion (R25, R27) -/

theorem execPacketComplete_wf (h n : Nat) (s : State) (w : Canon s) : CanonNext (execPacketComplete h n s) := by
  unfold execPacketComplete
  extract_lets -underBinder
  split
  · exact .next w
  · extract_lets -underBinder s1
    have w_s1 : Canon s1 := by
      unfold s1
      split
      · exact donePacket_wf _ _ _ w
      · exact w
    exact .next (retire_wf _ _ w_s1)

/-! ### The table (R277 to R279, R281) -/

theorem tableRead_wf (s : State) (ctx : Nat) (a : Word) (nodes : Nat) (w : Canon s) : Canon (tableRead s ctx a nodes) :=
  Canon.of_mem (readied_mem ..) w

/-! ### Graphs and nodes -/

theorem State.modGraph_wf (s : State) (g : Nat) (f : Graph → Graph) (w : Canon s) : Canon (s.modGraph g f) := by
  unfold State.modGraph
  split <;> exact w

theorem State.modGNode_wf (s : State) (g i : Nat) (f : GNode → GNode) (w : Canon s) : Canon (s.modGNode g i f) := State.modGraph_wf _ _ _ w

/-! ### The start of a node (R285) -/

theorem startAction_wf (s : State) (g i : Nat) (w : Canon s) : Canon (startAction s g i) := by
  unfold startAction
  split
  · exact w
  · next x _ _ =>
      extract_lets -underBinder _ _ fault ran
      have w_fault : ∀ (t : Trap), Canon (fault t) := by
        unfold fault
        intro _
        split <;> exact w
      have w_ran : ∀ (x : State × Option Trap), Canon x.1 → Canon (ran x) := by
        unfold ran
        intro _ w1
        split
        · split
          · exact w
          · exact w1
        · exact w1
      split
      · split
        · exact w_fault _
        · split
          · next x4 h3 =>
              have w_x4 : Canon x4 := canon_ok h3 (submitLaunch_wf _ _ _ _ _ w)
              exact w_x4
          · exact w_fault _
      · exact w_ran _ (copyRun_wf _ _ _ _ _ w)
      · exact w_ran _ (signalRun_wf _ _ _ _ _ _ w)
      · split
        · exact w_fault _
        · split
          · exact Canon.of_mem (complete_mem ..) (Canon.of_mem (readied_mem ..) w)
          · exact w_fault _
      · exact State.modGNode_wf _ _ _ _ w
      · exact w
      · exact w

theorem startNode_wf (s : State) (g i : Nat) (path : Bool) (w : Canon s) : Canon (startNode s g i path) :=
  startAction_wf _ _ _ (State.modGNode_wf _ _ _ _ w)

/-! ### The end of a graph (R282, R283) -/

theorem writeNode_wf (s : State) (r : Req) (a : Word) (n : GNode) (w : Canon s) : Canon (writeNode s r a n) := by
  unfold writeNode
  extract_lets -underBinder s1
  have w_s1 : Canon s1 := storeLater_wf _ _ _ _ w
  exact storeLater_wf _ _ _ _ w_s1

theorem endGraph_wf (s : State) (g : Nat) (w : Canon s) : Canon (endGraph s g) := by
  unfold endGraph
  split
  · exact w
  · extract_lets -underBinder _ s1 s2 s3
    have w_s1 : Canon s1 := storeLater_wf _ _ _ _ w
    have w_s2 : Canon s2 := foldl_wf _ _ (fun _ _ w1 => writeNode_wf _ _ _ _ w1) w_s1
    have w_s3 : Canon s3 := endTarns_wf _ _ w_s2
    exact w_s3

theorem settleGraph_wf (s : State) (g : Nat) (w : Canon s) : Canon (settleGraph s g) := by
  unfold settleGraph
  split
  · split
    · exact endGraph_wf _ _ w
    · exact w
  · exact w

/-! ### Failures (R290) -/

theorem failNode_wf (s : State) (g i code sub : Nat) (w : Canon s) : Canon (failNode s g i code sub) := by
  unfold failNode
  split
  · exact w
  · extract_lets -underBinder _ s1
    have w_s1 : Canon s1 := State.modGraph_wf _ _ _ w
    split
    · exact settleGraph_wf _ _ (State.modGraph_wf _ _ _ w_s1)
    · split
      · exact settleGraph_wf _ _ w_s1
      · split
        · exact settleGraph_wf _ _ (State.modGraph_wf _ _ _ w_s1)
        · split
          · exact State.modGNode_wf _ _ _ _ w_s1
          · exact startNode_wf _ _ _ _ (State.modGraph_wf _ _ _ w_s1)

/-! ### Successors (R284) -/

theorem takeSet_wf (s : State) (g i set : Nat) (w : Canon s) : Canon (takeSet s g i set) := by
  unfold takeSet
  split
  · exact w
  · split
    · exact settleGraph_wf _ _ w
    · split
      · exact failNode_wf _ _ _ _ _ w
      · exact foldl_wf _ _ (fun _ _ w1 => startNode_wf _ _ _ _ w1) w

/-! ### Completions (R284, R285) -/

theorem execCompletionProcessing_wf (i : Nat) (s : State) (w : Canon s) : CanonNext (execCompletionProcessing i s) := by
  unfold execCompletionProcessing
  split
  · exact .next w
  · split
    · exact .next w
    · extract_lets -underBinder
      split
      · exact .next w
      · extract_lets -underBinder
        split
        · exact .next (failNode_wf _ _ _ _ _ w)
        · extract_lets -underBinder s2
          have w_s2 : Canon s2 := State.modGNode_wf _ _ _ _ w
          split
          · exact .next (failNode_wf _ _ _ _ _ w_s2)
          · exact .next (takeSet_wf _ _ _ _ w_s2)

/-! ### Loops (R286) -/

theorem execLoopEvaluate_wf (g node : Nat) (s : State) (w : Canon s) : CanonNext (execLoopEvaluate g node s) := by
  unfold execLoopEvaluate
  split
  · exact .next w
  · extract_lets -underBinder _ _ _ s0 quit pred
    have w_s0 : Canon s0 := Canon.of_mem (readied_mem ..) w
    have w_quit : ∀ (r : Nat), Canon (quit r) := fun _ => takeSet_wf _ _ _ _ (State.modGNode_wf _ _ _ _ w_s0)
    split
    · exact .next w
    · clear_value pred
      split
      · split
        · exact .next w
        · exact .next (failNode_wf _ _ _ _ _ w)
      · split
        · exact .next (w_quit _)
        · split
          · exact .next (w_quit _)
          · split
            · exact .next (w_quit _)
            · exact .next (takeSet_wf _ _ _ _ w_s0)

/-! ### END (R283) -/

theorem execEndNode_wf (g node : Nat) (s : State) (w : Canon s) : CanonNext (execEndNode g node s) := by
  unfold execEndNode
  split
  · exact .next w
  · extract_lets -underBinder
    split
    · exact .next w
    · split
      · exact .next (settleGraph_wf _ _ (State.modGNode_wf _ _ _ _ w))
      · split
        · exact .next w
        · exact .next (endGraph_wf _ _ (State.modGNode_wf _ _ _ _ w))

/-! ### GRAPH packets (R281, R282) -/

theorem loadGraph_wf (s : State) (g : Nat) (w : Canon s) : Canon (loadGraph s g) := by
  unfold loadGraph
  split
  · exact w
  · split
    · exact w
    · extract_lets -underBinder s1 s2
      have w_s1 : Canon s1 := State.modGraph_wf _ _ _ w
      have w_s2 : Canon s2 := storeLater_wf _ _ _ _ w_s1
      exact startNode_wf _ _ _ _ (storeLater_wf _ _ _ _ w_s2)

theorem execGraphTableLoad_wf (g : Nat) (s : State) (w : Canon s) : CanonNext (execGraphTableLoad g s) := by
  unfold execGraphTableLoad
  split
  · exact .next w
  · exact .next (loadGraph_wf _ _ w)

theorem execGraphPacket_wf (h : Nat) (s : State) (w : Canon s) : CanonNext (execGraphPacket h s) := by
  unfold execGraphPacket
  refine runPacket_wf _ _ _ _ w (fun _ _ _ _ w1 => ?_)
  split
  · split
    · exact w1
    · exact failPacket_wf _ _ _ _ w1
  · extract_lets -underBinder _ _ __src
    have w___src : Canon __src := tableRead_wf _ _ _ _ w1
    exact loadGraph_wf _ _ w___src

/-! ### The cluster-shared share (R330) -/

theorem clearShared_wf (s : State) (cluster bytes : Nat) (w : Canon s) : Canon (clearShared s cluster bytes) := by
  unfold clearShared
  extract_lets -underBinder
  exact filter_wf _ _ w

theorem execClusterShareWrite_wf (m : Master) (cluster : Nat) (d : Word) (s : State) (w : Canon s) :
    CanonNext (execClusterShareWrite m cluster d s) := by
  unfold execClusterShareWrite
  split
  · exact .next w
  · split
    · exact .next w
    · extract_lets -underBinder
      split
      · exact .next w
      · exact .next (clearShared_wf _ _ _ w)

/-! ### Invalidation (R336, R337) -/

theorem execTlbinv_wf (m : Master) (d : Word) (s : State) (w : Canon s) : CanonNext (execTlbinv m d s) := by
  unfold execTlbinv
  split
  · exact .next w
  · split <;> exact .next w

theorem execTlbinvComplete_wf (s : State) (w : Canon s) : CanonNext (execTlbinvComplete s) := by
  unfold execTlbinvComplete
  split
  · exact .next w
  · extract_lets -underBinder
    refine .next ?_
    split
    · exact settleContext_wf _ _ w
    · exact w

/-! ### Ranges (R342) -/

theorem execRangeCtlWrite_wf (m : Master) (range : Nat) (d : Word) (s : State) (w : Canon s) : CanonNext (execRangeCtlWrite m range d s) := by
  unfold execRangeCtlWrite
  split
  · exact .next w
  · split
    · exact .next w
    · split
      · exact .next w
      · extract_lets -underBinder
        refine .next ?_
        split <;> exact w

/-! ### Ages of streams (R320, R321) -/

theorem ageStream_wf (s : State) (g : Agent) (w : Canon s) : Canon (ageStream s g) := by
  unfold ageStream
  split <;> exact w

theorem ageStreams_wf (s : State) (w : Canon s) : Canon (ageStreams s) := by
  unfold ageStreams
  split
  · exact w
  · refine foldl_wf _ _ (fun _ _ w1 => ?_) w
    split
    · exact ageStream_wf _ _ (ageStream_wf _ _ (ageStream_wf _ _ w1))
    · exact w1

theorem execStreamAgeTick_wf (s : State) (w : Canon s) : CanonNext (execStreamAgeTick s) := .next (ageStreams_wf _ w)

/-! ### The commands of firmware (R462 to R464) -/

theorem unstop_wf (s : State) (n : Nat) (prior : JobState) (w : Canon s) : Canon (unstop s n prior) := by
  unfold unstop
  extract_lets -underBinder s1
  have w_s1 : Canon s1 := w
  split <;> exact w_s1

theorem lateStop_wf (s : State) (core : Nat) (st : JobState) (w : Canon s) : Canon (lateStop s core st) := by
  unfold lateStop
  extract_lets -underBinder _ reject
  have w_reject : Canon reject := w
  split
  · exact w
  · split
    · exact w
    · exact w_reject
    · exact w
    · exact w_reject
    · exact w_reject
    · exact w

/-- The save area is written where it resolves, whatever the translation answers. -/
theorem fwStop_wf (s : State) (core : Nat) (w : Canon s) : Canon (fwStop s core) := by
  rw [fwStop]
  generalize resolve = translate
  as_aux_lemma =>
    split
    · exact lateStop_wf _ _ _ w
    · split
      · exact w
      · split
        · next s1 h2 =>
            have w_s1 : Canon s1 := canon_snd h2 (State.drawFree_wf _ (withdrawSlot_wf _ _ w))
            extract_lets -underBinder
            split
            · split
              · exact w
              · exact Canon.of_mem (fwEnd_mem ..) (unstop_wf _ _ _ w)
            · extract_lets -underBinder _ s2 s3
              have w_s2 : Canon s2 := writePieces_wf _ _ _ _ (Canon.of_mem (walked_mem ..) w_s1)
              clear_value s2
              have w_s3 : Canon s3 := w_s2
              clear_value s3
              exact w_s3

theorem execStop_wf (core : Nat) (s : State) (w : Canon s) : CanonNext (execStop core s) := by
  unfold execStop
  split
  · exact .next (fwStop_wf _ _ w)
  · exact .next w

theorem fwKill_wf (s : State) (core : Nat) (w : Canon s) : Canon (fwKill s core) := by
  unfold fwKill
  extract_lets -underBinder
  split
  · exact lateStop_wf _ _ _ w
  · split
    · exact w
    · split
      · split
        · exact w
        · exact Canon.of_mem (fwEnd_mem ..) (unstop_wf _ _ _ w)
      · next s1 h2 =>
          have w_s1 : Canon s1 := canon_ok h2 (storeAll_canon _ _ _ _ w)
          extract_lets -underBinder
          exact Canon.of_mem (fwEnd_mem ..) (freeJob_wf _ _ w_s1)

theorem execKill_wf (core : Nat) (s : State) (w : Canon s) : CanonNext (execKill core s) := by
  unfold execKill
  split
  · exact .next (fwKill_wf _ _ w)
  · exact .next w

theorem execReport_wf (core : Nat) (s : State) (w : Canon s) : CanonNext (execReport core s) := by
  unfold execReport
  extract_lets -underBinder _ _ report
  have w_report : ∀ (r : TrapRec), Canon (report r) := by
    unfold report
    intro _
    split
    · exact w
    · exact Canon.of_mem (fwEnd_mem ..) (endJob_wf _ _ (reportFault_wf _ _ _ w))
  split
  · exact .next w
  · refine .next ?_
    split
    · exact w_report _
    · exact Canon.of_mem (fwEnd_mem ..) (endJob_wf _ _ w)

theorem fwResume_wf (s : State) (core : Nat) (w : Canon s) : Canon (fwResume s core) := by
  unfold fwResume
  extract_lets -underBinder
  split
  · exact w
  · split
    · split <;> exact w
    · exact w
    · split
      · split <;> exact w
      · exact w
      · split
        · next s1 _ _ h4 =>
            have w_s1 : Canon s1 := canon_fst h4 (rampNow_wf _ _ w)
            extract_lets -underBinder _ _ s2
            have w_s2 : Canon s2 := restoreJob_wf _ _ _ _ (admitJob_wf _ _ _ _ _ (Canon.of_mem (readied_mem ..) (headerRead_wf _ _ _ _ w_s1)))
            clear_value s2
            exact w_s2

theorem execResume_wf (core : Nat) (s : State) (w : Canon s) : CanonNext (execResume core s) := by
  unfold execResume
  extract_lets -underBinder
  split
  · exact .next (fwResume_wf _ _ w)
  · exact .next w

theorem execFwCommandComplete_wf (core : Nat) (s : State) (w : Canon s) : CanonNext (execFwCommandComplete core s) := by
  unfold execFwCommandComplete
  extract_lets -underBinder
  split <;> exact .next w

/-! ### Registers written by events (R459, R460) -/

theorem execFwSelWrite_wf (core : Nat) (d : Word) (s : State) (w : Canon s) : CanonNext (execFwSelWrite core d s) := .next (fwSelWrite_wf _ _ _ w)
theorem execFwJcsrWrite_wf (core : Nat) (d : Word) (s : State) (w : Canon s) : CanonNext (execFwJcsrWrite core d s) := .next (fwJcsrWrite_wf _ _ _ w)

/-! ### ERET, WFE, STOPACK (R467) -/

theorem skipBundle_wf (s : State) (g : Agent) (w : Canon s) : Canon (skipBundle s g) := by
  unfold skipBundle
  split
  · exact w
  · extract_lets -underBinder _ _ s1
    have w_s1 : Canon s1 := countPending_wf _ w
    exact w_s1

theorem restartJob_wf (s : State) (n : Nat) (w : Canon s) : Canon (restartJob s n) := by
  unfold restartJob
  extract_lets -underBinder _ skip s1
  have w_s1 : Canon s1 := by
    unfold s1
    clear_value skip
    split
    · exact skipBundle_wf _ _ w
    · exact w
  split
  · next x1 _ h =>
      have w_x1 : Canon x1 := by
        refine canon_fst h (foldl_fst_wf _ _ (fun _ _ w1 => ?_) w_s1)
        split
        · next x3 _ h1 =>
            have w_x3 : Canon x3 := canon_fst h1 (rebind_wf _ _ _ w1)
            exact w_x3
      extract_lets -underBinder s3
      have w_s3 : Canon s3 := w_x1
      split
      · exact Canon.of_mem (jobTrap_mem ..) w_s3
      · exact w_s3

theorem execEret_wf (h : Hd) (s : State) (w : Canon s) : CanonNext (execEret h s) := by
  unfold execEret
  refine runGuarded_canon (fun _ w1 => ?_) w
  extract_lets -underBinder
  split
  · exact w1
  · split
    · exact w1
    · exact restartJob_wf _ _ w1

theorem execWfe_wf (h : Hd) (s : State) (w : Canon s) : CanonNext (execWfe h s) := by
  unfold execWfe
  refine runGuarded_canon (fun _ w1 => ?_) w
  extract_lets -underBinder
  split
  · exact w1
  · exact trivial

theorem execStopack_wf (h : Hd) (s : State) (w : Canon s) : CanonNext (execStopack h s) := by
  unfold execStopack
  refine runGuarded_canon (fun _ w1 => ?_) w
  extract_lets -underBinder
  split
  · exact w1
  · split
    · exact w1
    · next s11 h2 =>
        have w_s11 : Canon s11 := canon_some h2 (enqueue_wf _ _ w1)
        extract_lets -underBinder s2 s3
        have w_s2 : Canon s2 := readyNow_wf _ _ w_s11
        have w_s3 : Canon s3 := by
          unfold s3
          split
          · exact w_s2
          · exact clearRun_wf _ _ _ _ _ w_s2
        exact Canon.of_mem (State.setSlot_mem ..) (Canon.of_mem (clearStop_mem ..) (noteRan_wf _ _ (keepArrivals_wf _ _ w_s3)))

/-! ### Events (R466, R472, R458) -/

theorem execFwTick_wf (s : State) (w : Canon s) : CanonNext (execFwTick s) := by
  unfold execFwTick
  split
  · exact .next w
  · refine .next (foldl_wf _ _ (fun _ _ w1 => ?_) w)
    extract_lets -underBinder
    split <;> exact w1

theorem execWdageExpire_wf (slot : Nat) (st : StreamId) (s : State) (w : Canon s) : CanonNext (execWdageExpire slot st s) := by
  unfold execWdageExpire
  extract_lets -underBinder
  split
  · split
    · exact .next (Canon.of_mem (jobTrap_mem ..) w)
    · exact .next w
  · exact .next w

theorem execJobTrap_wf (slot : Nat) (s : State) (w : Canon s) : CanonNext (execJobTrap slot s) := by
  unfold execJobTrap
  extract_lets -underBinder _ s1
  have w_s1 : Canon s1 := by
    unfold s1
    split
    · exact withdrawSlot_wf _ _ w
    · exact w
  split
  · exact .next w
  · refine .next ?_
    split
    · split
      · exact trapReport_wf _ _ _ w_s1
      · exact w_s1
    · exact w_s1

theorem execFwContextRestart_wf (core : Nat) (s : State) (w : Canon s) : CanonNext (execFwContextRestart core s) := by
  unfold execFwContextRestart
  split
  · exact .next (Canon.of_mem (State.modFw_mem ..) (startFw_wf _ _ _ w))
  · exact .next w

/-! ### Flits (R415) -/

theorem sendFlit_wf (s : State) (n : Nat) (f : Flit) (w : Canon s) : Canon (sendFlit s n f) := by
  unfold sendFlit
  extract_lets -underBinder _ __src
  have w___src : Canon __src := w
  split
  · exact w
  · exact w___src

theorem sendControl_wf (s : State) (n ty arg : Nat) (payload : List Byte) (w : Canon s) : Canon (sendControl s n ty arg payload) :=
  sendFlit_wf _ _ _ w

theorem sendCredit_wf (s : State) (port vc count : Nat) (w : Canon s) : Canon (sendCredit s port vc count) := by
  unfold sendCredit
  split
  · exact w
  · exact sendControl_wf _ _ _ _ _ w

/-! ### Receiving in order, replay (R416) -/

theorem sendNack_wf (s : State) (n : Nat) (w : Canon s) : Canon (sendNack s n) := sendControl_wf _ _ _ _ _ w

theorem adoptMask_wf (s : State) (n : Nat) (mask : BitVec 16) (start : Nat) (w : Canon s) : Canon (adoptMask s n mask start) := by
  unfold adoptMask
  extract_lets -underBinder
  split
  · exact sendNack_wf _ _ w
  · exact w

theorem badFlit_wf (s : State) (n : Nat) (f : Flit) (w : Canon s) : Canon (badFlit s n f) := by
  unfold badFlit
  split
  · exact adoptMask_wf _ _ _ _ w
  · exact sendNack_wf _ _ w

/-! ### Packets on the link (R417) -/

theorem headIn_wf (s : State) (n vc : Nat) (f : Flit) (w : Canon s) : Canon (headIn s n vc f) := by
  unfold headIn
  extract_lets -underBinder _ _ _ _ _ _ s1
  have w_s1 : Canon s1 := by
    unfold s1
    split <;> exact w
  split
  · exact sendCredit_wf _ _ _ _ w_s1
  · exact w_s1

theorem bodyIn_wf (s : State) (n vc : Nat) (f : Flit) (w : Canon s) : Canon (bodyIn s n vc f) := by
  unfold bodyIn
  extract_lets -underBinder
  split
  · split
    · exact sendCredit_wf _ _ _ _ w
    · extract_lets -underBinder
      split
      · exact sendCredit_wf _ _ _ _ w
      · exact w
  · exact sendCredit_wf _ _ _ _ w

theorem dataIn_wf (s : State) (n : Nat) (f : Flit) (w : Canon s) : Canon (dataIn s n f) := by
  unfold dataIn
  extract_lets -underBinder s1 s2
  have w_s1 : Canon s1 := w
  have w_s2 : Canon s2 := w_s1
  split
  · split
    · exact w_s1
    · exact sendNack_wf _ _ w_s1
  · split
    · exact headIn_wf _ _ _ _ w_s2
    · exact bodyIn_wf _ _ _ _ w_s2

theorem controlFlit_wf (s : State) (n ty : Nat) (f : Flit) (k : State → State) (w : Canon s) (hk : ∀ (t : State), Canon t → Canon (k t)) :
    CanonNext (controlFlit s n ty f k) := by
  unfold controlFlit
  split
  · exact .next w
  · split
    · exact .next (badFlit_wf _ _ _ w)
    · split
      · exact .next w
      · exact .next (hk _ w)

theorem execCreditFlit_wf (port : Nat) (flit : Flit) (s : State) (w : Canon s) : CanonNext (execCreditFlit port flit s) :=
  controlFlit_wf _ _ _ _ _ w (fun _ w1 => w1)

theorem resend_wf (s : State) (n : Nat) (f : Flit) (w : Canon s) : Canon (resend s n f) := by
  unfold resend
  extract_lets -underBinder
  split
  · exact sendControl_wf _ _ _ _ _ (sendFlit_wf _ _ _ w)
  · exact sendFlit_wf _ _ _ w

theorem execNackFlit_wf (port : Nat) (flit : Flit) (s : State) (w : Canon s) : CanonNext (execNackFlit port flit s) := by
  unfold execNackFlit
  refine controlFlit_wf _ _ _ _ _ w (fun _ w1 => ?_)
  extract_lets -underBinder _ _ s1
  have w_s1 : Canon s1 := w1
  exact foldl_wf _ _ (fun _ _ w2 => resend_wf _ _ _ w2) w_s1

theorem takeBack_wf (s : State) (e : InPkt) (w : Canon s) : Canon (takeBack s e) := by
  unfold takeBack
  split
  · split
    · exact w
    · exact sendControl_wf _ _ _ _ _ w
  · exact w

theorem discard_wf (s : State) (n vc : Nat) (f : InPkt → Bool) (w : Canon s) : Canon (discard s n vc f) := by
  unfold discard
  extract_lets -underBinder _ _ s1
  have w_s1 : Canon s1 := Canon.of_mem (State.setVcq_mem ..) (foldl_wf _ _ (fun _ _ w1 => takeBack_wf _ _ w1) w)
  exact sendCredit_wf _ _ _ _ w_s1

theorem execAbortFlit_wf (port : Nat) (flit : Flit) (s : State) (w : Canon s) : CanonNext (execAbortFlit port flit s) :=
  controlFlit_wf _ _ _ _ _ w (fun _ w1 => foldl_wf _ _ (fun _ _ w2 => discard_wf _ _ _ _ w2) w1)

/-! ### Lanes (R418 to R422) -/

theorem restripeTo_wf (s : State) (n : Nat) (mask : BitVec 16) (w : Canon s) : Canon (restripeTo s n mask) := by
  unfold restripeTo
  extract_lets -underBinder _ s1
  have w_s1 : Canon s1 := by
    unfold s1
    split
    · exact w
    · exact sendFlit_wf _ _ _ w
  exact w_s1

theorem loseSent_wf (s : State) (n : Nat) (w : Canon s) : Canon (loseSent s n) := by
  unfold loseSent
  split
  · exact w
  · extract_lets -underBinder _ _ s1
    have w_s1 : Canon s1 := discard_wf _ _ _ _ w
    exact sendCredit_wf _ _ _ _ w_s1

theorem txDown_wf (s : State) (n : Nat) (w : Canon s) : Canon (txDown s n) :=
  Canon.of_mem (liftRoutes_mem ..) (Canon.of_mem (State.modPort_mem ..) (loseSent_wf _ _ w))

theorem rxDown_wf (s : State) (n : Nat) (w : Canon s) : Canon (rxDown s n) := by
  unfold rxDown
  extract_lets -underBinder s1
  have w_s1 : Canon s1 := w
  exact foldl_wf _ _ (fun _ _ w1 => discard_wf _ _ _ _ w1) w_s1

theorem execLinkDown_wf (port : Nat) (dir : LinkDir) (s : State) (w : Canon s) : CanonNext (execLinkDown port dir s) := by
  unfold execLinkDown
  split
  · exact .next (txDown_wf _ _ w)
  · exact .next (rxDown_wf _ _ w)

theorem execShedreqFlit_wf (port : Nat) (flit : Flit) (s : State) (w : Canon s) : CanonNext (execShedreqFlit port flit s) := by
  unfold execShedreqFlit
  refine controlFlit_wf _ _ _ _ _ w (fun _ w1 => ?_)
  extract_lets -underBinder
  split
  · exact w1
  · split
    · next s1 h1 =>
        have w_s1 : Canon s1 := canon_snd h1 (State.drawFree_wf _ w1)
        extract_lets -underBinder _ _ s2
        have w_s2 : Canon s2 := w_s1
        split
        · exact txDown_wf _ _ w_s2
        · exact restripeTo_wf _ _ _ w_s2

theorem shedFed_wf (s : State) (n : Nat) (fed : BitVec 16) (w : Canon s) : Canon (shedFed s n fed) := by
  unfold shedFed
  extract_lets -underBinder _ _ _ s1
  have w_s1 : Canon s1 := w
  split
  · exact w_s1
  · split
    · exact txDown_wf _ _ w_s1
    · exact restripeTo_wf _ _ _ w_s1

theorem execRestripeFlit_wf (port : Nat) (flit : Flit) (s : State) (w : Canon s) : CanonNext (execRestripeFlit port flit s) := by
  unfold execRestripeFlit
  split
  · exact .next w
  · split
    · exact .next w
    · extract_lets -underBinder s1
      have w_s1 : Canon s1 := by
        unfold s1
        split <;> exact w
      split
      · exact .next (adoptMask_wf _ _ _ _ w_s1)
      · split
        · exact .next w_s1
        · exact .next (sendNack_wf _ _ w)

theorem sampleErrs_wf (s : State) (n : Nat) (w : Canon s) : Canon (sampleErrs s n) := by
  unfold sampleErrs
  refine foldl_wf _ _ (fun _ _ w1 => ?_) w
  split
  · next s1 h =>
      have w_s1 : Canon s1 := canon_snd h (State.drawFree_wf _ w1)
      exact w_s1

theorem shedLane_wf (s : State) (n lane : Nat) (w : Canon s) : Canon (shedLane s n lane) := by
  unfold shedLane
  extract_lets -underBinder _ _ _ _ _ s1
  have w_s1 : Canon s1 := sendControl_wf _ _ _ _ _ w
  split
  · exact w
  · split
    · exact rxDown_wf _ _ w_s1
    · exact w_s1

theorem execUncorrectableCodeword_wf (port lane : Nat) (s : State) (w : Canon s) : CanonNext (execUncorrectableCodeword port lane s) := by
  unfold execUncorrectableCodeword
  split
  · exact .next w
  · exact .next (shedLane_wf _ _ _ (sampleErrs_wf _ _ w))

theorem execShedWindowEnd_wf (port : Nat) (s : State) (w : Canon s) : CanonNext (execShedWindowEnd port s) := by
  unfold execShedWindowEnd
  extract_lets -underBinder _ s1 _ s2
  have w_s1 : Canon s1 := sampleErrs_wf _ _ w
  have w_s2 : Canon s2 := foldl_wf _ _ (fun _ _ w1 => shedLane_wf _ _ _ w1) w_s1
  split
  · exact .next w
  · exact .next w_s2

theorem execLaneRetrain_wf (port lane : Nat) (s : State) (w : Canon s) : CanonNext (execLaneRetrain port lane s) := by
  unfold execLaneRetrain
  split
  · exact .next w
  · extract_lets -underBinder _ _ s1
    have w_s1 : Canon s1 := w
    split
    · next s11 h1 =>
        have w_s11 : Canon s11 := canon_snd h1 (State.drawFree_wf _ w_s1)
        extract_lets -underBinder
        split
        · exact .next (restripeTo_wf _ _ _ w_s11)
        · exact .next w_s11

/-! ### Routing (R426, R428 to R431) -/

theorem answerNoRoute_wf (s : State) (p : FPkt) (w : Canon s) : Canon (answerNoRoute s p) := by
  unfold answerNoRoute
  split <;> exact w

theorem popVc_wf (s : State) (k : Nat) (e : InPkt) (w : Canon s) : Canon (popVc s k e) := by
  unfold popVc
  extract_lets -underBinder
  exact sendCredit_wf _ _ _ _ w

theorem routeHead_wf (s : State) (e : InPkt) (k : Nat) (w : Canon s) : Canon (routeHead s e k) := by
  unfold routeHead
  extract_lets -underBinder
  split
  · exact w
  · split
    · exact w
    · split
      · split
        · exact w
        · exact answerNoRoute_wf _ _ (popVc_wf _ _ _ w)
      · split
        · exact w
        · split
          · exact w
          · split <;> exact w

theorem execRouteSelect_wf (port vc : Nat) (s : State) (w : Canon s) : CanonNext (execRouteSelect port vc s) := by
  unfold execRouteSelect
  split
  · exact .next w
  · exact .next (routeHead_wf _ _ _ w)

theorem execEscapeEntry_wf (port vc : Nat) (s : State) (w : Canon s) : CanonNext (execEscapeEntry port vc s) := by
  unfold execEscapeEntry
  extract_lets -underBinder
  split
  · exact .next w
  · split
    · split <;> exact .next w
    · exact .next w

/-! ### The outputs (R434) -/

theorem sendPart_wf (s : State) (n vc i : Nat) (e : InPkt) (w : Canon s) : Canon (sendPart s n vc i e) := by
  unfold sendPart
  extract_lets -underBinder
  exact Canon.of_mem (State.modPort_mem ..) (sendFlit_wf _ _ _ w)

theorem sendNext_wf (s : State) (n k : Nat) (e : InPkt) (w : Canon s) : Canon (sendNext s n k e) := by
  unfold sendNext
  extract_lets -underBinder s1
  have w_s1 : Canon s1 := sendPart_wf _ _ _ _ _ w
  split
  · exact popVc_wf _ _ _ w_s1
  · exact sendCredit_wf _ _ _ _ w_s1

theorem headStomp_wf (s : State) (m : Nat) (e : InPkt) (w : Canon s) : Canon (headStomp s m e) := by
  unfold headStomp
  split
  · next s1 h =>
      have w_s1 : Canon s1 := canon_snd h (State.drawFree_wf _ w)
      extract_lets -underBinder _ _ _ _ _ s2
      have w_s2 : Canon s2 := Canon.of_mem (State.modPort_mem ..) (sendFlit_wf _ _ _ w_s1)
      exact sendControl_wf _ _ _ _ _ w_s2

theorem execDataFlit_wf (port : Nat) (flit : Flit) (s : State) (w : Canon s) : CanonNext (execDataFlit port flit s) := by
  unfold execDataFlit
  split
  · exact .next w
  · split
    · exact .next (dataIn_wf _ _ _ w)
    · split
      · split
        · split
          · next s1 h5 =>
              have w_s1 : Canon s1 := canon_snd h5 (State.drawFree_wf _ w)
              refine .next (badFlit_wf _ _ _ ?_)
              split
              · exact headStomp_wf _ _ _ w_s1
              · exact w_s1
        · exact .next (badFlit_wf _ _ _ w)
      · split
        · exact .next w
        · split
          · exact .next w
          · exact .next (dataIn_wf _ _ _ w)

theorem sendHead_wf (s : State) (n k : Nat) (e : InPkt) (w : Canon s) : Canon (sendHead s n k e) := by
  unfold sendHead
  extract_lets -underBinder
  split
  · next s1 h =>
      have w_s1 : Canon s1 := by
        refine canon_snd h ?_
        split
        · exact State.drawFree_wf _ w
        · exact w
      extract_lets -underBinder _ s2
      have w_s2 : Canon s2 := w_s1
      exact sendNext_wf _ _ _ _ w_s2

theorem execEgressSend_wf (port : Nat) (s : State) (w : Canon s) : CanonNext (execEgressSend port s) := by
  unfold execEgressSend
  split
  · split
    · split
      · exact .next (sendControl_wf _ _ _ _ _ w)
      · split
        · exact .next w
        · exact .next (sendNext_wf _ _ _ _ w)
    · exact .next w
  · split
    · exact .next w
    · split
      · extract_lets -underBinder s1
        have w_s1 : Canon s1 := popVc_wf _ _ _ w
        exact .next w_s1
      · exact .next (sendHead_wf _ _ _ _ w)

theorem agePackets_wf (s : State) (w : Canon s) : Canon (agePackets s) := ageTick_wf _ _ _ w (fun _ w1 => w1)
theorem execPacketAgeTick_wf (s : State) (w : Canon s) : CanonNext (execPacketAgeTick s) := .next (agePackets_wf _ w)

theorem execEscctlFlip_wf (m : Master) (d : Word) (s : State) (w : Canon s) : CanonNext (execEscctlFlip m d s) := by
  unfold execEscctlFlip
  split
  · exact .next w
  · split <;> exact .next w

/-! ### Packets at their target (R411 to R413) -/

theorem takeInbox_wf (s : State) (f : FPkt → Bool) (w : Canon s) : CanonSomeSnd (takeInbox s f) := by
  intro p t h
  unfold takeInbox at h
  split at h
  · cases h
  · obtain ⟨q, -, e⟩ := Option.map_eq_some_iff.1 h
    cases e
    exact w

theorem atTarget_wf (s : State) (op : Nat) (len : FPkt → Nat) (acc : FPkt → Acc) (arr : FPkt → Arrive)
    (k : State → FPkt → Req → List Piece → List Piece → State) (hk : ∀ t p r ps qs, Canon t → Canon (k t p r ps qs)) (w : Canon s) :
    CanonNext (atTarget s op len acc arr k) := by
  unfold atTarget
  split
  · exact .next w
  · next p s1 h =>
      have w1 : Canon s1 := takeInbox_wf _ _ w _ _ h
      split
      · exact .next w
      · exact .next w1
      · exact .next (hk _ _ _ _ _ w1)

theorem addArrival_wf (s : State) (p : FPkt) (r : Req) (arr : Arrive) (qs : List Piece) (w : Canon s) : Canon (addArrival s p r arr qs).1 := by
  unfold addArrival
  extract_lets -underBinder
  split
  · exact w
  · exact writePieces_wf _ _ _ _ w
  · extract_lets -underBinder
    split
    · split <;> exact w
    · exact w
    · exact w

theorem noteSender_wf (s : State) (p : FPkt) (answer : Bool) (w : Canon s) : Canon (noteSender s p answer) := by
  unfold noteSender
  split
  · exact Canon.of_mem (noteWriter_mem ..) w
  · exact w

theorem arrivedRead_wf (s : State) (p : FPkt) (ps : List Piece) (w : Canon s) : Canon (arrivedRead s p ps) := by
  unfold arrivedRead
  extract_lets -underBinder
  exact readUses_wf _ _ _ _ _ w

theorem execPut_wf (s : State) (w : Canon s) : CanonNext (execPut s) := by
  unfold execPut
  refine atTarget_wf _ _ _ _ _ _ (fun _ _ _ _ _ w1 => ?_) w
  extract_lets -underBinder s1 s2
  have w_s1 : Canon s1 := noteSender_wf _ _ _ (writePieces_wf _ _ _ _ w1)
  have w_s2 : Canon s2 := spreadRuns_wf _ _ _ _ w_s1
  split
  · next s3 _ h =>
      have w_s3 : Canon s3 := canon_fst h (addArrival_wf _ _ _ _ _ w_s2)
      exact w_s3

theorem execGetreq_wf (s : State) (w : Canon s) : CanonNext (execGetreq s) :=
  atTarget_wf _ _ _ _ _ _ (fun _ _ _ _ _ w1 => Canon.of_mem (answer_mem ..) (arrivedRead_wf _ _ _ w1)) w

theorem execSig_wf (s : State) (w : Canon s) : CanonNext (execSig s) := by
  unfold execSig
  refine atTarget_wf _ _ _ _ _ _ (fun _ _ _ _ _ w1 => ?_) w
  split
  · exact w1
  · extract_lets -underBinder
    exact Canon.of_mem (answer_mem ..) (noteSender_wf _ _ _ (writePieces_wf _ _ _ _ (arrivedRead_wf _ _ _ w1)))

theorem execFllRequest_wf (s : State) (w : Canon s) : CanonNext (execFllRequest s) := by
  unfold execFllRequest
  refine atTarget_wf _ _ _ _ _ _ (fun _ _ _ _ _ w1 => ?_) w
  extract_lets -underBinder _ __src
  have w___src : Canon __src := arrivedRead_wf _ _ _ w1
  exact w___src

theorem execFscRequest_wf (s : State) (w : Canon s) : CanonNext (execFscRequest s) := by
  unfold execFscRequest
  refine atTarget_wf _ _ _ _ _ _ (fun _ _ _ _ _ w1 => ?_) w
  extract_lets -underBinder
  split
  · exact Canon.of_mem (answer_mem ..) (noteSender_wf _ _ _ (writePieces_wf _ _ _ _ w1))
  · exact w1

/-! ### Answers (R180, R186) -/

theorem execGetdata_wf (s : State) (w : Canon s) : CanonNext (execGetdata s) := by
  unfold execGetdata
  split
  · exact .next w
  · next s1 h =>
      have w_s1 : Canon s1 := canon_some_snd h (takeInbox_wf _ _ w)
      split
      · exact .next w_s1
      · split
        · exact .next w_s1
        · split
          · split
            · exact .next w
            · exact .next (xactFault_wf _ _ _ w_s1)
          · next s11 h3 =>
              have w_s11 : Canon s11 := canon_ok h3 (writeUnit_wf _ _ _ _ w_s1)
              exact .next (unitLanded_wf _ _ _ _ _ w_s11)

theorem ackFault_wf (s : State) (x : Xact) (p : FPkt) (w : Canon s) : Canon (ackFault s x p) := by
  unfold ackFault
  extract_lets -underBinder s1
  have w_s1 : Canon s1 := by
    unfold s1
    split
    · split <;> exact w
    · exact w
  exact xactFault_wf _ _ _ w_s1

theorem execAck_wf (s : State) (w : Canon s) : CanonNext (execAck s) := by
  unfold execAck
  split
  · exact .next w
  · next s1 h =>
      have w_s1 : Canon s1 := canon_some_snd h (takeInbox_wf _ _ w)
      split
      · exact .next w_s1
      · extract_lets -underBinder s11
        have w_s11 : Canon s11 := by
          unfold s11
          split
          · exact noteSender_wf _ _ _ w_s1
          · exact w_s1
        split
        · exact .next (ackFault_wf _ _ _ w_s11)
        · split
          · exact .next w_s11
          · split
            · exact .next w_s11
            · exact .next (unitLanded_wf _ _ _ _ _ w_s11)

theorem State.modGroup_wf (s : State) (g : Nat) (f : Group → Group) (w : Canon s) : Canon (s.modGroup g f) := by
  unfold State.modGroup
  split <;> exact w

/-! ### FAB.RGINST (R437) -/

theorem rgWrite_wf (s : State) (m : Master) (d : Word) (mine : Nat → Bool) (k : State → Nat → List Byte → State) (w : Canon s)
    (hk : ∀ (t : State) (n : Nat) (l : List Byte), Canon t → Canon (k t n l)) : Canon (rgWrite s m d mine k) := by
  unfold rgWrite
  extract_lets -underBinder
  split
  · exact w
  · split
    · exact w
    · split
      · exact w
      · split
        · exact w
        · split
          · exact w
          · exact hk _ _ _ w

theorem execInstall_wf (m : Master) (addr : Word) (s : State) (w : Canon s) : CanonNext (execInstall m addr s) :=
  .next (rgWrite_wf _ _ _ _ _ w (fun _ _ _ w1 => w1))

theorem execRemove_wf (m : Master) (addr : Word) (s : State) (w : Canon s) : CanonNext (execRemove m addr s) :=
  .next (rgWrite_wf _ _ _ _ _ w (fun _ _ _ w1 => w1))

theorem execRemoveComplete_wf (s : State) (w : Canon s) : CanonNext (execRemoveComplete s) := by
  unfold execRemoveComplete
  split
  · exact .next w
  · split
    · exact .next w
    · split <;> exact .next w

/-! ### Bucket credits (R444) -/

theorem giveCredit_wf (s : State) (gn l : Nat) (w : Canon s) : Canon (giveCredit s gn l) := State.modGroup_wf _ _ _ w

theorem sendRed_wf (s : State) (gn l : Nat) (p : FPkt) (w : Canon s) : Canon (sendRed s gn l p).1 := by
  unfold sendRed
  split
  · exact w
  · extract_lets -underBinder
    split
    · next s3 _ h1 =>
        have w_s3 : Canon s3 := by
          refine canon_fst h1 ?_
          split
          · exact w
          · split
            · next s1 h3 =>
                have w_s1 : Canon s1 := canon_snd h3 (State.drawFree_wf _ w)
                exact w_s1
        split
        · exact Canon.of_mem (inject_mem ..) (State.modGroup_wf _ _ _ w_s3)
        · exact w_s3

theorem returnCredit_wf (s : State) (gn : Nat) (p : FPkt) (w : Canon s) : Canon (returnCredit s gn p) := by
  unfold returnCredit
  split
  · exact giveCredit_wf _ _ _ w
  · exact w

theorem pushRed_wf (s : State) (gn : Nat) (o : RedOut) (w : Canon s) : Canon (pushRed s gn o) := by
  unfold pushRed
  split
  · next x1 _ h =>
      have w_x1 : Canon x1 := canon_fst h (sendRed_wf _ _ _ _ w)
      split
      · exact State.modGroup_wf _ _ _ w_x1
      · split
        · exact giveCredit_wf _ _ _ w_x1
        · exact w_x1

theorem flushReds_wf (s : State) (gn : Nat) (os : List RedOut) (w : Canon s) : Canon (flushReds s gn os) := by
  induction os generalizing s with
  | nil => exact w
  | cons o os ih => exact ih _ (pushRed_wf _ _ _ (State.modGroup_wf _ _ _ w))

theorem flushOut_wf (s : State) (gn : Nat) (w : Canon s) : Canon (flushOut s gn) := by
  unfold flushOut
  split
  · exact w
  · split
    · exact w
    · exact foldl_wf _ _ (fun _ _ w1 => flushReds_wf _ _ _ w1) w

theorem closeInst_wf (s : State) (gn inst : Nat) (w : Canon s) : Canon (closeInst s gn inst) := by
  unfold closeInst
  split
  · exact w
  · extract_lets -underBinder _ _ s1
    have w_s1 : Canon s1 := w
    exact foldl_wf _ _ (fun _ _ w1 => giveCredit_wf _ _ _ w1) w_s1

theorem hubWrite_wf (s : State) (a : Nat) (bs : List Byte) (w : Canon s) : Canon (hubWrite s a bs) := writePiece_wf _ _ _ _ w

theorem sendResults_wf (s : State) (gn : Nat) (g : Group) (p : FPkt) (mode : Nat) (w : Canon s) : Canon (sendResults s gn g p mode) :=
  foldl_wf _ _ (fun _ _ w1 => w1) w

theorem finishRoot_wf (s : State) (gn : Nat) (g : Group) (p : FPkt) (c : Contrib) (missing : Bool) (bitmap : Nat) (w : Canon s) :
    Canon (finishRoot s gn g p c missing bitmap) := by
  unfold finishRoot
  extract_lets -underBinder _ _ s1 _ s2
  have w_s1 : Canon s1 := hubWrite_wf _ _ _ w
  have w_s2 : Canon s2 := State.modGroup_wf _ _ _ w_s1
  split
  · exact w
  · split
    · exact closeInst_wf _ _ _ (Canon.of_mem (sendColl_mem ..) (hubWrite_wf _ _ _ w))
    · split
      · exact w_s2
      · exact closeInst_wf _ _ _ (sendResults_wf _ _ _ _ _ w_s2)

theorem sendUp_wf (s : State) (gn : Nat) (g : Group) (l i : Nat) (p : FPkt) (mode status sub : Nat) (data : List Byte) (due : Bool)
    (w : Canon s) : Canon (sendUp s gn g l i p mode status sub data due) :=
  pushRed_wf _ _ _ w

theorem errorOut_wf (s : State) (gn : Nat) (g : Group) (l i : Nat) (p : FPkt) (code sub : Nat) (due : Bool) (w : Canon s) :
    Canon (errorOut s gn g l i p code sub due) := by
  unfold errorOut
  extract_lets -underBinder
  split
  · split
    · exact w
    · exact closeInst_wf _ _ _ w
  · exact sendUp_wf _ _ _ _ _ _ _ _ _ _ _ w

theorem dropBucket_wf (s : State) (gn : Nat) (b : NodeBucket) (w : Canon s) : Canon (dropBucket s gn b) := State.modGroup_wf _ _ _ w

theorem killBucket_wf (s : State) (gn l i inst bucket : Nat) (w : Canon s) : Canon (killBucket s gn l i inst bucket) := by
  unfold killBucket
  split
  · exact w
  · extract_lets -underBinder _ s1
    have w_s1 : Canon s1 := w
    exact foldl_wf _ _ (fun _ _ w1 => giveCredit_wf _ _ _ w1) w_s1

theorem combineBucket_wf (s : State) (gn : Nat) (g : Group) (b : NodeBucket) (w : Canon s) : Canon (combineBucket s gn g b) := by
  unfold combineBucket
  extract_lets -underBinder ps
  split
  · clear_value ps
    split
    · exact foldl_wf _ _ (fun _ _ w1 => giveCredit_wf _ _ _ w1) (dropBucket_wf _ _ _ w)
    · exact errorOut_wf _ _ _ _ _ _ _ _ _ (killBucket_wf _ _ _ _ _ _ w)
  · clear_value ps
    split
    · exact foldl_wf _ _ (fun _ _ w1 => giveCredit_wf _ _ _ w1) (dropBucket_wf _ _ _ w)
    · extract_lets -underBinder _ _ _ s1
      have w_s1 : Canon s1 := dropBucket_wf _ _ _ w
      split
      · exact w
      · split
        · exact finishRoot_wf _ _ _ _ _ _ _ (foldl_wf _ _ (fun _ _ w1 => giveCredit_wf _ _ _ w1) w_s1)
        · exact sendUp_wf _ _ _ _ _ _ _ _ _ _ _ w_s1

theorem combineWhole_wf (s : State) (gn : Nat) (bs : List NodeBucket) (w : Canon s) : Canon (combineWhole s gn bs) := by
  induction bs generalizing s with
  | nil => exact w
  | cons b bs ih =>
    unfold combineWhole
    split
    · split
      · exact ih _ (combineBucket_wf _ _ _ _ w)
      · exact ih _ w
    · exact w

theorem settleReds_wf (s : State) (gn : Nat) (w : Canon s) : Canon (settleReds s gn) := flushOut_wf _ _ (combineWhole_wf _ _ _ w)

theorem dropRed_wf (s : State) (p : FPkt) (w : Canon s) : Canon (dropRed s p) := by
  unfold dropRed
  split <;> exact w

theorem redIn_wf (s : State) (gn : Nat) (g : Group) (q : Nat) (p : FPkt) (w : Canon s) : Canon (redIn s gn g q p) := by
  unfold redIn
  extract_lets -underBinder
  split
  · split
    · exact dropRed_wf _ _ w
    · split
      · exact dropRed_wf _ _ (returnCredit_wf _ _ _ w)
      · split
        · exact returnCredit_wf _ _ _ w
        · split
          · extract_lets -underBinder
            refine errorOut_wf _ _ _ _ _ _ _ _ _ (killBucket_wf _ _ _ _ _ _ ?_)
            split
            · exact returnCredit_wf _ _ _ w
            · exact w
          · exact w

theorem execRed_wf (s : State) (w : Canon s) : CanonNext (execRed s) := by
  unfold execRed
  split
  · exact .next w
  · next s1 h =>
      have w_s1 : Canon s1 := canon_some_snd h (takeInbox_wf _ _ w)
      split
      · exact .next (dropRed_wf _ _ w_s1)
      · split
        · exact .next (dropRed_wf _ _ w_s1)
        · exact .next (settleReds_wf _ _ (redIn_wf _ _ _ _ _ w_s1))

theorem execBucketTimeout_wf (node key : Nat) (s : State) (w : Canon s) : CanonNext (execBucketTimeout node key s) := by
  unfold execBucketTimeout
  split
  · exact .next w
  · split
    · exact .next w
    · split
      · exact .next w
      · extract_lets -underBinder _ _ s1
        have w_s1 : Canon s1 := w
        exact .next (settleReds_wf _ _ w_s1)

/-! ### Participants (R439 to R444) -/

theorem contribBuckets_wf (s : State) (n : Nat) (d : Desc) (vals : List Nat) (w : Canon s) : CanonOkFst (contribBuckets s n d vals) := by
  unfold contribBuckets
  extract_lets -underBinder
  split
  · exact .ok w
  · exact .ok w
  · extract_lets -underBinder
    split
    · exact .error _
    · split
      · exact .error _
      · next s0 _ _ h3 =>
          have w_s0 : Canon s0 := canon_ok_fst h3 (fetchAll_wf _ _ _ _ w)
          extract_lets -underBinder
          split
          · exact .error _
          · next s1 h4 =>
              have w_s1 : Canon s1 := canon_ok h4 (storeAll_canon _ _ _ _ w_s0)
              exact .ok w_s1

theorem startColl_wf (s : State) (gn : Nat) (g : Group) (n : Nat) (c : Cmd) (d : Desc) (w : Canon s) : Canon (startColl s gn g n c d) := by
  unfold startColl
  extract_lets -underBinder fail
  have w_fail : ∀ (t : Trap), Canon (fail t) := by
    unfold fail
    intro _
    split
    · exact w
    · exact failCmd_wf _ _ _ _ _ w
  split
  · split
    · exact w_fail _
    · exact w
  · split
    · exact w_fail _
    · extract_lets -underBinder
      split
      · exact w
      · split
        · exact w_fail _
        · next s0 _ _ h3 =>
            have w_s0 : Canon s0 := canon_ok_fst h3 (fetchAll_wf _ _ _ _ w)
            split
            · exact w_fail _
            · next s1 _ h4 =>
                have w_s1 : Canon s1 := canon_ok_fst h4 (contribBuckets_wf _ _ _ _ w_s0)
                exact w_s1

theorem dropInst_wf (s : State) (gn inst : Nat) (w : Canon s) : Canon (dropInst s gn inst) := State.modGroup_wf _ _ _ w

theorem endInst_wf (s : State) (gn : Nat) (x : Inst) (status : Nat) (w : Canon s) : CanonSome (endInst s gn x status) := by
  unfold endInst
  split
  · exact .some (dropInst_wf _ _ _ w)
  · split
    · split
      · exact .none
      · exact .some (failCmd_wf _ _ _ _ _ (dropInst_wf _ _ _ w))
    · next s1 h1 =>
        have w_s1 : Canon s1 := canon_ok h1 (storeAll_canon _ _ _ _ w)
        extract_lets -underBinder s2
        have w_s2 : Canon s2 := finishCmd_wf _ _ _ _ (dropInst_wf _ _ _ w_s1)
        refine .some ?_
        split
        · exact endReduce_wf _ _ _ w_s2
        · exact w_s2

theorem failInst_wf (s : State) (gn : Nat) (x : Inst) (t : Trap) (w : Canon s) : Canon (failInst s gn x t) :=
  failCmd_wf _ _ _ _ _ (dropInst_wf _ _ _ w)

theorem applyClosing_wf (s : State) (gn : Nat) (w : Canon s) : Canon (applyClosing s gn) := by
  unfold applyClosing
  split
  · exact w
  · split
    · exact w
    · extract_lets -underBinder s1
      have w_s1 : Canon s1 := w
      split
      · exact CanonSome.getD (endInst_wf _ _ _ _ w_s1) w
      · exact failInst_wf _ _ _ _ w_s1

theorem execCollectiveStart_wf (slot : Nat) (s : State) (w : Canon s) : CanonNext (execCollectiveStart slot s) := by
  unfold execCollectiveStart
  split
  · exact .next w
  · split
    · exact .next w
    · extract_lets -underBinder _ fail
      have w_fail : ∀ (t : Trap), Canon (fail t) := fun _ => failCmd_wf _ _ _ _ _ w
      split
      · exact .next (w_fail _)
      · extract_lets -underBinder begin_
        have w_begin_ : ∀ (s : State) (bs : List Byte), Canon s → Canon (begin_ s bs) := fun _ _ w1 => Canon.of_mem (noteEngine_mem ..)
            (applyClosing_wf _ _ (startColl_wf _ _ _ _ _ _ w1))
        split
        · exact .next w
        · split
          · exact .next (w_begin_ _ _ w)
          · split
            · exact .next w
            · split
              · split
                · exact .next w
                · exact .next (w_fail _)
              · next s0 _ _ h6 =>
                  have w_s0 : Canon s0 := canon_ok_fst h6 (fetchAll_wf _ _ _ _ w)
                  exact .next (w_begin_ _ _ w_s0)

theorem execBucketSend_wf (group inst : Nat) (s : State) (w : Canon s) : CanonNext (execBucketSend group inst s) := by
  unfold execBucketSend
  split
  · exact .next w
  · split
    · split
      · split
        · next x7 _ h5 =>
            have w_x7 : Canon x7 := canon_fst h5 (sendRed_wf _ _ _ _ w)
            refine .next (settleReds_wf _ _ ?_)
            split
            · exact State.modGroup_wf _ _ _ w_x7
            · exact w_x7
      · exact .next (settleReds_wf _ _ w)
    · exact .next (settleReds_wf _ _ w)

/-! ### Results (R448, R449, R453) -/

theorem forwardColl_wf (s : State) (g : Group) (p : FPkt) (w : Canon s) : Canon (forwardColl s g p) := by
  unfold forwardColl
  split
  · exact w
  · refine foldl_wf _ _ (fun _ _ w1 => ?_) w
    extract_lets -underBinder
    exact foldl_wf _ _ (fun _ _ w2 => w2) w1

theorem takeColl_wf (s : State) (kind : Nat) (w : Canon s) : CanonSomeSnd (takeColl s kind) := takeInbox_wf _ _ w

theorem resultIn_wf (s : State) (gn : Nat) (x : Inst) (p : FPkt) (w : Canon s) : CanonSome (resultIn s gn x p) := by
  unfold resultIn
  extract_lets -underBinder
  split
  · exact .some (dropInst_wf _ _ _ w)
  · split
    · split
      · exact .none
      · exact .some (failInst_wf _ _ _ _ w)
    · next s1 h1 =>
        have w_s1 : Canon s1 := canon_ok h1 (storeAll_canon _ _ _ _ w)
        extract_lets -underBinder _ s2
        have w_s2 : Canon s2 := State.modGroup_wf _ _ _ w_s1
        split
        · exact .some w_s2
        · exact endInst_wf _ _ _ _ w_s2

theorem execCollResult_wf (s : State) (w : Canon s) : CanonNext (execCollResult s) := by
  unfold execCollResult
  split
  · exact .next w
  · next s1 h =>
      have w_s1 : Canon s1 := canon_some_snd h (takeColl_wf _ _ w)
      split
      · exact .next (dropRed_wf _ _ w_s1)
      · split
        · exact .next (forwardColl_wf _ _ _ w_s1)
        · split
          · exact .next w
          · next s11 h3 =>
              have w_s11 : Canon s11 := canon_some h3 (resultIn_wf _ _ _ _ w_s1)
              exact .next (forwardColl_wf _ _ _ w_s11)

theorem closingIn_wf (s : State) (kind : Nat) (k : State → Nat → Inst → FPkt → Option State) (w : Canon s)
    (hk : ∀ (t : State) (n : Nat) (i : Inst) (f : FPkt), Canon t → CanonSome (k t n i f)) : Canon (closingIn s kind k) := by
  unfold closingIn
  split
  · exact w
  · next s1 h =>
      have w_s1 : Canon s1 := canon_some_snd h (takeColl_wf _ _ w)
      extract_lets -underBinder
      split
      · exact dropRed_wf _ _ w_s1
      · extract_lets -underBinder s2
        have w_s2 : Canon s2 := closeInst_wf _ _ _ (forwardColl_wf _ _ _ w_s1)
        split
        · exact CanonSome.getD (hk _ _ _ _ w_s2) w
        · split
          · exact w_s2
          · split
            · exact dropRed_wf _ _ w_s2
            · exact State.modGroup_wf _ _ _ w_s2

theorem execCollIncomplete_wf (s : State) (w : Canon s) : CanonNext (execCollIncomplete s) :=
  .next (closingIn_wf _ _ _ w (fun _ _ _ _ w1 => endInst_wf _ _ _ _ w1))

theorem execCollError_wf (s : State) (w : Canon s) : CanonNext (execCollError s) :=
  .next (closingIn_wf _ _ _ w (fun _ _ _ _ w1 => .some (failInst_wf _ _ _ _ w1)))

theorem execNoResultTimeout_wf (group inst : Nat) (s : State) (w : Canon s) : CanonNext (execNoResultTimeout group inst s) := by
  unfold execNoResultTimeout
  split
  · exact .next w
  · split
    · exact .next w
    · extract_lets -underBinder
      split
      · exact .next w
      · exact .next (failInst_wf _ _ _ _ w)

/-! ### Closing an interval (R487, R384) -/

/-- Of the write-back the proof uses `writeBackUnits_wf` alone, so the callee may be any function that keeps memory. -/
theorem cleanUnit_wf (s : State) (ctx name u n : Nat) (w : Canon s) : Canon (cleanUnit s ctx name u n) := by
  have keeps := writeBackUnits_wf
  rw [cleanUnit]
  generalize writeBackUnits = writeBack at keeps ⊢
  as_aux_lemma =>
    split
    · exact w
    · extract_lets -underBinder
      split
      · exact w
      · next s1 h1 =>
          have w1 : Canon s1 := canon_ok h1 (keeps _ _ _ w)
          exact w1

theorem cleanTarns_wf (s : State) (w : Canon s) : Canon (cleanTarns s) := by
  unfold cleanTarns
  refine foldl_wf _ _ (fun _ _ w1 => ?_) w
  split
  · exact w1
  · exact foldl_wf _ _ (fun _ _ w2 => cleanUnit_wf _ _ _ _ _ w2) w1

theorem cleanRest_wf (s : State) (w : Canon s) : Canon (cleanRest s) :=
  foldl_wf _ _ (fun _ _ w1 => foldl_wf _ _ (fun _ _ w2 => cleanUnit_wf _ _ _ _ _ w2) w1) w

theorem closeInterval_wf (s : State) (w : Canon s) : Canon (closeInterval s) := by
  unfold closeInterval
  extract_lets -underBinder s1
  have w_s1 : Canon s1 := Canon.of_mem (cleanSectors_mem ..) (cleanTarns_wf _ w)
  exact w_s1

/-! ### Commits (R489, R491) -/

theorem resumeLog_wf (s : State) (w : Canon s) : Canon (resumeLog s) := by
  unfold resumeLog
  split
  · exact w
  · exact Canon.of_mem (State.modCkpt_mem ..) (closeInterval_wf _ w)

theorem commitAll_wf (n : Nat) (s : State) (w : Canon s) : Canon (commitAll n s) := by
  induction n generalizing s with
  | zero => exact w
  | succ n ih =>
    unfold commitAll
    split
    · split
      · exact ih _ (resumeLog_wf _ w)
      · exact w
    · exact w

theorem commitReady_wf (s : State) (w : Canon s) : Canon (commitReady s) := commitAll_wf _ _ w

theorem execCheckpointClose_wf (s : State) (w : Canon s) : CanonNext (execCheckpointClose s) := by
  unfold execCheckpointClose
  extract_lets -underBinder
  split
  · exact .next w
  · exact .next (commitReady_wf _ (closeInterval_wf _ w))

theorem execCloseComplete_wf (s : State) (w : Canon s) : CanonNext (execCloseComplete s) := by
  unfold execCloseComplete
  extract_lets -underBinder s1
  have w_s1 : Canon s1 := cleanRest_wf _ w
  split <;> exact .next w_s1

/-! ### Scans (R482, R483, R485, R491) -/

theorem turnRotation_wf (s : State) (core : Nat) (w : Canon s) : Canon (turnRotation s core) := by
  unfold turnRotation
  extract_lets -underBinder
  split <;> exact w

theorem execScanDrain_wf (core : Nat) (s : State) (w : Canon s) : CanonNext (execScanDrain core s) := by
  unfold execScanDrain
  split <;> exact .next w

theorem execCoppiceScan_wf (core : Nat) (s : State) (w : Canon s) : CanonNext (execCoppiceScan core s) := by
  unfold execCoppiceScan
  split
  · exact .next w
  · extract_lets -underBinder _ s1
    have w_s1 : Canon s1 := foldl_wf _ _ (fun _ _ w1 => w1) w
    split
    · exact .next (turnRotation_wf _ _ w)
    · split
      · exact .next w
      · exact .next w_s1

theorem execScanDeferTimeout_wf (core : Nat) (s : State) (w : Canon s) : CanonNext (execScanDeferTimeout core s) := by
  unfold execScanDeferTimeout
  split
  · exact .next w
  · split
    · exact .next w
    · exact .next (turnRotation_wf _ _ w)

theorem execScanEnd_wf (core : Nat) (pass : Bool) (s : State) (w : Canon s) : CanonNext (execScanEnd core pass s) := by
  unfold execScanEnd
  split
  · exact .next w
  · split
    · exact .next w
    · extract_lets -underBinder s1
      have w_s1 : Canon s1 := w
      split
      · exact .next (commitReady_wf _ w_s1)
      · exact .next w_s1

/-! ### Rollback (R493, R385) -/

theorem dropL2_wf (s : State) (w : Canon s) : Canon (dropL2 s) := by
  unfold dropL2
  extract_lets -underBinder __src
  have w___src : Canon __src := foldl_wf _ _ (fun _ _ w1 => dropSector_wf _ _ w1) w
  exact w___src

theorem undoTo_wf (s : State) (c : Nat) (w : Canon s) : Canon (undoTo s c) := by
  unfold undoTo
  extract_lets -underBinder _ s1
  have w_s1 : Canon s1 := foldl_wf _ _ (fun _ _ w1 => writeBytes_wf _ _ _ w1) w
  exact w_s1

theorem rollTarn_wf (c : Nat) (s : State) (t0 : Tarn) (w : Canon s) : Canon (rollTarn c s t0) := by
  unfold rollTarn
  extract_lets -underBinder _ s1
  have w_s1 : Canon s1 := by
    unfold s1
    split
    · exact freeStorage_wf _ _ w
    · exact w
  split
  · exact dropTarn_wf _ _ w
  · split
    · split
      · exact w_s1
      · exact settleEnd_wf _ _ w_s1
    · split
      · exact w
      · exact settleEnd_wf _ _ w

theorem clearPads_wf (s : State) (w : Canon s) : Canon (clearPads s) := by
  unfold clearPads
  extract_lets -underBinder
  exact filter_wf _ _ w

theorem announce_wf (s : State) (c : Nat) (snap : Snap) (w : Canon s) : Canon (announce s c snap) := by
  unfold announce
  extract_lets -underBinder s1
  have w_s1 : Canon s1 := foldl_wf _ _ (fun _ _ w1 => mirrorFlags_wf _ _ (mirrorRetired_wf _ _ (mirrorNext_wf _ _ w1))) w
  exact foldl_wf _ _ (fun _ _ w1 => reportFault_wf _ _ _ w1) w_s1

theorem rollbackTo_wf (s : State) (c : Nat) (snap : Snap) (w : Canon s) : Canon (rollbackTo s c snap) := by
  unfold rollbackTo
  extract_lets -underBinder s1 s2 _ _ _ s4
  have w_s1 : Canon s1 := undoTo_wf _ _ (dropL2_wf _ w)
  have w_s2 : Canon s2 := clearPads_wf _ (foldl_wf _ _ (fun _ _ w1 => rollTarn_wf _ _ _ w1) w_s1)
  have w_s4 : Canon s4 := announce_wf _ _ _ w_s2
  split
  · exact sendMsix_wf _ _ w_s4
  · exact w_s4

/-! ### A failure without protected state (R494) -/

theorem failStruck_wf (s : State) (id : Nat) (w : Canon s) : Canon (failStruck s id) := by
  unfold failStruck
  split
  · exact w
  · extract_lets -underBinder _ s1 _ s2
    have w_s1 : Canon s1 := foldl_wf _ _ (fun _ _ w1 => freeJob_wf _ _ w1) w
    have w_s2 : Canon s2 := Canon.of_mem (State.modLaunch_mem ..) (reportFault_wf _ _ _ w_s1)
    exact completeLaunch_wf _ _ w_s2

theorem failRan_wf (s : State) (e : Ran) (w : Canon s) : Canon (failRan s e) := by
  unfold failRan
  split
  · exact w
  · extract_lets -underBinder s1
    have w_s1 : Canon s1 := storeLater_wf _ _ _ _ w
    split
    · exact w_s1
    · split
      · split
        · exact w_s1
        · exact failNode_wf _ _ _ _ _ w_s1
      · exact w_s1

theorem struckBy_wf (s : State) (core : Nat) (w : Canon s) : Canon (struckBy s core) := by
  unfold struckBy
  extract_lets -underBinder _ _ s1
  have w_s1 : Canon s1 := foldl_wf _ _ (fun _ _ w1 => failRan_wf _ _ w1) w
  exact foldl_wf _ _ (fun _ _ w1 => failStruck_wf _ _ w1) w_s1

theorem clearCluster_wf (s : State) (cl : Nat) (w : Canon s) : Canon (clearCluster s cl) := by
  unfold clearCluster
  split
  · exact w
  · exact foldl_wf _ _ (fun _ _ w1 => w1) w

theorem execRollback_wf (s : State) (w : Canon s) : CanonNext (execRollback s) := by
  unfold execRollback
  split
  · exact .next w
  · split
    · exact .next (cleanRest_wf _ w)
    · extract_lets -underBinder s1
      have w_s1 : Canon s1 := w
      split
      · exact .next (rollbackTo_wf _ _ _ w_s1)
      · exact .next (clearCluster_wf _ _ (struckBy_wf _ _ w_s1))

/-! ### Spares (R503, R505) -/

theorem sliceError_wf (s : State) (slice : Nat) (line : Option Nat) (w : Canon s) : Canon (sliceError s slice line) := by
  unfold sliceError
  split
  · exact w
  · split <;> exact w

theorem execSliceSpare_wf (slice : Nat) (s : State) (w : Canon s) : CanonNext (execSliceSpare slice s) := by
  unfold execSliceSpare
  split
  · exact .next w
  · extract_lets -underBinder s1
    have w_s1 : Canon s1 := w
    exact .next w_s1

theorem execLaserSpare_wf (bank : Nat) (s : State) (w : Canon s) : CanonNext (execLaserSpare bank s) := by
  unfold execLaserSpare
  split
  · exact .next w
  · extract_lets -underBinder s1
    have w_s1 : Canon s1 := w
    exact .next (foldl_wf _ _ (fun _ _ w1 => shedFed_wf _ _ _ w1) w_s1)

/-! ### Hedge table registers (R508, R509) -/

theorem execHedgeSelWrite_wf (m : Master) (d : Word) (s : State) (w : Canon s) : CanonNext (execHedgeSelWrite m d s) := by
  unfold execHedgeSelWrite
  split
  · exact .next w
  · split
    · exact .next w
    · split <;> exact .next w

theorem execHedgeDataWrite_wf (m : Master) (d : Word) (s : State) (w : Canon s) : CanonNext (execHedgeDataWrite m d s) := by
  unfold execHedgeDataWrite
  split
  · exact .next w
  · split
    · exact .next w
    · split <;> exact .next w

theorem execHedgeApply_wf (s : State) (w : Canon s) : CanonNext (execHedgeApply s) := by
  unfold execHedgeApply
  split
  · exact .next w
  · extract_lets -underBinder
    exact .next w

theorem chanEvent_wf (s : State) (m : Master) (stack ch off : Nat) (d : Word) (w : Canon s) : CanonNext (chanEvent s m stack ch off d) := by
  unfold chanEvent
  split
  · exact .next w
  · split
    · exact .next (chanWrite_wf _ _ _ _ w)
    · exact .next w

theorem execPatternTest_wf (m : Master) (stack ch : Nat) (d : Word) (s : State) (w : Canon s) : CanonNext (execPatternTest m stack ch d s) :=
  chanEvent_wf _ _ _ _ _ _ w

theorem execRdallWrite_wf (m : Master) (stack ch : Nat) (d : Word) (s : State) (w : Canon s) : CanonNext (execRdallWrite m stack ch d s) :=
  chanEvent_wf _ _ _ _ _ _ w

theorem execWdallWrite_wf (m : Master) (stack ch : Nat) (d : Word) (s : State) (w : Canon s) : CanonNext (execWdallWrite m stack ch d s) :=
  chanEvent_wf _ _ _ _ _ _ w

theorem execRepairWrite_wf (m : Master) (stack ch : Nat) (d : Word) (s : State) (w : Canon s) : CanonNext (execRepairWrite m stack ch d s) :=
  chanEvent_wf _ _ _ _ _ _ w

theorem execChmodeWrite_wf (m : Master) (stack ch : Nat) (d : Word) (s : State) (w : Canon s) : CanonNext (execChmodeWrite m stack ch d s) :=
  chanEvent_wf _ _ _ _ _ _ w

theorem execPatternTestComplete_wf (stack ch : Nat) (pass : BitVec 66) (errs : Word) (s : State) (w : Canon s) :
    CanonNext (execPatternTestComplete stack ch pass errs s) := by
  unfold execPatternTestComplete
  extract_lets -underBinder
  split
  · exact .next w
  · split <;> exact .next w

theorem execChannelOffline_wf (stack ch : Nat) (s : State) (w : Canon s) : CanonNext (execChannelOffline stack ch s) := by
  unfold execChannelOffline
  extract_lets -underBinder
  split <;> exact .next w

/-! ### The events of a switch (R524, R525) -/

theorem writeHandOver_wf (s : State) (n : Nat) (w : Canon s) : Canon (writeHandOver s n) := by
  unfold writeHandOver
  extract_lets -underBinder
  split
  · next s1 h =>
      have w_s1 : Canon s1 := by
        refine canon_snd h ?_
        split
        · exact State.drawFree_wf _ w
        · exact w
      extract_lets -underBinder
      exact Canon.of_mem (modSig_mem ..) (writeBytes_wf _ _ _ w_s1)

/-! ### UPD.CMD (R522) -/

theorem updCommand_wf (s : State) (m : Master) (op : Nat) (d : Word) (f : State) (w : Canon s) (w1 : Canon f) :
    CanonNext (updCommand s m op d f) := by
  unfold updCommand
  split
  · exact .next w
  · split
    · exact .next w
    · split
      · exact .next w
      · exact .next w1

theorem updReservedOp_wf (s : State) (d : Word) (w : Canon s) : Canon (updReservedOp s d) := by
  unfold updReservedOp
  split <;> exact w

/-! ### Staging (R519, R520) -/

theorem execStage_wf (m : Master) (d : Word) (s : State) (w : Canon s) : CanonNext (execStage m d s) := updCommand_wf _ _ _ _ _ w w

theorem execStageComplete_wf (s : State) (w : Canon s) : CanonNext (execStageComplete s) := by
  unfold execStageComplete
  extract_lets -underBinder _ _ _ _ _ _ _ s1
  have w_s1 : Canon s1 := by
    unfold s1
    split
    · exact forCtls_wf _ _ _ (fun _ _ w1 => w1) w
    · exact w
  clear_value s1
  split
  · exact .next w
  · split
    · exact .next w
    · split
      · exact .next w
      · exact .next w_s1

/-! ### ACTIVATE, ABORT, SVNCOMMIT (R520, R523, R526, R530) -/

theorem beginSwitch_wf (s : State) (d : Word) (w : Canon s) : Canon (beginSwitch s d) := by
  unfold beginSwitch
  extract_lets -underBinder _ s1
  have w_s1 : Canon s1 := w
  split
  · exact w_s1
  · exact forCtls_wf _ _ _ (fun _ _ w1 => startCtl_wf _ _ _ w1) w_s1

theorem activateNow_wf (s : State) (d : Word) (w : Canon s) : Canon (activateNow s d) := by
  unfold activateNow
  split
  · exact beginSwitch_wf _ _ w
  · split
    · next s1 h1 =>
        have w_s1 : Canon s1 := canon_snd h1 (State.drawFree_wf _ w)
        exact w_s1

theorem execActivate_wf (m : Master) (d : Word) (s : State) (w : Canon s) : CanonNext (execActivate m d s) :=
  updCommand_wf _ _ _ _ _ w (activateNow_wf _ _ w)

theorem abortNow_wf (s : State) (w : Canon s) : Canon (abortNow s) := by
  unfold abortNow
  split
  · exact w
  · split
    · exact failUpdate_wf _ _ w
    · exact w

theorem execAbort_wf (m : Master) (d : Word) (s : State) (w : Canon s) : CanonNext (execAbort m d s) := updCommand_wf _ _ _ _ _ w (abortNow_wf _ w)
theorem execSvncommit_wf (m : Master) (d : Word) (s : State) (w : Canon s) : CanonNext (execSvncommit m d s) := updCommand_wf _ _ _ _ _ w w

/-! ### The course of a switch (R523 to R526) -/

theorem execReady_wf (ctl : Nat) (s : State) (w : Canon s) : CanonNext (execReady ctl s) := by
  unfold execReady
  refine .next ?_
  split
  · exact sigReady_wf _ _ w
  · exact w

theorem execHanded_wf (ctl : Nat) (s : State) (w : Canon s) : CanonNext (execHanded ctl s) := by
  unfold execHanded
  split
  · exact .next (sigHanded_wf _ _ (writeHandOver_wf _ _ w))
  · exact .next w

theorem execHealthy_wf (ctl : Nat) (s : State) (w : Canon s) : CanonNext (execHealthy ctl s) := by
  unfold execHealthy
  extract_lets -underBinder
  split
  · exact .next (sigHealthy_wf _ _ w)
  · exact .next w

theorem execUpdateDeadline_wf (s : State) (w : Canon s) : CanonNext (execUpdateDeadline s) := by
  unfold execUpdateDeadline
  extract_lets -underBinder
  split
  · exact .next w
  · split
    · refine .next ?_
      split <;> exact w
    · split
      · exact .next (failUpdate_wf _ _ w)
      · exact .next w

theorem execSwitchWindowExpire_wf (s : State) (w : Canon s) : CanonNext (execSwitchWindowExpire s) := by
  unfold execSwitchWindowExpire
  split
  · split
    · exact .next (failUpdate_wf _ _ w)
    · exact .next w
  · exact .next w

/-! ### Class 5 (R530) -/

theorem switchCore_wf (s : State) (core image : Nat) (im : Option Image) (w : Canon s) : Canon (switchCore s core image im) := startFw_wf _ _ _ w

theorem execCoreFirmwareSwitch_wf (core : Nat) (s : State) (w : Canon s) : CanonNext (execCoreFirmwareSwitch core s) := by
  unfold execCoreFirmwareSwitch
  extract_lets -underBinder
  split
  · exact .next w
  · split
    · extract_lets -underBinder s1
      have w_s1 : Canon s1 := Canon.of_mem (State.modUpd_mem ..) (switchCore_wf _ _ _ _ w)
      exact .next w_s1
    · extract_lets -underBinder s1
      have w_s1 : Canon s1 := Canon.of_mem (State.modUpd_mem ..) (switchCore_wf _ _ _ _ w)
      refine .next ?_
      split
      · exact endUpdate_wf _ _ _ w_s1
      · exact w_s1
    · exact .next w

theorem execFwHealth_wf (core : Nat) (d : Word) (s : State) (w : Canon s) : CanonNext (execFwHealth core d s) := by
  unfold execFwHealth
  refine .next ?_
  split
  · exact fwHealthWrite_wf _ _ _ w
  · exact w

/-! ### Restarting a controller (R512) -/

theorem execControllerRestart_wf (n : Nat) (s : State) (w : Canon s) : CanonNext (execControllerRestart n s) := by
  unfold execControllerRestart
  split
  · exact .next (startCtl_wf _ _ _ w)
  · exact .next w

/-! ### Module reset (R535) -/

theorem moduleReset_wf (s : State) (reason : Nat) (w : Canon s) : Canon (moduleReset s reason) := by
  unfold moduleReset
  extract_lets -underBinder
  exact filter_wf _ _ (dropL2_wf _ w)

theorem execPerst_wf (s : State) (w : Canon s) : CanonNext (execPerst s) := by
  unfold execPerst
  refine .next ?_
  split
  · exact moduleReset_wf _ _ w
  · exact w

/-! ### Boot (R531, R532) -/

theorem takeRomSlot_wf (s : State) (w : Canon s) : Canon (takeRomSlot s) := by
  unfold takeRomSlot
  split <;> exact w

theorem failBoot_wf (s : State) (k : Nat) (w : Canon s) : Canon (failBoot s k) := by
  unfold failBoot
  split
  · next s1 h =>
      have w_s1 : Canon s1 := canon_snd h (State.drawFree_wf _ w)
      extract_lets -underBinder s2
      have w_s2 : Canon s2 := moduleReset_wf _ _ w_s1
      exact w_s2

theorem startImage_wf (s : State) (n : Nat) (w : Canon s) : Canon (startImage s n) := startCtl_wf _ _ _ w

theorem trainStacks_wf (s : State) (ks : List Nat) (w : Canon s) : Canon (trainStacks s ks) :=
  foldl_wf _ _ (fun _ _ w1 => foldl_wf _ _ (fun _ _ w2 => w2) w1) w

theorem startCores_wf (s : State) (w : Canon s) : Canon (startCores s) := foldl_wf _ _ (fun _ _ w1 => startFw_wf _ _ _ w1) w

theorem trainPorts_wf (s : State) (w : Canon s) : Canon (trainPorts s) := by
  unfold trainPorts
  refine foldl_wf _ _ (fun _ _ w1 => ?_) w
  split <;> exact w1

theorem fullBoot_wf (s : State) (w : Canon s) : Canon (fullBoot s) := by
  have key : ∀ (u : State) (b : Boot), Canon u → Canon { u with boot := b } := fun _ _ wu => wu
  have w1 : Canon ((upTo 0 23).foldl startImage (takeRomSlot s)) := foldl_wf _ _ (fun _ _ wt => startImage_wf _ _ wt) (takeRomSlot_wf _ w)
  have w2 : ∀ u, Canon u → Canon (installTree u) := fun u wu => wu
  exact key _ _ (w2 _ (trainPorts_wf _ (startCores_wf _ (trainStacks_wf _ _ w1))))

theorem minimalBoot_wf (s0 : State) (ok : List Bool) (w : Canon s0) : Canon (minimalBoot s0 ok) := by
  unfold minimalBoot
  extract_lets -underBinder s k s1 s2
  have w_s : Canon s := takeRomSlot_wf _ w
  have w_s1 : Canon s1 := foldl_wf _ _ (fun _ _ w1 => startImage_wf _ _ w1) w_s
  have w_s2 : Canon s2 := by
    unfold s2
    clear_value k
    split
    · exact trainStacks_wf _ _ w_s1
    · exact w_s1
  exact w_s2

theorem execBoot_wf (ok : List Bool) (s : State) (w : Canon s) : CanonNext (execBoot ok s) := by
  unfold execBoot
  extract_lets -underBinder
  split
  · exact .next w
  · split
    · refine .next ?_
      split
      · exact failBoot_wf _ _ w
      · exact minimalBoot_wf _ _ w
    · refine .next ?_
      split
      · exact failBoot_wf _ _ w
      · exact fullBoot_wf _ w

/-! ### BOOT.CTL and BOOT.STATUS (R533) -/

theorem execClear_wf (m : Master) (s : State) (w : Canon s) : CanonNext (execClear m s) := by
  unfold execClear
  split
  · exact .next w
  · split <;> exact .next w

theorem execRetry_wf (m : Master) (s : State) (w : Canon s) : CanonNext (execRetry m s) := by
  unfold execRetry
  split
  · exact .next w
  · split
    · exact .next w
    · exact .next (moduleReset_wf _ _ w)

theorem i3cWrite_wf (s : State) (off : Nat) (d : Word) (w : Canon s) : Canon (i3cWrite s off d) := by
  unfold i3cWrite
  split
  · exact w
  · split
    · exact moduleReset_wf _ _ w
    · split <;> exact w

/-! ### SPDM (R521, R543) -/

theorem spdmAnswer_wf (s : State) (a : SpdmAns) (w : Canon s) : CanonNext (spdmAnswer s a) := by
  unfold spdmAnswer
  split
  · exact .next w
  · split <;> exact .next w

theorem execGetVersion_wf (_req : SpdmReq) (s : State) (w : Canon s) : CanonNext (execGetVersion _req s) := spdmAnswer_wf _ _ w
theorem execGetCapabilities_wf (_req : SpdmReq) (s : State) (w : Canon s) : CanonNext (execGetCapabilities _req s) := spdmAnswer_wf _ _ w
theorem execNegotiateAlgorithms_wf (_req : SpdmReq) (s : State) (w : Canon s) : CanonNext (execNegotiateAlgorithms _req s) := spdmAnswer_wf _ _ w
theorem execGetDigests_wf (_req : SpdmReq) (s : State) (w : Canon s) : CanonNext (execGetDigests _req s) := spdmAnswer_wf _ _ w

theorem execGetCertificate_wf (req : SpdmReq) (s : State) (w : Canon s) : CanonNext (execGetCertificate req s) := by
  unfold execGetCertificate
  extract_lets -underBinder
  split <;> exact spdmAnswer_wf _ _ w

theorem signed_wf (s : State) (req : SpdmReq) (code : Nat) (body : List Byte) (w : Canon s) : Canon (signed s req code body).1 := by
  unfold signed
  split
  · next s1 h =>
      have w_s1 : Canon s1 := canon_snd h (State.drawFree_wf _ w)
      exact w_s1

theorem execChallenge_wf (req : SpdmReq) (s : State) (w : Canon s) : CanonNext (execChallenge req s) := by
  unfold execChallenge
  split
  · exact spdmAnswer_wf _ _ w
  · split
    · next s1 _ _ h1 =>
        have w_s1 : Canon s1 := canon_fst h1 (signed_wf _ _ _ _ w)
        exact spdmAnswer_wf _ _ w_s1

theorem execGetMeasurements_wf (req : SpdmReq) (s : State) (w : Canon s) : CanonNext (execGetMeasurements req s) := by
  unfold execGetMeasurements
  extract_lets -underBinder
  split
  · exact spdmAnswer_wf _ _ w
  · split
    · next s1 _ _ h1 =>
        have w_s1 : Canon s1 := canon_fst h1 (signed_wf _ _ _ _ w)
        exact spdmAnswer_wf _ _ w_s1

/-! ### BAR4 (R536) -/

theorem resizeBar4_wf (s : State) (n : Nat) (w : Canon s) : Canon (resizeBar4 s n) := by
  unfold resizeBar4
  split <;> exact w

theorem execBar4Access_wf (off : Nat) (op : HostOp) (s : State) (w : Canon s) : CanonNext (execBar4Access off op s) := by
  unfold execBar4Access
  split
  · exact .next w
  · split
    · exact .next (hostAccess_wf _ _ _ w)
    · exact .next (hostDenied_wf _ _ w)

/-! ### MSI-X (R538) -/

theorem setMask_wf (s : State) (vec : Nat) (masked : Bool) (w : Canon s) : Canon (setMask s vec masked) := by
  unfold setMask
  extract_lets -underBinder
  split <;> exact w

theorem execMsixMaskWrite_wf (m : Master) (vec : Nat) (masked : Bool) (s : State) (w : Canon s) : CanonNext (execMsixMaskWrite m vec masked s) := by
  unfold execMsixMaskWrite
  split
  · exact .next w
  · split
    · exact .next w
    · exact .next (setMask_wf _ _ _ w)

/-! ### CXL links (R539, R540) -/

theorem execCxlLinkDown_wf (p : Nat) (s : State) (w : Canon s) : CanonNext (execCxlLinkDown p s) := by
  unfold execCxlLinkDown
  split <;> exact .next w

theorem deviceBytes_wf (s : State) (p : Nat) (w : Canon s) : Canon (deviceBytes s p) := by
  unfold deviceBytes
  extract_lets -underBinder _ __src
  have w___src : Canon __src := foldl_wf _ _ (fun _ _ w1 => writeBytes_wf _ _ _ w1) w
  exact w___src

theorem execCxlLinkUp_wf (p : Nat) (s : State) (w : Canon s) : CanonNext (execCxlLinkUp p s) := by
  unfold execCxlLinkUp
  split
  · next s1 h =>
      have w_s1 : Canon s1 := canon_snd h (State.drawFree_wf _ w)
      split
      · exact .next (Canon.of_mem (State.modCxl_mem ..) (deviceBytes_wf _ _ w_s1))
      · exact .next w

/-! ### Power and temperature (R541, R542) -/

theorem removePower_wf (s : State) (w : Canon s) : Canon (removePower s) := by
  unfold removePower
  extract_lets -underBinder __src
  have w___src : Canon __src := moduleReset_wf _ _ w
  exact w___src

theorem execUndervoltage_wf (s : State) (w : Canon s) : CanonNext (execUndervoltage s) := .next (removePower_wf _ w)

theorem execThermalThrottle_wf (die temp : Nat) (s : State) (w : Canon s) : CanonNext (execThermalThrottle die temp s) := by
  unfold execThermalThrottle
  split <;> exact .next w

theorem execThrottleRelease_wf (temps : List Nat) (s : State) (w : Canon s) : CanonNext (execThrottleRelease temps s) := by
  unfold execThrottleRelease
  split <;> exact .next w

theorem execOvertemperature_wf (die temp : Nat) (s : State) (w : Canon s) : CanonNext (execOvertemperature die temp s) := by
  unfold execOvertemperature
  split
  · exact .next (removePower_wf _ w)
  · exact .next w

theorem readSensors_wf (s : State) (temps : List Nat) (inputv inputw : Nat) (w : Canon s) : Canon (readSensors s temps inputv inputw) := by
  unfold readSensors
  extract_lets -underBinder
  split
  · exact removePower_wf _ w
  · exact w

theorem writeTherm_wf (s : State) (m : Master) (d : Word) (w : Canon s) : Canon (writeTherm s m d) := by
  unfold writeTherm
  extract_lets -underBinder
  split <;> exact w

/-! ### Register writes without an event of their own (R544) -/

theorem writeMsix_wf (s : State) (off : Nat) (d : Word) (w : Canon s) : Canon (writeMsix s off d) := by
  unfold writeMsix
  extract_lets -underBinder
  split
  · exact w
  · exact setMask_wf _ _ _ w

theorem writeQueueReg_wf (s : State) (off : Nat) (d : Word) (w : Canon s) : Canon (writeQueueReg s off d) := by
  unfold writeQueueReg
  extract_lets -underBinder
  split
  · exact w
  · split <;> exact w
  · exact w
  · exact w
  · exact w

theorem writeRange_wf (s : State) (off : Nat) (d : Word) (w : Canon s) : Canon (writeRange s off d) := by
  unfold writeRange
  extract_lets -underBinder
  split <;> exact w

theorem writeFabReg_wf (s : State) (m : Master) (off : Nat) (d : Word) (w : Canon s) : Canon (writeFabReg s m off d) := by
  unfold writeFabReg
  split
  · exact w
  · split
    · split <;> exact w
    · split
      · extract_lets -underBinder
        split <;> exact w
      · split
        · exact w
        · split
          · exact w
          · split <;> exact w

theorem writeBar0_wf (s : State) (m : Master) (off : Nat) (d : Word) (w : Canon s) : Canon (writeBar0 s m off d) :=
  canon_ite w <| canon_ite (writeMsix_wf _ _ _ w) <| canon_ite (writeQueueReg_wf _ _ _ w) <| canon_ite w <|
  canon_ite (writeSpillbase_wf _ _ w) <| canon_ite w <| canon_ite (writeRange_wf _ _ _ w) <| canon_ite w <|
  canon_ite (canon_ite w w) <| canon_ite (writeFabReg_wf _ _ _ _ w) <| canon_ite w <| canon_ite (updReservedOp_wf _ _ w) <|
  canon_ite w <| canon_ite (writeTherm_wf _ _ _ w) w

theorem execRegisterWrite_wf (m : Master) (off : Nat) (d : Word) (s : State) (w : Canon s) : CanonNext (execRegisterWrite m off d s) := by
  unfold execRegisterWrite
  split
  · exact .next w
  · split
    · exact .next w
    · exact .next (writeBar0_wf _ _ _ _ w)

/-- Every instruction and every event, one by one. -/
theorem exec_wf : ∀ (i : Instr) (s : State), Canon s → CanonNext (exec i s)
  | .notify m q, s, w => execNotify_wf m q s w
  | .bar2RingAccess off op, s, w => execBar2RingAccess_wf off op s w
  | .entryFetch h, s, w => execEntryFetch_wf h s w
  | .fetchPoll h, s, w => execFetchPoll_wf h s w
  | .nopPacket h, s, w => execNopPacket_wf h s w
  | .launchPacket h, s, w => execLaunchPacket_wf h s w
  | .graphPacket h, s, w => execGraphPacket_wf h s w
  | .writePacket h, s, w => execWritePacket_wf h s w
  | .fillPacket h, s, w => execFillPacket_wf h s w
  | .copyPacket h, s, w => execCopyPacket_wf h s w
  | .signalPacket h, s, w => execSignalPacket_wf h s w
  | .waitPacket h, s, w => execWaitPacket_wf h s w
  | .waitRecheck h, s, w => execWaitRecheck_wf h s w
  | .waitTimeout h, s, w => execWaitTimeout_wf h s w
  | .fencePacket h, s, w => execFencePacket_wf h s w
  | .timestampPacket h, s, w => execTimestampPacket_wf h s w
  | .segadminNew h, s, w => execSegadminNew_wf h s w
  | .segadminEvict h, s, w => execSegadminEvict_wf h s w
  | .segadminDrop h, s, w => execSegadminDrop_wf h s w
  | .segadminQuery h, s, w => execSegadminQuery_wf h s w
  | .packetComplete h n, s, w => execPacketComplete_wf h n s w
  | .enable m q, s, w => execEnable_wf m q s w
  | .disable m q, s, w => execDisable_wf m q s w
  | .disableComplete, s, w => execDisableComplete_wf s w
  | .queueMap, s, w => execQueueMap_wf s w
  | .idleUnmap h, s, w => execIdleUnmap_wf h s w
  | .timesliceUnmap h, s, w => execTimesliceUnmap_wf h s w
  | .blockHeader r e t k l n, s, w => execBlockHeader_wf r e t k l n s w
  | .compactAddX0 a b, s, w => execCompactAddX0_wf a b s w
  | .compactAdd a b, s, w => execCompactAdd_wf a b s w
  | .compactSub a b, s, w => execCompactSub_wf a b s w
  | .compactAnd a b, s, w => execCompactAnd_wf a b s w
  | .compactOr a b, s, w => execCompactOr_wf a b s w
  | .compactXor a b, s, w => execCompactXor_wf a b s w
  | .compactAddi a imm, s, w => execCompactAddi_wf a imm s w
  | .compactMovi a imm, s, w => execCompactMovi_wf a imm s w
  | .compactShli a n, s, w => execCompactShli_wf a n s w
  | .compactShri a n, s, w => execCompactShri_wf a n s w
  | .compactSari a n, s, w => execCompactSari_wf a n s w
  | .compactLdd a b, s, w => execCompactLdd_wf a b s w
  | .compactStd a b, s, w => execCompactStd_wf a b s w
  | .compactSaddi n imm, s, w => execCompactSaddi_wf n imm s w
  | .compactQput q b, s, w => execCompactQput_wf q b s w
  | .compactQget a q, s, w => execCompactQget_wf a q s w
  | .compactNop, s, w => execCompactNop_wf s w
  | .compactEnd, s, w => execCompactEnd_wf s w
  | .add h d a b, s, w => execAdd_wf h d a b s w
  | .sub h d a b, s, w => execSub_wf h d a b s w
  | .and h d a b, s, w => execAnd_wf h d a b s w
  | .or h d a b, s, w => execOr_wf h d a b s w
  | .xor h d a b, s, w => execXor_wf h d a b s w
  | .shl h d a b, s, w => execShl_wf h d a b s w
  | .shr h d a b, s, w => execShr_wf h d a b s w
  | .sar h d a b, s, w => execSar_wf h d a b s w
  | .min h d a b, s, w => execMin_wf h d a b s w
  | .max h d a b, s, w => execMax_wf h d a b s w
  | .umin h d a b, s, w => execUmin_wf h d a b s w
  | .umax h d a b, s, w => execUmax_wf h d a b s w
  | .mul h d a b, s, w => execMul_wf h d a b s w
  | .mulh h d a b, s, w => execMulh_wf h d a b s w
  | .umulh h d a b, s, w => execUmulh_wf h d a b s w
  | .div h d a b, s, w => execDiv_wf h d a b s w
  | .udiv h d a b, s, w => execUdiv_wf h d a b s w
  | .rem h d a b, s, w => execRem_wf h d a b s w
  | .urem h d a b, s, w => execUrem_wf h d a b s w
  | .clz h d a, s, w => execClz_wf h d a s w
  | .popc h d a, s, w => execPopc_wf h d a s w
  | .brev h d a, s, w => execBrev_wf h d a s w
  | .sextb h d a, s, w => execSextb_wf h d a s w
  | .sexth h d a, s, w => execSexth_wf h d a s w
  | .sextw h d a, s, w => execSextw_wf h d a s w
  | .zextw h d a, s, w => execZextw_wf h d a s w
  | .slt h d a b, s, w => execSlt_wf h d a b s w
  | .uslt h d a b, s, w => execUslt_wf h d a b s w
  | .addi h d a imm, s, w => execAddi_wf h d a imm s w
  | .andi h d a imm, s, w => execAndi_wf h d a imm s w
  | .ori h d a imm, s, w => execOri_wf h d a imm s w
  | .xori h d a imm, s, w => execXori_wf h d a imm s w
  | .shli h d a n, s, w => execShli_wf h d a n s w
  | .shri h d a n, s, w => execShri_wf h d a n s w
  | .sari h d a n, s, w => execSari_wf h d a n s w
  | .movi h d imm, s, w => execMovi_wf h d imm s w
  | .ldlit h d imm, s, w => execLdlit_wf h d imm s w
  | .setlc h a imm, s, w => execSetlc_wf h a imm s w
  | .cmp h p a b c k, s, w => execCmp_wf h p a b c k s w
  | .cmpi h p a imm c k, s, w => execCmpi_wf h p a imm c k s w
  | .br h o, s, w => execBr_wf h o s w
  | .call h o, s, w => execCall_wf h o s w
  | .jmp h a, s, w => execJmp_wf h a s w
  | .callr h a, s, w => execCallr_wf h a s w
  | .ret h, s, w => execRet_wf h s w
  | .pand h d a b, s, w => execPand_wf h d a b s w
  | .por h d a b, s, w => execPor_wf h d a b s w
  | .pxor h d a b, s, w => execPxor_wf h d a b s w
  | .pandn h d a b, s, w => execPandn_wf h d a b s w
  | .pnot h d a, s, w => execPnot_wf h d a s w
  | .pmov h d a, s, w => execPmov_wf h d a s w
  | .pbcast h d a, s, w => execPbcast_wf h d a s w
  | .pcnt h d a, s, w => execPcnt_wf h d a s w
  | .ldb h d a c o, s, w => execLdb_wf h d a c o s w
  | .ldh h d a c o, s, w => execLdh_wf h d a c o s w
  | .ldw h d a c o, s, w => execLdw_wf h d a c o s w
  | .ldd h d a c o, s, w => execLdd_wf h d a c o s w
  | .stb h d a c o, s, w => execStb_wf h d a c o s w
  | .sth h d a c o, s, w => execSth_wf h d a c o s w
  | .stw h d a c o, s, w => execStw_wf h d a c o s w
  | .std h d a c o, s, w => execStd_wf h d a c o s w
  | .amo h d a b f, s, w => execAmo_wf h d a b f s w
  | .amow h d a b f, s, w => execAmow_wf h d a b f s w
  | .amon h a b f, s, w => execAmon_wf h a b f s w
  | .cas h d a b, s, w => execCas_wf h d a b s w
  | .casw h d a b, s, w => execCasw_wf h d a b s w
  | .asc h d a b f, s, w => execAsc_wf h d a b f s w
  | .ascCas h d a b, s, w => execAscCas_wf h d a b s w
  | .fence h m e, s, w => execFence_wf h m e s w
  | .sadd h n a, s, w => execSadd_wf h n a s w
  | .saddi h n imm, s, w => execSaddi_wf h n imm s w
  | .swait h n a, s, w => execSwait_wf h n a s w
  | .sread h d n, s, w => execSread_wf h d n s w
  | .sset h n a, s, w => execSset_wf h n a s w
  | .qput h q a, s, w => execQput_wf h q a s w
  | .qget h d q, s, w => execQget_wf h d q s w
  | .qcount h d q, s, w => execQcount_wf h d q s w
  | .qflush h q, s, w => execQflush_wf h q s w
  | .brq h q o, s, w => execBrq_wf h q o s w
  | .csrr h d c, s, w => execCsrr_wf h d c s w
  | .csrw h a c, s, w => execCsrw_wf h a c s w
  | .csrwSet h a c, s, w => execCsrwSet_wf h a c s w
  | .csrwClr h a c, s, w => execCsrwClr_wf h a c s w
  | .nop h, s, w => execNop_wf h s w
  | .rdv h m, s, w => execRdv_wf h m s w
  | .sysEnd h, s, w => execSysEnd_wf h s w
  | .trap h c, s, w => execTrap_wf h c s w
  | .bkpt h, s, w => execBkpt_wf h s w
  | .lbar h k, s, w => execLbar_wf h k s w
  | .mwait h a, s, w => execMwait_wf h a s w
  | .mwaitTimeout slot st, s, w => execMwaitTimeout_wf slot st s w
  | .eret h, s, w => execEret_wf h s w
  | .wfe h, s, w => execWfe_wf h s w
  | .stopack h, s, w => execStopack_wf h s w
  | .taskadd h d a b, s, w => execTaskadd_wf h d a b s w
  | .taskjoin h d a b, s, w => execTaskjoin_wf h d a b s w
  | .taskget h d a b, s, w => execTaskget_wf h d a b s w
  | .taskgetTimeout slot, s, w => execTaskgetTimeout_wf slot s w
  | .cpyLin h d a b, s, w => execCpyLin_wf h d a b s w
  | .cpyShp h d a b, s, w => execCpyShp_wf h d a b s w
  | .cpySlot h d a b, s, w => execCpySlot_wf h d a b s w
  | .cpyFill h d a b, s, w => execCpyFill_wf h d a b s w
  | .cpyCirc h d a b, s, w => execCpyCirc_wf h d a b s w
  | .gath h d a b, s, w => execGath_wf h d a b s w
  | .scat h d a b, s, w => execScat_wf h d a b s w
  | .racq h d n r, s, w => execRacq_wf h d n r s w
  | .rrel h n r, s, w => execRrel_wf h n r s w
  | .rcan h n r, s, w => execRcan_wf h n r s w
  | .rstat h d n, s, w => execRstat_wf h d n s w
  | .fempty h a b, s, w => execFempty_wf h a b s w
  | .ftest h d a, s, w => execFtest_wf h d a s w
  | .fput h d a b, s, w => execFput_wf h d a b s w
  | .fget h d a b, s, w => execFget_wf h d a b s w
  | .fred h d a b f, s, w => execFred_wf h d a b f s w
  | .fll h d a, s, w => execFll_wf h d a s w
  | .fsc h d a b, s, w => execFsc_wf h d a b s w
  | .fsig h d a b, s, w => execFsig_wf h d a b s w
  | .fcoll h d a b, s, w => execFcoll_wf h d a b s w
  | .segnew h d a b, s, w => execSegnew_wf h d a b s w
  | .segatt h d a l v, s, w => execSegatt_wf h d a l v s w
  | .segdet h d a, s, w => execSegdet_wf h d a s w
  | .segevict h d a, s, w => execSegevict_wf h d a s w
  | .segdrop h d a, s, w => execSegdrop_wf h d a s w
  | .segqry h d a, s, w => execSegqry_wf h d a s w
  | .cflush h d a b, s, w => execCflush_wf h d a b s w
  | .cinv h d a b, s, w => execCinv_wf h d a b s w
  | .cclean h d a b, s, w => execCclean_wf h d a b s w
  | .cpref h d a b, s, w => execCpref_wf h d a b s w
  | .vadd h d a b m, s, w => execVadd_wf h d a b m s w
  | .vsub h d a b m, s, w => execVsub_wf h d a b m s w
  | .vmul h d a b m, s, w => execVmul_wf h d a b m s w
  | .vfma h d a b m, s, w => execVfma_wf h d a b m s w
  | .vfms h d a b m, s, w => execVfms_wf h d a b m s w
  | .vfnma h d a b m, s, w => execVfnma_wf h d a b m s w
  | .vmax h d a b m, s, w => execVmax_wf h d a b m s w
  | .vmin h d a b m, s, w => execVmin_wf h d a b m s w
  | .vabs h d a, s, w => execVabs_wf h d a s w
  | .vneg h d a, s, w => execVneg_wf h d a s w
  | .vrcpe h d a, s, w => execVrcpe_wf h d a s w
  | .vrsqe h d a, s, w => execVrsqe_wf h d a s w
  | .vfloor h d a, s, w => execVfloor_wf h d a s w
  | .vrnd h d a, s, w => execVrnd_wf h d a s w
  | .vscale h d a b m, s, w => execVscale_wf h d a b m s w
  | .viadd h d a b m, s, w => execViadd_wf h d a b m s w
  | .visub h d a b m, s, w => execVisub_wf h d a b m s w
  | .vimul h d a b m, s, w => execVimul_wf h d a b m s w
  | .vand h d a b m, s, w => execVand_wf h d a b m s w
  | .vor h d a b m, s, w => execVor_wf h d a b m s w
  | .vxor h d a b m, s, w => execVxor_wf h d a b m s w
  | .vshl h d a b m, s, w => execVshl_wf h d a b m s w
  | .vsar h d a b m, s, w => execVsar_wf h d a b m s w
  | .vmov h d b m, s, w => execVmov_wf h d b m s w
  | .vsel h d a b m, s, w => execVsel_wf h d a b m s w
  | .vclamp h d a b m, s, w => execVclamp_wf h d a b m s w
  | .vshr h d a b m, s, w => execVshr_wf h d a b m s w
  | .vcvt h d a t c r, s, w => execVcvt_wf h d a t c r s w
  | .vcmp h p a b c k, s, w => execVcmp_wf h p a b c k s w
  | .vradd h d a, s, w => execVradd_wf h d a s w
  | .vrmax h d a, s, w => execVrmax_wf h d a s w
  | .vrmin h d a, s, w => execVrmin_wf h d a s w
  | .vraddx h d a, s, w => execVraddx_wf h d a s w
  | .vperm h d a b m, s, w => execVperm_wf h d a b m s w
  | .vrot h d a b m, s, w => execVrot_wf h d a b m s w
  | .vshft h d a b m, s, w => execVshft_wf h d a b m s w
  | .vdup h d a b m, s, w => execVdup_wf h d a b m s w
  | .vbc h d a, s, w => execVbc_wf h d a s w
  | .vext h d a b, s, w => execVext_wf h d a b s w
  | .vld h d a c o, s, w => execVld_wf h d a c o s w
  | .vst h d a c o, s, w => execVst_wf h d a c o s w
  | .vldl h d a o, s, w => execVldl_wf h d a o s w
  | .vstl h d a o, s, w => execVstl_wf h d a o s w
  | .vcord h d a n f, s, w => execVcord_wf h d a n f s w
  | .vwin h t u k, s, w => execVwin_wf h t u k s w
  | .pgo h p, s, w => execPgo_wf h p s w
  | .pstop h p, s, w => execPstop_wf h p s w
  | .vstp h d p, s, w => execVstp_wf h d p s w
  | .vstat h d a, s, w => execVstat_wf h d a s w
  | .portPrefetch slot port, s, w => execPortPrefetch_wf slot port s w
  | .mcfg h c a, s, w => execMcfg_wf h c a s w
  | .mma h, s, w => execMma_wf h s w
  | .mmac h, s, w => execMmac_wf h s w
  | .trn h d t, s, w => execTrn_wf h d t s w
  | .prm h d t, s, w => execPrm_wf h d t s w
  | .rred h d t, s, w => execRred_wf h d t s w
  | .zero h m, s, w => execZero_wf h m s w
  | .mclaim h n, s, w => execMclaim_wf h n s w
  | .mrel h n, s, w => execMrel_wf h n s w
  | .mwaitn h a, s, w => execMwaitn_wf h a s w
  | .mpri h a, s, w => execMpri_wf h a s w
  | .mfmt h e a, s, w => execMfmt_wf h e a s w
  | .mret h t, s, w => execMret_wf h t s w
  | .mstat h c d, s, w => execMstat_wf h c d s w
  | .nestStart core, s, w => execNestStart_wf core s w
  | .kstep core, s, w => execKstep_wf core s w
  | .retirementComplete core, s, w => execRetirementComplete_wf core s w
  | .tileOpComplete core, s, w => execTileOpComplete_wf core s w
  | .nestEntryComplete slot, s, w => execNestEntryComplete_wf slot s w
  | .streamAgeTick, s, w => execStreamAgeTick_wf s w
  | .nestAgeTick, s, w => execNestAgeTick_wf s w
  | .recordAgeTick, s, w => execRecordAgeTick_wf s w
  | .packetAgeTick, s, w => execPacketAgeTick_wf s w
  | .commandStart slot fq, s, w => execCommandStart_wf slot fq s w
  | .commandUnitLand slot fq idx unit, s, w => execCommandUnitLand_wf slot fq idx unit s w
  | .commandComplete slot fq idx, s, w => execCommandComplete_wf slot fq idx s w
  | .circuitSlot cluster, s, w => execCircuitSlot_wf cluster s w
  | .reservationExpire, s, w => execReservationExpire_wf s w
  | .fabricTimeout tag, s, w => execFabricTimeout_wf tag s w
  | .graphTableLoad g, s, w => execGraphTableLoad_wf g s w
  | .completionProcessing imm, s, w => execCompletionProcessing_wf imm s w
  | .loopEvaluate g node, s, w => execLoopEvaluate_wf g node s w
  | .endNode g node, s, w => execEndNode_wf g node s w
  | .launchAdmission, s, w => execLaunchAdmission_wf s w
  | .coresidentReserve launch slot, s, w => execCoresidentReserve_wf launch slot s w
  | .cowaitTimeout launch, s, w => execCowaitTimeout_wf launch s w
  | .hierarchyExpansion launch, s, w => execHierarchyExpansion_wf launch s w
  | .recordReady record, s, w => execRecordReady_wf record s w
  | .taskPop slot pick, s, w => execTaskPop_wf slot pick s w
  | .jobStart slot, s, w => execJobStart_wf slot s w
  | .jobEnd slot, s, w => execJobEnd_wf slot s w
  | .spillRefill bank, s, w => execSpillRefill_wf bank s w
  | .preemptionRequest id victim, s, w => execPreemptionRequest_wf id victim s w
  | .affinityRelax record, s, w => execAffinityRelax_wf record s w
  | .tqReprio m d, s, w => execTqReprio_wf m d s w
  | .clusterShareWrite m cluster d, s, w => execClusterShareWrite_wf m cluster d s w
  | .tlbinv m d, s, w => execTlbinv_wf m d s w
  | .tlbinvComplete, s, w => execTlbinvComplete_wf s w
  | .rangeCtlWrite m range d, s, w => execRangeCtlWrite_wf m range d s w
  | .govLimitsWrite m d, s, w => execGovLimitsWrite_wf m d s w
  | .ballastStep, s, w => execBallastStep_wf s w
  | .tarnFillComplete ctx name, s, w => execTarnFillComplete_wf ctx name s w
  | .tarnWritebackComplete ctx name, s, w => execTarnWritebackComplete_wf ctx name s w
  | .tarnMigration ctx name, s, w => execTarnMigration_wf ctx name s w
  | .dataFlit port flit, s, w => execDataFlit_wf port flit s w
  | .creditFlit port flit, s, w => execCreditFlit_wf port flit s w
  | .nackFlit port flit, s, w => execNackFlit_wf port flit s w
  | .shedreqFlit port flit, s, w => execShedreqFlit_wf port flit s w
  | .restripeFlit port flit, s, w => execRestripeFlit_wf port flit s w
  | .abortFlit port flit, s, w => execAbortFlit_wf port flit s w
  | .uncorrectableCodeword port lane, s, w => execUncorrectableCodeword_wf port lane s w
  | .shedWindowEnd port, s, w => execShedWindowEnd_wf port s w
  | .linkDown port dir, s, w => execLinkDown_wf port dir s w
  | .routeSelect port vc, s, w => execRouteSelect_wf port vc s w
  | .escapeEntry port vc, s, w => execEscapeEntry_wf port vc s w
  | .egressSend port, s, w => execEgressSend_wf port s w
  | .escctlFlip m d, s, w => execEscctlFlip_wf m d s w
  | .put, s, w => execPut_wf s w
  | .getreq, s, w => execGetreq_wf s w
  | .getdata, s, w => execGetdata_wf s w
  | .sig, s, w => execSig_wf s w
  | .fllRequest, s, w => execFllRequest_wf s w
  | .fscRequest, s, w => execFscRequest_wf s w
  | .ack, s, w => execAck_wf s w
  | .install m addr, s, w => execInstall_wf m addr s w
  | .remove m addr, s, w => execRemove_wf m addr s w
  | .removeComplete, s, w => execRemoveComplete_wf s w
  | .collectiveStart slot, s, w => execCollectiveStart_wf slot s w
  | .bucketSend group inst, s, w => execBucketSend_wf group inst s w
  | .red, s, w => execRed_wf s w
  | .bucketTimeout node key, s, w => execBucketTimeout_wf node key s w
  | .collResult, s, w => execCollResult_wf s w
  | .collIncomplete, s, w => execCollIncomplete_wf s w
  | .collError, s, w => execCollError_wf s w
  | .noResultTimeout group inst, s, w => execNoResultTimeout_wf group inst s w
  | .stop core, s, w => execStop_wf core s w
  | .resume core, s, w => execResume_wf core s w
  | .kill core, s, w => execKill_wf core s w
  | .report core, s, w => execReport_wf core s w
  | .fwCommandComplete core, s, w => execFwCommandComplete_wf core s w
  | .fwSelWrite core d, s, w => execFwSelWrite_wf core d s w
  | .fwJcsrWrite core d, s, w => execFwJcsrWrite_wf core d s w
  | .fwTick, s, w => execFwTick_wf s w
  | .wdageExpire slot st, s, w => execWdageExpire_wf slot st s w
  | .jobTrap slot, s, w => execJobTrap_wf slot s w
  | .fwContextRestart core, s, w => execFwContextRestart_wf core s w
  | .scanDrain core, s, w => execScanDrain_wf core s w
  | .coppiceScan core, s, w => execCoppiceScan_wf core s w
  | .scanDeferTimeout core, s, w => execScanDeferTimeout_wf core s w
  | .scanEnd core pass, s, w => execScanEnd_wf core pass s w
  | .checkpointClose, s, w => execCheckpointClose_wf s w
  | .closeComplete, s, w => execCloseComplete_wf s w
  | .rollback, s, w => execRollback_wf s w
  | .sliceSpare slice, s, w => execSliceSpare_wf slice s w
  | .laserSpare bank, s, w => execLaserSpare_wf bank s w
  | .hedgeSelWrite m d, s, w => execHedgeSelWrite_wf m d s w
  | .hedgeDataWrite m d, s, w => execHedgeDataWrite_wf m d s w
  | .hedgeApply, s, w => execHedgeApply_wf s w
  | .patternTest m stack ch d, s, w => execPatternTest_wf m stack ch d s w
  | .patternTestComplete stack ch pass errs, s, w => execPatternTestComplete_wf stack ch pass errs s w
  | .rdallWrite m stack ch d, s, w => execRdallWrite_wf m stack ch d s w
  | .wdallWrite m stack ch d, s, w => execWdallWrite_wf m stack ch d s w
  | .repairWrite m stack ch d, s, w => execRepairWrite_wf m stack ch d s w
  | .chmodeWrite m stack ch d, s, w => execChmodeWrite_wf m stack ch d s w
  | .channelOffline stack ch, s, w => execChannelOffline_wf stack ch s w
  | .stage m d, s, w => execStage_wf m d s w
  | .stageComplete, s, w => execStageComplete_wf s w
  | .activate m d, s, w => execActivate_wf m d s w
  | .abort m d, s, w => execAbort_wf m d s w
  | .svncommit m d, s, w => execSvncommit_wf m d s w
  | .ready ctl, s, w => execReady_wf ctl s w
  | .handed ctl, s, w => execHanded_wf ctl s w
  | .healthy ctl, s, w => execHealthy_wf ctl s w
  | .updateDeadline, s, w => execUpdateDeadline_wf s w
  | .switchWindowExpire, s, w => execSwitchWindowExpire_wf s w
  | .coreFirmwareSwitch core, s, w => execCoreFirmwareSwitch_wf core s w
  | .fwHealth core d, s, w => execFwHealth_wf core d s w
  | .boot ok, s, w => execBoot_wf ok s w
  | .clear m, s, w => execClear_wf m s w
  | .retry m, s, w => execRetry_wf m s w
  | .getVersion req, s, w => execGetVersion_wf req s w
  | .getCapabilities req, s, w => execGetCapabilities_wf req s w
  | .negotiateAlgorithms req, s, w => execNegotiateAlgorithms_wf req s w
  | .getDigests req, s, w => execGetDigests_wf req s w
  | .getCertificate req, s, w => execGetCertificate_wf req s w
  | .challenge req, s, w => execChallenge_wf req s w
  | .getMeasurements req, s, w => execGetMeasurements_wf req s w
  | .perst, s, w => execPerst_wf s w
  | .bar4Access off op, s, w => execBar4Access_wf off op s w
  | .msixMaskWrite m vec masked, s, w => execMsixMaskWrite_wf m vec masked s w
  | .cxlLinkDown p, s, w => execCxlLinkDown_wf p s w
  | .cxlLinkUp p, s, w => execCxlLinkUp_wf p s w
  | .undervoltage, s, w => execUndervoltage_wf s w
  | .thermalThrottle die temp, s, w => execThermalThrottle_wf die temp s w
  | .overtemperature die temp, s, w => execOvertemperature_wf die temp s w
  | .registerWrite m off d, s, w => execRegisterWrite_wf m off d s w
  | .throttleRelease temps, s, w => execThrottleRelease_wf temps s w
  | .laneRetrain port lane, s, w => execLaneRetrain_wf port lane s w
  | .controllerRestart n, s, w => execControllerRestart_wf n s w

/-! ### Issuing (R53, R60, R69, R157) -/

/-- The words of a bundle run in order, up to the first one that does not issue. -/
theorem runWords_wf (s : State) (ws : List BWord) (w : Canon s) : CanonNext (runWords s ws) := by
  induction ws generalizing s with
  | nil => exact .next w
  | cons b ws ih =>
    have k : CanonNext (exec b.instr s) := exec_wf _ _ w
    rw [runWords]
    split
    · next s1 h =>
        have w1 : Canon s1 := canon_next h k
        split
        · exact .next w1
        · exact .next w1
        · exact .next w1
        · exact ih s1 w1
    · exact k

theorem holdWords_wf (s s1 : State) (ws : List BWord) (w : Canon s) : Canon (holdWords s s1 ws) := by
  unfold holdWords
  extract_lets issue plain
  have wp : Canon plain := w
  clear_value plain
  split
  · exact wp
  · split
    · next s2 h =>
        have w2 : Canon s2 := canon_next h (exec_wf _ _ w)
        split
        · exact w2
        · exact wp
    · exact wp

theorem partBundle_wf (s : State) (b r : BWord) (w : Canon s) : CanonSome (partBundle s b r) := by
  rw [partBundle]
  split
  · exact .none
  · split
    · next s1 h1 =>
        have w1 : Canon s1 := canon_next h1 (exec_wf _ _ w)
        split
        · exact .none
        · split
          · next s2 h2 =>
              have w2 : Canon s2 := canon_next h2 (exec_wf _ _ w1)
              split
              · exact .some w2
              · exact .none
          · exact .none
    · exact .none

theorem restBundle_wf (s : State) (v : View) (r : BWord) (w : Canon s) : CanonNext (restBundle s v r) := by
  have k : CanonNext (exec r.instr { s with issue := { s.issue with view := some v } }) := exec_wf _ _ w
  rw [restBundle]
  extract_lets
  split
  · next s1 h =>
      have w1 : Canon s1 := canon_next h k
      split
      · exact .next w1
      · exact .next (takeFault_wf _ _ w)
      · exact .next (consumePoison_wf _ w)
      · exact .next w1
  · exact k

/-- The words of a bundle, all of them, the last one of a bundle in part, or the one that is held. -/
theorem runBundle_wf (s : State) (ws : List BWord) (w : Canon s) : CanonNext (runBundle s ws) := by
  have k : CanonNext (runWords s ws) := runWords_wf s ws w
  rw [runBundle.eq_def]
  split
  · exact exec_wf _ _ w
  · split
    · exact restBundle_wf _ _ _ w
    · split
      · next s1 h =>
          have w1 : Canon s1 := canon_next h k
          split
          · exact .next (takeFault_wf _ _ w)
          · exact .next (consumePoison_wf _ w)
          · split
            · exact .next ((partBundle_wf _ _ _ w).getD (holdWords_wf _ _ _ w))
            · exact .next (holdWords_wf _ _ _ w)
          · exact .next w1
      · exact k

theorem noteIssue_wf (s : State) (g : Agent) (w : Canon s) : Canon (noteIssue s g) := by
  unfold noteIssue
  split <;> exact w

theorem finishBundle_wf (s : State) (used : Nat) (w : Canon s) : Canon (finishBundle s used) := by
  unfold finishBundle
  extract_lets -underBinder s1
  have w_s1 : Canon s1 := Canon.of_mem (State.modMyStream_mem ..) (countPending_wf _ w)
  exact noteIssue_wf _ _ w_s1

/-- What closes a bundle when its words have run. -/
theorem settle_wf (used : Nat) (o : Host.Outcome State Fault Refusal) (k : CanonNext o) : CanonNext (settle used o) := by
  cases o with
  | fault r => exact .fault r
  | refused r => exact k
  | next s =>
    have w : Canon s := k s rfl
    unfold settle
    dsimp only
    split
    · exact .next (finishBundle_wf _ _ w)
    · exact .next (finishBundle_wf _ _ w)
    · exact .next (drainPending_wf _ (finishBundle_wf _ _ w))
    · exact .next w

theorem issueBundle_wf (s : State) (g : Agent) (b : Block) (w : Canon s) : CanonNext (issueBundle s g b) := by
  unfold issueBundle
  extract_lets s0 r
  have w0 : Canon s0 := w
  clear_value s0 r
  split
  · exact .next (takeTrap_wf _ _ w0)
  · split
    · exact .next (takeFault_wf _ _ w0)
    · split
      · exact .next w0
      · next s' s1 _ _ _ _ _ _ =>
          have w' : Canon s' := fetched_wf _ _ _ _ w
          have w1 : Canon s1 := w'
          clear_value s1
          exact settle_wf _ _ (runBundle_wf _ _ w1)

theorem issueHeader_wf (s : State) (g : Agent) (w : Canon s) : CanonNext (issueHeader s g) := by
  unfold issueHeader
  extract_lets s0 pc notHeader
  have w0 : Canon s0 := w
  clear_value s0 pc notHeader
  split
  · exact .next (takeFault_wf _ _ w0)
  · split
    · exact .next (takeTrap_wf _ _ w0)
    · split
      · exact .next (takeFault_wf _ _ w0)
      · split
        · exact .next (takeTrap_wf _ _ w0)
        · split
          · exact exec_wf _ _ (fetched_wf _ _ _ _ w0)
          · exact .next (takeFault_wf _ _ w0)

theorem issueAgent_wf (s : State) (g : Agent) (w : Canon s) : CanonNext (issueAgent s g) := by
  rw [issueAgent]
  split
  · exact issueBundle_wf _ _ _ w
  · exact issueHeader_wf _ _ w

/-! ### Arbitration (R320 to R322) -/

theorem ageUnit_wf (s : State) (c : Nat) (k : StreamId) (w : Canon s) : Canon (ageUnit s c k) := by
  unfold ageUnit
  split
  · split
    · exact w
    · extract_lets -underBinder
      exact w

theorem ageUnits_wf (s : State) (w : Canon s) : Canon (ageUnits s) := by
  unfold ageUnits
  split
  · exact w
  · exact foldl_wf _ _ (fun _ _ w1 => ageUnit_wf _ _ _ (ageUnit_wf _ _ _ (ageUnit_wf _ _ _ w1))) w

theorem cycleDue_wf (s : State) (w : Canon s) : Canon (cycleDue s) :=
  noteFits_wf _ (Canon.of_mem (readyDue_mem ..) (agePackets_wf _ (ageNests_wf _ (ageRecords_wf _ (ageUnits_wf _ w)))))

theorem due_wf (i : Instr) (s : State) (w : Canon s) : Canon (due i s) := by
  unfold due
  split
  · exact cycleDue_wf _ w
  · exact ageUnits_wf _ w
  · exact w

theorem spend_wf (c : Nat) (i : StreamId) (o : Host.Outcome State Fault Refusal) (k : CanonNext o) : CanonNext (spend c i o) := by
  cases o with
  | next s => exact .next (canon_ite (k s rfl) (k s rfl))
  | fault r => exact k
  | refused r => exact k

/-- What follows an outcome, where that is a state. -/
theorem andThen_wf (o : Host.Outcome State Fault Refusal) (f : State → Host.Outcome State Fault Refusal) (k : CanonNext o)
    (hf : ∀ s, Canon s → CanonNext (f s)) : CanonNext (andThen o f) := by
  cases o with
  | next s => exact hf s (k s rfl)
  | fault r => exact k
  | refused r => exact k

theorem enterBlock_wf (s : State) (g : Agent) (w : Canon s) : CanonNext (enterBlock s g) := by
  rw [enterBlock]
  split
  · exact issueHeader_wf _ _ w
  · exact .next w

/-- The two agents of a unit: one of them runs, or the other where the first one waits. -/
theorem jobsTurn_wf (s : State) (c : Nat) (k : StreamId) (w : Canon s) : CanonNext (jobsTurn s c k) := by
  have issue : ∀ (u : State) (g : Agent), Canon u → CanonNext (spend c k (issueAgent u g)) :=
    fun u g wu => spend_wf _ _ _ (issueAgent_wf u g wu)
  rw [jobsTurn]
  split
  next g0 g1 _ =>
  split
  · exact .next w
  · exact issue _ _ w
  · exact issue _ _ w
  · extract_lets o0 o1
    have k0 : CanonNext o0 := issueAgent_wf _ _ w
    have k1 : CanonNext o1 := issueAgent_wf _ _ w
    clear_value o0 o1
    split
    · exact andThen_wf _ _ k0 fun s1 w1 => issue _ _ w1
    · split
      · exact andThen_wf _ _ k1 fun s1 w1 => issue _ _ w1
      · split
        · exact andThen_wf _ _ k0 fun s1 w1 => .next w1
        · exact andThen_wf _ _ k1 fun s1 w1 => .next w1

theorem noteFw_wf (s : State) (c : Nat) (w : Canon s) : Canon (noteFw s c) := by
  unfold noteFw
  extract_lets -underBinder pass s1
  have w_pass : ∀ (s : State) (g : Agent), Canon s → Canon (pass s g) := by
    unfold pass
    intro _ _ w1
    split <;> exact w1
  have w_s1 : Canon s1 := w_pass _ _ (w_pass _ _ w)
  split
  · exact w
  · exact w_s1

theorem unitTurn_wf (s : State) (c : Nat) (k : StreamId) (w : Canon s) : CanonNext (unitTurn s c k) := by
  rw [unitTurn]
  split
  split
  · exact andThen_wf _ _ (enterBlock_wf _ _ w) fun s1 w1 => enterBlock_wf _ _ w1
  · split
    · exact .next w
    · extract_lets -underBinder s1 g
      have w1 : Canon s1 := ageUnit_wf _ _ _ w
      clear_value s1 g
      split
      · exact spend_wf _ _ _ (issueAgent_wf _ _ (noteFw_wf _ _ w1))
      · exact jobsTurn_wf _ _ _ w1

theorem spendOwn_wf (n : Nat) (o : Host.Outcome State Fault Refusal) (k : CanonNext o) : CanonNext (spendOwn n o) := by
  cases o with
  | next s => exact .next (k s rfl)
  | fault r => exact k
  | refused r => exact k

theorem contextTurn_wf (s : State) (n : Nat) (w : Canon s) : CanonNext (contextTurn s n) := by
  rw [contextTurn]
  split
  · exact .next w
  · split
    · exact issueHeader_wf _ _ w
    · split
      · exact issueAgent_wf _ _ w
      · split
        · split
          · exact .next w
          · exact spendOwn_wf _ _ (issueAgent_wf _ _ w)
        · split
          · exact .next w
          · exact spend_wf _ _ _ (issueAgent_wf _ _ (noteFw_wf _ _ w))

/-! ### Turns that wait (R371, R518, R523) -/

theorem postpone_wf (s : State) (w : Canon s) : Canon (postpone s) := by
  unfold postpone
  split
  · exact w
  · split
    · split
      · exact w
      · split <;> exact w

/-- A turn that a channel holds is put off (log 124); any other is taken. -/
theorem unlessHeld_wf (s : State) (a : Host.Outcome State Fault Refusal) (w : Canon s) (ha : CanonNext a) : CanonNext (unlessHeld s a) := by
  unfold unlessHeld
  split
  · split
    · exact .next (postpone_wf _ w)
    · exact ha
  · exact ha

/-! ### Placing a word where the next bundle is fetched (log 2) -/

theorem nextTurn_wf (s : State) (w : Canon s) : Canon (nextTurn s).2 := by
  rw [nextTurn]
  split
  · exact w
  · exact w

/-- Every kind of turn of a module that has power. -/
theorem takeTurn_wf (t : Turn) (s : State) (w : Canon s) : CanonNext (takeTurn t s) := by
  cases t with
  | event i =>
      rw [takeTurn]
      split
      · exact exec_wf _ _ (due_wf _ _ w)
      · exact .next w
  | unit c k => exact unitTurn_wf _ _ _ w
  | context n => exact contextTurn_wf _ _ w
  | fill cl u i c x va => exact .next (fillTlb_wf _ _ _ _ _ _ _ w)
  | l2 c x a h => exact .next (l2Access_wf _ _ _ _ _ w)
  | sector n => exact .next (sectorRead_wf _ _ w)
  | wear u i e => exact .next (cellError_wf _ _ _ _ w)
  | slice n l => exact .next (sliceError_wf _ _ _ w)
  | bar4 n => exact .next (resizeBar4_wf _ _ w)
  | sensors t v x => exact .next (readSensors_wf _ _ _ _ w)
  | i3c o d => exact .next (i3cWrite_wf _ _ _ w)

/-- A turn without power: the boot runs, and every other one is lost or a fault. -/
theorem offTurn_wf (t : Turn) (s : State) (w : Canon s) : CanonNext (offTurn t s) := by
  rw [offTurn.eq_def]
  split
  · exact exec_wf _ _ w
  · exact .next w
  · exact .next w
  · exact .next w
  · exact .next w
  · exact .next w
  · exact .next w
  · exact .next w
  · exact .next w
  · exact .next w
  · exact .fault _
  · exact .fault _

/-- A step of the machine, with power and without. -/
theorem step_wf (s : State) (w : Canon s) : CanonNext (step s) := by
  have wn : Canon (nextTurn s).2 := nextTurn_wf s w
  rw [step]
  split
  · exact unlessHeld_wf _ _ w (takeTurn_wf _ _ wn)
  · exact offTurn_wf _ _ wn

/-! ## The obligations -/

/-- Settles O57: `step_wf`, which holds of every turn, so of a unit's and a context's. -/
theorem memoryKeptByBundles : Obligations.MemoryKeptByBundles := by
  unfold Obligations.MemoryKeptByBundles
  intro s t w _ h
  exact canon_next h (step_wf s w)

/-- Settles O58: `step_wf`, which holds of every turn, so of an event's. -/
theorem memoryKeptByEvents : Obligations.MemoryKeptByEvents := by
  unfold Obligations.MemoryKeptByEvents
  intro i s t w _ h
  exact canon_next h (step_wf s w)

/-- Settles O59: the memory of a reset lists nothing (log 1). -/
theorem memoryCanonicalAtReset : Obligations.MemoryCanonicalAtReset := by
  unfold Obligations.MemoryCanonicalAtReset
  exact ⟨reset_wf, fun _ => rfl⟩

end Sys2Proof.Machine

end
